-- ==== Sys2Proof/Word.lean ====
section
/-!
DEFINITION. The word types of the Claoc-2 module, the numbers that name its parts, and the plainest
operations on them. Nothing here is an operation of the machine.
-/

namespace Sys2Proof

abbrev Byte := BitVec 8
abbrev W16 := BitVec 16
abbrev W32 := BitVec 32
abbrev W64 := BitVec 64

/-- Logical core ID, 0 to 767 (R19, R20). -/
abbrev CoreId := Fin 768
/-- Physical core index ((die × 4 + region) × 6 + cluster) × 9 + slot, 0 to 863 (R18). -/
abbrev PhysId := Fin 864
/-- Cluster index, 0 to 95 (R18). -/
abbrev ClusterId := Fin 96
/-- Region index die × 4 + region, 0 to 15 (R18). -/
abbrev RegionId := Fin 16
/-- Die number, 0 to 3 (1.1). -/
abbrev DieId := Fin 4
/-- Stack number, 0 to 11 (1.1). -/
abbrev StackId := Fin 12
/-- Ring channel number, 0 to 15 (1.1). -/
abbrev RingId := Fin 16
/-- Flue port number, 0 to 35 (0.7). -/
abbrev PortId := Fin 36
/-- Partition number, 0 to 15 (R11). -/
abbrev PartId := Fin 16
/-- Group number on a core, 0 to 47 (R97). -/
abbrev GroupId := Fin 48
/-- Module ID, 18 bits (R219). -/
abbrev ModuleId := BitVec 18

/-- Bits [hi:lo] of a word as a number. -/
def bitsOf {n : Nat} (w : BitVec n) (hi lo : Nat) : Nat :=
  (w.toNat >>> lo) % 2 ^ (hi + 1 - lo)

/-- Bits [hi:lo] of a number. -/
def natBits (w hi lo : Nat) : Nat :=
  (w >>> lo) % 2 ^ (hi + 1 - lo)

end Sys2Proof
end

