-- ==== Sys2Proof/Syntax.lean ====
section
/-!
DEFINITION. The commands of the Claoc-2 module: one constructor of `Instr` per row of opcode_table.json, and
the operand types they carry. A command is one indivisible step of the part (95_what_each_step_holds.md);
its operands say which unit acts and what comes from outside (a word, an address, a measurement).
-/

namespace Sys2Proof

/-- RISC-V integer register number. -/
abbrev XReg := Fin 32
/-- Queue selector of R79: 0 VE, 1 MU, 2 DE, 4 to 15 the grate queue of stack selector − 4. -/
abbrev QSel := Fin 16

/-- The registers of the CSR space, by the names of the manual's register tables. The `CNT` names are the
counter pairs of Table 15.12. -/
inductive RegName where
  | STO_KS_ADDR_LO | STO_KS_ADDR_HI | STO_KS_LEN | STO_KS_CTRL
  | STO_KS_STATUS | STO_KS_SEQ | CORE_CC_CFG | CORE_ADM_STATUS
  | CORE_ADM_ADDR_LO | CORE_ADM_ADDR_HI | CORE_SPAN_BASE_LO | CORE_SPAN_BASE_HI
  | CORE_SPAN_COUNT | CORE_VE_CFG | CORE_VE_STATUS | CORE_VE_FAULT
  | CORE_VE_FAULT_ADDR_LO | CORE_VE_FAULT_ADDR_HI | CORE_VE_KILL | CLU_DIST_CFG
  | CLU_DIST_RING_LO | CLU_DIST_RING_HI | CORE_FP_FLAGS | CORE_MU_CUBES
  | CORE_MU_STATUS | CORE_MU_BUBBLE_LO | CORE_MU_BUBBLE_HI | GRT_ENGINES
  | GRT_STATUS | GRT_ITEMS_LO | GRT_ITEMS_HI | GRT_PT_BASE_LO
  | GRT_PT_BASE_HI | GRT_PT_COUNT | GRT_PT_CFG | STK_TEMP
  | STK_TEMP_MAX | STK_SPLIT | STK_REPAIR | STK_CE_COUNT
  | MOD_GOLD_CTRL | MOD_GOLD_STATUS | MOD_XLT_CTX_LO | MOD_XLT_CTX_HI
  | MOD_XLT_S2_LO | MOD_XLT_S2_HI | MOD_XLT_PIN_LO | MOD_XLT_PIN_HI
  | MOD_XLT_SWAP | MOD_XLT_INV | MOD_XLT_FR_LO | MOD_XLT_FR_HI
  | MOD_XLT_FR_CTRL | MOD_XLT_FR_HEAD | MOD_XLT_RESOLVE | FCH_VIEW_WHERE
  | FCH_VIEW_SEL | FCH_VIEW_STATE | FCH_VIEW_VALUE_LO | FCH_VIEW_VALUE_HI
  | FCH_VIEW_LAST_SRC | FCH_VIEW_LAST_TIME_LO | FCH_VIEW_LAST_TIME_HI | FCH_VIEW_WAITER
  | FCH_SLOT_CFG | FCH_SLOT_COMP | FCH_SLOT_PARENT | FCH_SLOT_INDEX
  | FCH_SLOT_MASK | FCH_SLOT_PHASE_LO | FCH_SLOT_PHASE_HI | FCH_SLOT_STATUS
  | FCH_GROUP | FCH_SYSDIR | DB_CFG | DB_RING_LO
  | DB_RING_HI | TRIG_CFG | TRIG_LO | TRIG_HI
  | FLP_STATUS | FLP_ERRS | RMT_BASE_LO | RMT_BASE_HI
  | RMT_LEN | RMT_SRC | CORE_SQ_CFG | CORE_SQ_RING
  | CORE_SQ_RESV | CLU_SPARE | CLU_RS_STATUS | CLU_TEST
  | RGN_LAG_CFG | RGN_LAG_STATUS | MOD_LOSS_CFG | STO_ALOG_STATUS
  | STO_ALOG_POP | STO_ALOG_REC | CLU_CORE_MAP | RGN_PERF_REQ
  | RGN_DVFS_STATUS | RGN_POWER | MOD_PWR_STATE | MOD_PWR_EVENT
  | MOD_MODE_NEXT | MOD_MODE_CTRL | MOD_MODE_EPOCH | MOD_MODE_STATUS
  | MOD_MODE_CUR | MOD_ID | MOD_DAMP_CTRL | MOD_DAMP_TIME_LO
  | MOD_DAMP_RES_LO | MOD_DAMP_TIME_HI | MOD_DAMP_RES_HI | MOD_DAMP_BUF_LO
  | MOD_DAMP_BUF_HI | MOD_DAMP_STATUS | MOD_OBS_CFG | MOD_OBS_EXP_LO
  | MOD_OBS_EXP_HI | MOD_OBS_STATUS | MOD_TRC_BASE_LO | MOD_TRC_BASE_HI
  | MOD_TRC_CTRL | MOD_TRC_HEAD | MOD_TRC_DROPS | STO_BOOT_STATUS
  | CORE_CNT_LO | CORE_CNT_HI | DIE_CNT_LO | DIE_CNT_HI
  | STK_CNT_LO | STK_CNT_HI | RNG_CNT_LO | RNG_CNT_HI
  | FLP_CNT_LO | FLP_CNT_HI
deriving DecidableEq, Repr

/-- A register: its name, the index of the unit or partition that holds it, and its index there. -/
structure RegRef where
  name : RegName
  i : Nat := 0
  j : Nat := 0
deriving DecidableEq, Repr

/-- The agents of R380 and R382 that access registers. -/
inductive Agent where
  | cc (l : CoreId)
  | pf0
  | vf (p : PartId)
  | stoker
  | debug
deriving DecidableEq, Repr

/-- The fields of a thread instruction word but for its opcode (Tables 5.1 and 5.2), with the literal word
that follows when `bcls` is 3 (R129). -/
structure TWord where
  gneg : Bool := false
  guard : BitVec 3 := 7
  dst : BitVec 8 := 255
  srcA : BitVec 8 := 255
  srcB : BitVec 8 := 255
  srcC : BitVec 8 := 255
  ud : Bool := false
  ua : Bool := false
  bcls : BitVec 2 := 0
  uc : Bool := false
  opx : BitVec 11 := 0
  yld : Bool := false
  lit : W64 := 0
deriving DecidableEq, Repr

/-- The interrupts a control core takes (R60). -/
inductive CcIrq where
  | mqpushAdmission | stokerMailbox | timer
deriving DecidableEq, Repr

/-- Where a block that is to start comes from: a local-mode grid's slot on its own core, or the pulled
blocks of a cluster's distributor (R107, R111). -/
inductive BlockSrc where
  | locally (l : CoreId) (slot : Fin 4)
  | pulled (c : ClusterId)
deriving DecidableEq, Repr

/-- The functions of the host endpoint (Table 12.10). -/
inductive HostFn where
  | pf0 | vf (p : PartId)
deriving DecidableEq, Repr

/-- The source of an access that a home serves (R77): the engines of a core, a stack's grate engines for the core whose queue
commands them (R15), a function of the host, another module through a flue port, the Stoker, the distributor of a cluster. -/
inductive Unit where
  | ve (l : CoreId) | mu (l : CoreId) | de (l : CoreId) | grate (s : StackId) (l : CoreId) | host (f : HostFn)
  | remote (p : PortId) | cc (l : CoreId) | stoker | dist (c : ClusterId)
deriving DecidableEq, Repr

/-- A request of a unit at a home: a read or a write of the bytes that follow (R76, R77, R222, R223). -/
inductive HomeOp where
  | read (addr : Nat) (len : Nat) (stream : Bool)
  | write (addr : Nat) (data : List Byte)
deriving DecidableEq, Repr

/-- A kernel of an image: where its code lies in partition memory, its words (R128, R135), the registers and the reconvergence
depth that it declares (R114). -/
structure Kernel where
  addr : Nat
  words : List W64
  regs : Nat
  depth : Nat
deriving DecidableEq, Repr

/-- One arena of an image (R91). -/
structure Arena where
  base : Nat := 0
  len : Nat := 0
  virt : Bool := false
  ctx : Nat := 0
deriving DecidableEq, Repr

/-- The control program of one core of an image: its logical core and its IMEM words (R62). -/
structure CcProgram where
  core : CoreId
  words : List W32
deriving DecidableEq, Repr

/-- A launch ring that an image declares, with the clusters that pull from it; none for every cluster of the
partition (Table 4.9f). -/
structure RingDecl where
  ring : Fin 4
  base : Nat
  clusters : List ClusterId
deriving DecidableEq, Repr

/-- A Gebry image as the loader sees it (3.7). The spec gives no file format: the facts that only the file
shows (its digest matches, the certificate of each span holds, its stores keep to open fields) are Booleans of the
operand; the facts the model can check are checked from the data. -/
structure Image where
  digestOk : Bool
  claoc2 : Bool
  digest : BitVec 384
  programs : List CcProgram
  noImemStore : Bool
  templatesOk : Bool
  templates : List Byte
  fixedFieldsOk : Bool
  certs : List Bool
  spanBase : Nat
  arenas : List Arena
  spans : List (W64 × W64)
  kernels : List Kernel
  pinnedRanges : List (Nat × Nat)
  rings : List RingDecl
  needClusters : Nat
  needModCounters : Nat
  needRgnCounters : Nat
  needSysCounters : Nat
  needBarriers : Nat
deriving DecidableEq, Repr

/-- Signal kinds (Table 11.4). -/
inductive SigKind where
  | add | raise | arrive
deriving DecidableEq, Repr

/-- A signal as it reaches its home (R274 to R276): the counter's index in counter space, the stream and
sequence number that identify it (none for the Stoker, the Chimney and doorbells), the source number, the
operand. -/
structure SigMsg where
  ctr : Nat
  kind : SigKind
  stream : Option W32
  seq : W32
  src : W32
  operand : W64
deriving DecidableEq, Repr

/-- An arrival at a barrier slot (R281): from a core engine, or from a child slot of another module. -/
inductive Arrival where
  | core (l : CoreId)
  | child (module : ModuleId) (index : Fin 1024)
deriving DecidableEq, Repr

/-- Who waits on a counter (R278). -/
inductive Waiter where
  | cc (l : CoreId)
  | group (l : CoreId) (g : GroupId)
  | entry (l : CoreId) (q : QSel) (accepted : Nat)
  | module (m : ModuleId)
deriving DecidableEq, Repr

/-- The source and identity of a memory-side operation (Table 13.5). -/
inductive MemSrc where
  | reduce (stream : W32) (accepted : Nat) (elem word : Nat)
  | atomic (stream : W32) (number lane : Nat) (wantsOld : Bool)
  | plain
deriving DecidableEq, Repr

/-- A memory-side operation (R231, R232, Table 5.14): code, signedness, target, operand and compare value. -/
structure MemOp where
  src : MemSrc
  code : Fin 16
  sgn : Bool
  addr : Nat
  operand : W64
  cmp : W64
deriving DecidableEq, Repr

/-- What an error-correcting code found in one word or granule (R226, R228, R330). -/
inductive EccResult where
  | clean | corrected | uncorrectable
deriving DecidableEq, Repr

/-- What an error-correcting code found at a place. -/
structure EccAt (α : Type) where
  place : α
  result : EccResult
deriving DecidableEq, Repr

/-- The ordering bits of an atomic of a control core, and whether it is of 8 bytes (R59, R78). -/
structure AtomicForm where
  aq : Bool
  rl : Bool
  dbl : Bool
deriving DecidableEq, Repr

/-- A FENCE or FENCE.I with the fields that neither uses (R59, R70). -/
structure FenceForm where
  fencei : Bool
  rd : XReg
  rs1 : XReg
  imm : BitVec 12
deriving DecidableEq, Repr

/-- Link parameters of the peer (R294). -/
structure LinkParams where
  module : ModuleId
  port : PortId
  role : BitVec 2
  timeRole : Byte
deriving DecidableEq, Repr

/-- The fields of a flit (Table 12.3). -/
structure Flit where
  seq : BitVec 12
  ack : BitVec 12
  nak : Bool
  vc : BitVec 3
  head : Bool
  tail : Bool
  type : BitVec 2
  vc0 : BitVec 3
  cnt0 : Byte
  vc1 : BitVec 3
  cnt1 : Byte
  payload : List Byte
deriving DecidableEq, Repr

/-- A packet (Table 12.5): its header and the data that follow it. `vc` is the virtual channel it arrived on. -/
structure Packet where
  dst : ModuleId
  op : BitVec 6
  src : ModuleId
  tag : W32
  born : W32
  addr : W64
  len : W32
  seq : W32
  vc : BitVec 3
  data : List Byte
deriving DecidableEq, Repr

/-- The two BARs of a function. -/
inductive Bar where
  | bar0 | bar2
deriving DecidableEq, Repr

/-- The arbiters of the module (Table 1.3, R227, R299): a core's port, a cluster's port, a region, a die, a stack's memory
controller, the output of a flue port. -/
inductive Arbiter where
  | core (l : CoreId) | cluster (c : ClusterId) | region (r : RegionId) | die (d : DieId) | stack (s : StackId)
  | port (p : PortId)
deriving DecidableEq, Repr

/-- Where a request enters the arbiters (Table 1.3, R227): an engine of a core at its core port (0 CC, 1 DE, 2 VE), a bridge
port (0 horizontal, 1 vertical) or a stack's grate return path at its die arbiter, class G or class I at a stack controller. -/
inductive ArbSource where
  | engine (l : CoreId) (e : Fin 3) | bridge (d : DieId) (b : Fin 2) | grateReturn (s : StackId)
  | classG (s : StackId) | classI (s : StackId)
deriving DecidableEq, Repr

/-- A request that arrives in a census window: the cycle of the window, where it enters, the bytes that it moves, and whether
its class is background (R325). -/
structure ArbArrival where
  cycle : Fin 256
  src : ArbSource
  bytes : Nat
  background : Bool
deriving DecidableEq, Repr

/-- The engine kinds that the lag monitor samples (R346). -/
inductive LagEngine where
  | ve | mu | de
deriving DecidableEq, Repr

/-- The units of a partition that hold a mode (R367). -/
inductive ModeUnit where
  | cc (l : CoreId) | ve (l : CoreId) | mu (l : CoreId) | de (l : CoreId)
  | dist (c : ClusterId) | sched (s : StackId)
deriving DecidableEq, Repr

/-- An error that the record store meets in an instruction record (R332): corrected in place, lost in one copy, lost in
both. -/
inductive RecordUe where
  | corrected | oneCopy | bothCopies
deriving DecidableEq, Repr

/-- A temperature sensor whose readings throttle or shut down (R236, R410): a region's, or a die uncore's. -/
inductive TempSensor where
  | region (r : RegionId) | dieUncore (d : DieId)
deriving DecidableEq, Repr

/-- Result of a slot's self-test (R348). -/
inductive TestResult where
  | passed | failed | slow
deriving DecidableEq, Repr

/-- What the hardware reports at the end of a boot phase (Table 16.2): the rails and PLLs, the slots that
fail self-test, the stacks and channels that train, the host-link ports. -/
structure BootReport where
  railsOk : Bool := true
  badSlots : List PhysId := []
  badCubes : List (PhysId × BitVec 9) := []
  badStack : Bool := false
  hostLinkOk : Bool := true
deriving DecidableEq, Repr

/-- A Stoker firmware image in flash (R405). -/
structure FwImage where
  version : Nat
  sigOk : Bool
  measurement : BitVec 384
  verifier : BitVec 384
deriving DecidableEq, Repr

/-- A component of a PLDM firmware update (Table 16.8). -/
inductive FwComponent where
  | stoker (img : FwImage)
  | stream (bytes : List Byte)
deriving DecidableEq, Repr

/-- PLDM sensors (Table 16.7). -/
inductive Sensor where
  | regionTemp (r : RegionId) | stackTemp (s : StackId) | dieTemp (d : DieId) | ringTemp (f : RingId)
  | regionPower (r : RegionId) | modulePower | powerDomain (d : Fin 50) | bootPhase
deriving DecidableEq, Repr

/-- Retained state of a core in which an uncorrectable error is met (R351, 13.3). -/
inductive RetainedPart where
  | localMem (offset : Nat) | dmem (offset : Nat) | imem (offset : Nat) | locked (offset : Nat) | ccState
deriving DecidableEq, Repr

/-- The reader that meets an uncorrectable error (Table 9.3, R349): a grate engine, or any other reader. -/
inductive UeReader where
  | grate (s : StackId) (e : Fin 16) | other
deriving DecidableEq, Repr

/-- Where an instruction that is traced or halted stands, for single registers of a hart. -/
inductive HartReg where
  | x (r : XReg) | csr (n : BitVec 12)
deriving DecidableEq, Repr

/-- The signature of a signed management command (R416): the key slot, none for the factory root key; the nonce and when
the Stoker issued it for this command, none where it did not; ECDSA values r and s over body and nonce. -/
structure MgmtSig where
  key : Option (Fin 4)
  nonce : BitVec 256
  issued : Option W64
  r : Nat
  s : Nat
deriving DecidableEq, Repr

/-- The commands: one constructor per row of opcode_table.json, in the table's order. -/
inductive Instr where
  -- control core (03)
  | qpush (l : CoreId) (rd rs1 rs2 : XReg) (f7 : BitVec 7)
  | qpushAdmission (l : CoreId)
  | qstat (l : CoreId) (rd rs1 : XReg) (f7 : BitVec 7)
  | cwait (l : CoreId) (rd rs1 rs2 : XReg) (f7 : BitVec 7)
  | csig (l : CoreId) (rd rs1 rs2 : XReg) (f7 : BitVec 7)
  | gtb (l : CoreId) (rd : XReg) (f7 : BitVec 7)
  | ccInstruction (l : CoreId) (w : W32)
  | ccLoad (l : CoreId) (rd rs1 : XReg) (imm : BitVec 12) (f3 : BitVec 3)
  | ccStore (l : CoreId) (rs1 rs2 : XReg) (imm : BitVec 12) (f3 : BitVec 3)
  | ccAmo (l : CoreId) (f5 : BitVec 5) (form : AtomicForm) (rd rs1 rs2 : XReg)
  | ccLr (l : CoreId) (form : AtomicForm) (rd rs1 : XReg)
  | ccSc (l : CoreId) (form : AtomicForm) (rd rs1 rs2 : XReg)
  | ccFence (l : CoreId) (form : FenceForm)
  | mfpflagsClear (l : CoreId) (rd : XReg) (immForm : Bool) (src : BitVec 5)
  | ccInterrupt (l : CoreId) (irq : CcIrq)
  | mtimecmpMatch (l : CoreId)
  | ccLineFill (l : CoreId)
  | readSnoop (l : CoreId) (line : Nat)
  | ownershipSnoop (l : CoreId) (line : Nat)
  | writebackDone (l : CoreId)
  | homeRequest (u : Unit) (op : HomeOp)
  | ccCfgWrite (a : Agent) (k : PhysId) (v : W32)
  | spanBaseWrite (a : Agent) (k : PhysId) (v : W64)
  | spanCountWrite (a : Agent) (k : PhysId) (v : W32)
  | imageLoad (p : PartId) (img : Image)
  | instrStart (l : CoreId) (q : QSel)
  | instrComplete (l : CoreId) (q : QSel) (acc : Nat)
  | instrCommit (l : CoreId) (q : QSel) (acc : Nat)
  -- vector engine: grids and blocks (04)
  | launch (l : CoreId)
  | gridEntryAppend (l : CoreId) (slot : Fin 4)
  | distClaim (c : ClusterId) (ring : Fin 4)
  | blockStart (b : BlockSrc)
  | l1Fill (l : CoreId) (line : Nat)
  | veCfgWrite (a : Agent) (k : PhysId) (v : W32)
  | splitApply (l : CoreId)
  | veKill (a : Agent) (k : PhysId) (v : W32)
  | gridKillComplete (l : CoreId) (slot : Fin 4)
  -- thread instructions (05)
  | nop (l : CoreId) (g : GroupId) (w : TWord)
  | iadd (l : CoreId) (g : GroupId) (w : TWord)
  | isub (l : CoreId) (g : GroupId) (w : TWord)
  | imul (l : CoreId) (g : GroupId) (w : TWord)
  | imulhi (l : CoreId) (g : GroupId) (w : TWord)
  | imad (l : CoreId) (g : GroupId) (w : TWord)
  | idiv (l : CoreId) (g : GroupId) (w : TWord)
  | irem (l : CoreId) (g : GroupId) (w : TWord)
  | imin (l : CoreId) (g : GroupId) (w : TWord)
  | imax (l : CoreId) (g : GroupId) (w : TWord)
  | iabs (l : CoreId) (g : GroupId) (w : TWord)
  | blut (l : CoreId) (g : GroupId) (w : TWord)
  | shl (l : CoreId) (g : GroupId) (w : TWord)
  | shr (l : CoreId) (g : GroupId) (w : TWord)
  | popc (l : CoreId) (g : GroupId) (w : TWord)
  | clz (l : CoreId) (g : GroupId) (w : TWord)
  | brev (l : CoreId) (g : GroupId) (w : TWord)
  | bfe (l : CoreId) (g : GroupId) (w : TWord)
  | bfi (l : CoreId) (g : GroupId) (w : TWord)
  | mov (l : CoreId) (g : GroupId) (w : TWord)
  | fadd (l : CoreId) (g : GroupId) (w : TWord)
  | fmul (l : CoreId) (g : GroupId) (w : TWord)
  | ffma (l : CoreId) (g : GroupId) (w : TWord)
  | fmin (l : CoreId) (g : GroupId) (w : TWord)
  | fmax (l : CoreId) (g : GroupId) (w : TWord)
  | frcp (l : CoreId) (g : GroupId) (w : TWord)
  | frsq (l : CoreId) (g : GroupId) (w : TWord)
  | fsqrt (l : CoreId) (g : GroupId) (w : TWord)
  | fexp2 (l : CoreId) (g : GroupId) (w : TWord)
  | flog2 (l : CoreId) (g : GroupId) (w : TWord)
  | fsin (l : CoreId) (g : GroupId) (w : TWord)
  | fcos (l : CoreId) (g : GroupId) (w : TWord)
  | hadd2 (l : CoreId) (g : GroupId) (w : TWord)
  | hmul2 (l : CoreId) (g : GroupId) (w : TWord)
  | hfma2 (l : CoreId) (g : GroupId) (w : TWord)
  | hmin2 (l : CoreId) (g : GroupId) (w : TWord)
  | hmax2 (l : CoreId) (g : GroupId) (w : TWord)
  | cvt (l : CoreId) (g : GroupId) (w : TWord)
  | cvti (l : CoreId) (g : GroupId) (w : TWord)
  | cvtx (l : CoreId) (g : GroupId) (w : TWord)
  | mxscale (l : CoreId) (g : GroupId) (w : TWord)
  | cvts (l : CoreId) (g : GroupId) (w : TWord)
  | pack6 (l : CoreId) (g : GroupId) (w : TWord)
  | unpk6 (l : CoreId) (g : GroupId) (w : TWord)
  | icmp (l : CoreId) (g : GroupId) (w : TWord)
  | fcmp (l : CoreId) (g : GroupId) (w : TWord)
  | plut (l : CoreId) (g : GroupId) (w : TWord)
  | pick (l : CoreId) (g : GroupId) (w : TWord)
  | pget (l : CoreId) (g : GroupId) (w : TWord)
  | pput (l : CoreId) (g : GroupId) (w : TWord)
  | bra (l : CoreId) (g : GroupId) (w : TWord)
  | split (l : CoreId) (g : GroupId) (w : TWord)
  | join (l : CoreId) (g : GroupId) (w : TWord)
  | exit (l : CoreId) (g : GroupId) (w : TWord)
  | bsync (l : CoreId) (g : GroupId) (w : TWord)
  | ldl (l : CoreId) (g : GroupId) (w : TWord)
  | stl (l : CoreId) (g : GroupId) (w : TWord)
  | atoml (l : CoreId) (g : GroupId) (w : TWord)
  | ldf (l : CoreId) (g : GroupId) (w : TWord)
  | stf (l : CoreId) (g : GroupId) (w : TWord)
  | ldg (l : CoreId) (g : GroupId) (w : TWord)
  | stg (l : CoreId) (g : GroupId) (w : TWord)
  | atomg (l : CoreId) (g : GroupId) (w : TWord)
  | pref (l : CoreId) (g : GroupId) (w : TWord)
  | ldw (l : CoreId) (g : GroupId) (w : TWord)
  | stw (l : CoreId) (g : GroupId) (w : TWord)
  | xlane (l : CoreId) (g : GroupId) (w : TWord)
  | vote (l : CoreId) (g : GroupId) (w : TWord)
  | gred (l : CoreId) (g : GroupId) (w : TWord)
  | groupCwait (l : CoreId) (g : GroupId) (w : TWord)
  | groupCsig (l : CoreId) (g : GroupId) (w : TWord)
  | mqpush (l : CoreId) (g : GroupId) (w : TWord)
  | mqpushAdmission (l : CoreId) (g : GroupId)
  | fence (l : CoreId) (g : GroupId) (w : TWord)
  | rdsr (l : CoreId) (g : GroupId) (w : TWord)
  | flagclr (l : CoreId) (g : GroupId) (w : TWord)
  -- matrix unit (07)
  | mma (l : CoreId)
  | muStationaryLoad (l : CoreId)
  | muDrainFence (l : CoreId)
  | muPairClose (l : CoreId)
  | cubeError (l : CoreId) (cube : EccAt (Fin 9))
  | muCubesWrite (a : Agent) (k : PhysId) (v : W32)
  -- grate engines (08)
  | attend (st : StackId) (l : CoreId)
  | grateDispatch (st : StackId)
  | grateWorkItemEnd (st : StackId) (e : Fin 16)
  | attendComplete (st : StackId) (l : CoreId) (acc : Nat)
  | grateEngineFail (st : StackId) (e : Fin 16)
  -- DMA engine and translation (10)
  | copy (l : CoreId) (acc : Nat)
  | gather (l : CoreId) (acc : Nat)
  | scatter (l : CoreId) (acc : Nat)
  | bucket (l : CoreId) (acc : Nat)
  | fill (l : CoreId) (acc : Nat)
  | reduce (l : CoreId) (acc : Nat)
  | xltWalkDone (l : CoreId) (acc : Nat)
  | faultResolveRetry (a : Agent) (p : PartId) (l : CoreId) (fid : W16)
  | faultResolveDiscard (a : Agent) (p : PartId) (l : CoreId) (fid : W16)
  | frHeadWrite (a : Agent) (p : PartId) (v : W32)
  | xltSwapGo (a : Agent) (p : PartId) (v : W32)
  | xltSwapDone (p : PartId)
  | xltInvalidateGo (a : Agent) (p : PartId) (v : W32)
  | xltInvalidateDone (p : PartId)
  -- counters and barriers (11)
  | signalSend (stream : W32)
  | signalAdd (m : SigMsg)
  | signalRaise (m : SigMsg)
  | barrierArrive (slot : Fin 64) (a : Arrival) (phase : W64)
  | slotRegWrite (a : Agent) (r : RegRef) (v : W32)
  | waitRegister (w : Waiter) (ctr : Nat) (expected : W64)
  | waitRetryTimer (w : Waiter)
  | waitWake (w : Waiter)
  | viewSnapshot (a : Agent) (v : W32)
  -- memory (09)
  | memSideOp (op : MemOp)
  | goldArm (a : Agent) (p : PartId) (v : W32)
  | goldDisarm (a : Agent) (p : PartId) (v : W32)
  | goldCompareDone (p : PartId) (e : Fin 8)
  | nearUe (addr : Nat) (who : UeReader)
  | ringUe (addr : Nat)
  | hearthUe (error : EccAt Nat)
  | patrolScrub (addr : Nat) (r : EccResult)
  | stkTempSample (st : StackId) (temp : W16)
  | regionTempSample (sensor : TempSensor) (temp : W16)
  -- stream queues and arbiters (12)
  | itemPush (l : CoreId) (q : Fin 8) (fromDe : Bool) (bytes : List (Option Byte))
  | headerPush (l : CoreId) (q : Fin 8) (fromDe : Bool) (bytes : List (Option Byte))
  | headWindowRead (l : CoreId) (producer : CoreId) (q : Fin 8)
  | packetRelease (l : CoreId) (producer : CoreId) (q : Fin 8) (hdr : W64)
  | sqCfgWrite (a : Agent) (k : PhysId) (q : Fin 8) (v : W32)
  | sqResvWrite (a : Agent) (k : PhysId) (v : W32)
  | censusWindow (arb : Arbiter) (arrivals : List ArbArrival)
  | agingPromote (arb : Arbiter) (request : Nat) (background : Bool) (waited : Nat)
  -- flue links (12)
  | linkEnable (p : PortId)
  | linkDisable (p : PortId)
  | linkLight (p : PortId) (locked : BitVec 9)
  | linkLocked (p : PortId)
  | linkParamReceive (p : PortId) (peer : LinkParams)
  | linkCreditsReceive (p : PortId) (credits : List Nat)
  | linkTrainingTimeout (p : PortId)
  | linkLanefail (p : PortId) (wave : Fin 9)
  | linkMapReceive (p : PortId) (measured : BitVec 9) (map : BitVec 9)
  | laserInputLoss (i : Fin 8)
  | flitReceive (p : PortId) (bytes : List Byte)
  | nakReceive (p : PortId) (ack : BitVec 12)
  | ackTimer (p : PortId)
  | routeSwapTime (p : PortId)
  -- packets (12)
  | read (p : PortId) (pk : Packet)
  | write (p : PortId) (pk : Packet)
  | readData (p : PortId) (pk : Packet)
  | writeAck (p : PortId) (pk : Packet)
  | refuse (p : PortId) (pk : Packet)
  | signal (p : PortId) (pk : Packet)
  | signalAck (p : PortId) (pk : Packet)
  | register (p : PortId) (pk : Packet)
  | wake (p : PortId) (pk : Packet)
  | counterRead (p : PortId) (pk : Packet)
  | value (p : PortId) (pk : Packet)
  | mgmt (p : PortId) (pk : Packet)
  | packetTransit (p : PortId) (pk : Packet)
  | packetResendTimeout (tag : W32)
  -- time (12, 14)
  | timeSyncSend
  | timeSync (p : PortId) (t1 t2 : W64)
  | timeReply (p : PortId) (t1 t2 t3 t4 : W64)
  | ppsEdge
  | ppsLossTimeout
  | gtbDieCheck (d : DieId)
  | refclkLoss
  | refclkReturn
  -- host link (12)
  | hostRead (f : HostFn) (b : Bar) (addr : Nat) (len : Nat)
  | hostWrite (f : HostFn) (b : Bar) (addr : Nat) (data : List Byte)
  | doorbellRing (f : HostFn) (p : PartId) (d : Fin 64) (hi : W32)
  | triggerArm (f : HostFn) (vec : Fin 128) (cfg : W32)
  | vfFlr (p : PartId)
  | pfFlr
  -- faults and repair (13)
  | datapathCheckFail (l : CoreId)
  | volatileUe (error : EccAt CoreId)
  | heartbeatTimeout (l : CoreId)
  | migrationComplete (c : ClusterId)
  | recordStoreUe (l : CoreId) (q : QSel) (acc : Nat) (r : RecordUe)
  | lagSample (r : RegionId) (first : LagEngine)
  | testSlice (c : ClusterId) (slot : Fin 9)
  | testSliceRun (a : Agent) (c : ClusterId) (slot : Fin 9)
  | testSliceEnd (c : ClusterId) (r : TestResult)
  | lossResume (a : Agent) (p : PartId)
  | ashRecordReadable
  | alogPop (a : Agent)
  -- clocks, power, modes (14)
  | perfReqWrite (a : Agent) (r : RegionId) (p : PartId) (v : W32)
  | voltageSlewDone (r : RegionId)
  | clockSwitchDone (r : RegionId)
  | powerCapSample (r : RegionId) (power : W16)
  | neighbourCapStep (r : RegionId)
  | pwrEventDemand (a : Agent) (d : Fin 50)
  | pwrEventParkReq (a : Agent) (d : Fin 50)
  | pwrEventOffReq (a : Agent) (d : Fin 50)
  | domainDemand (d : Fin 50)
  | domainIdle (d : Fin 50) (idleTicks : Nat)
  | domainReady (d : Fin 50)
  | domainActionDone (d : Fin 50)
  | domainTimeout (d : Fin 50)
  | domainOvertemp (d : Fin 50)
  | domainFault (d : Fin 50)
  | modeChangeGo (a : Agent) (p : PartId) (v : W32)
  | modeApply (p : PartId) (u : ModeUnit)
  | modeProgressRaise (p : PartId)
  -- damper stop (15)
  | damperArm (a : Agent)
  | damperResume (a : Agent)
  | damperTimeReached
  | unitStop (u : ModeUnit)
  | moduleQuiet
  | damperResumeTimeReached
  -- debug (15)
  | debugHaltReq (l : CoreId)
  | debugResumeReq (l : CoreId)
  | debugSingleStep (l : CoreId)
  | ebreak (l : CoreId)
  | triggerHit (l : CoreId) (t : Fin 4)
  | accessRegister (l : CoreId) (r : HartReg) (wr : Option W64) (xclq : Bool)
  | accessMemory (l : CoreId) (addr : W64) (f3 : BitVec 3) (wr : Option W64)
  | progbufExec (l : CoreId)
  | sysbusAccess (addr : Nat) (wr : Option W64)
  | counterExport
  | budgetRefill
  -- registers (15)
  | setAliasWrite (a : Agent) (r : RegRef) (v : W32)
  | clearAliasWrite (a : Agent) (r : RegRef) (v : W32)
  | toggleAliasWrite (a : Agent) (r : RegRef) (v : W32)
  | registerWrite (a : Agent) (r : RegRef) (v : W32)
  -- kindling stream (02)
  | ksGo (a : Agent) (m : Fin 17)
  | ksStart
  | ksCopyDone
  | ksApply (hwError : Bool)
  -- start-up and management (16)
  | standbyPowerUp (straps : BitVec 4)
  | pg48Assert
  | bootPhaseDone (r : BootReport)
  | pg48Deassert
  | resetN
  | pldmRestart
  | i3cDaa (bus : Fin 2) (addr : BitVec 7)
  | pldmDiscovery (bus : Fin 2)
  | pldmGetSensor (bus : Fin 2) (s : Sensor)
  | pldmFirmwareUpdate (bus : Fin 2) (c : FwComponent)
  | pldmAshLogRead (bus : Fin 2)
  | spdmGetMeasurements (block : Fin 32)
  | spdmChallenge (nonce : BitVec 256)
  | spdmKeyExchange (x y : Nat)
  | provision (slot : Fin 4) (key : BitVec 768) (sig : MgmtSig)
  | revoke (slot : Fin 4) (sig : MgmtSig)
  -- further failures and pins (13, 12, 16)
  | retainedStateUe (l : CoreId) (error : EccAt RetainedPart)
  | bridgeLaneFail (bridge : Fin 4) (lane : Option Nat)
  | pseudoChannelFail (st : StackId) (pc : Fin 64)
  | laserInputReturn (i : Fin 8)
  | standbyPowerLoss
  | resetNRelease
deriving DecidableEq, Repr

end Sys2Proof
end

