-- ==== Sys2Proof/Decode.lean ====
section
/-!
DEFINITION. Command words. The opcode table gives no row any bits (no row carries `fields` or `fixed`), so no word
spells a command.
-/

namespace Sys2Proof

/-- The command that a word of the opcode table's numbering spells: none, since the table gives no row bits. -/
def decodeTableWord (nbits w : Nat) : Option Instr :=
  match nbits, w with
  | _, _ => none

end Sys2Proof
end

