-- ==== Sys2Proof/Config.lean ====
section
/-!
DEFINITION. The free values: what the spec leaves open, as constants that have no body, so that no proof can
depend on a value of theirs (log entry 2). A value taken fresh each time is applied to the counter
`State.freeCtr`; a value that belongs to its operands is applied to them.
-/

namespace Sys2Proof.Config

open Sys2Proof

/-- A fresh free value: the contents that the spec calls unpredictable (R7) each time one is taken. -/
opaque freeValue : Nat → W64

/-- A fresh free number. -/
opaque freeNat : Nat → Nat

/-- Which of the results that a bound of R138 allows an approximate function returns: function number,
operand, and the number of candidates (the answer is taken modulo it). -/
opaque approxPick : Nat → W32 → Nat

/-- The result of an integer field operation whose field does not fit its operand, for which the spec states none (log
entry 18): opcode and operands a, b, c. -/
opaque fieldOpen : Nat → W64 → W64 → W64 → W64

/-- An entry of a P4 table that no record of the partition gives (log entry 19): partition, table and code. -/
opaque p4Open : Nat → Nat → Nat → Byte

/-- The row of a structure that holds a position (R226, R330): the spec gives no row size. By the kind of `CeUnit`, its number and the
position in it. -/
opaque rowOf : Nat → Nat → Nat → Nat

/-- The factory root key fused into the Stoker (R405, R416): x above y. -/
opaque rootKey : BitVec 768

end Sys2Proof.Config
end

