-- ==== Sys2Proof/Machine/State.lean ====
section
/-!
DEFINITION. The state of the module as plain data: every register, table, queue, buffer and mode that the
spec gives it, the reasons a step can stop, and the state right after reset. A register that the spec numbers
lives in ONE register file (`State.regs`, keyed by name and indices); what the spec holds outside its register
tables lives in the structures below. A value that a register only shows (a count of free records, the state of
a queue) is computed from these, and is not stored twice.
-/

namespace Sys2Proof.Machine

open Sys2Proof

/-! ### Why a step can stop -/

/-- The reasons the block stops with a fault. -/
inductive Fault where
  /-- Raised by HOME_REQUEST, MEM_SIDE_OP, PATROL_SCRUB, NEAR_UE, RING_UE and HEARTH_UE whose operand is an
  address that no home has, because no memory row of Table 9.1 holds it (R218). Safe: nothing happens at a
  home that does not exist. -/
  | noSuchAddress
deriving DecidableEq, Repr

/-- The reasons the block refuses a command. -/
inductive Refusal where
  /-- A command that has no meaning yet, by its mnemonic. Safe. -/
  | notModelled (mnemonic : String)
  /-- Raised by the thread instructions: the word is one that the verifier rejects under R135, so that no
  group ever executes it (R158). Safe: the spec gives such a word no effect. -/
  | malformedWord
deriving DecidableEq, Repr

/-! ### Control core -/

/-- The states of a line in a control cache (R75); I is absence. -/
inductive CState where
  | D | K | S | W
deriving DecidableEq, Repr

/-- A line of a control cache or of its eviction buffer: line number (address ÷ 256), state, its 256 bytes. -/
structure CLine where
  line : Nat
  st : CState
  data : BitVec 2048
deriving DecidableEq, Repr

/-- A store that waits for ownership of its line (R75): address, width in bytes, data. -/
structure PendStore where
  addr : Nat
  width : Nat
  data : W64
deriving DecidableEq, Repr

/-- The instruction a control core is stalled in. -/
inductive Stall where
  | qpush (rd : XReg) (addr : Nat) (sel : Nat)
  | cwait (rd : XReg) (ctr : Nat) (expected : W64)
  /-- a CSIG whose signal has not left yet (R67). -/
  | csig (rd : XReg) (handle kind : Nat) (operand : W64)
  | load (rd : XReg) (addr : Nat) (f3 : BitVec 3) (len : Nat)
deriving DecidableEq, Repr

/-- One control core (R59 to R69): its architectural state is the CC state array of R336. -/
structure CC where
  /-- x1 to x31. -/
  x : SMap W64 := []
  pc : W64 := 0x40000000000
  /-- machine-mode CSRs by number, mip bits 7, 16 and 17 among them. -/
  csrs : SMap W64 := []
  mtimecmp : W64 := 0xFFFFFFFFFFFFFFFF
  sigSeq : W32 := 0
  stall : Option Stall := none
  stores : List PendStore := []
  /-- the reservation of R78: address and width. -/
  resv : Option (Nat × Nat) := none
  halted : Bool := false
  /-- when it halted (R387). -/
  haltAt : W64 := 0
  /-- stopped by a damper stop (R389) or by a loss without copy (R351). -/
  stopped : Bool := false
  /-- outstanding remote writes (R304). -/
  remoteWrites : Nat := 0
deriving DecidableEq, Repr

/-! ### DMA translation -/

/-- A range-table entry (Table 10.2). -/
structure RangeEntry where
  start : Nat
  len : Nat
  target : Nat
deriving DecidableEq, Repr

/-- An entry of a DE's L1 range cache (R245): context, range, combined target. `direct` where stage 1 leads to a direct
partition address, which is checked at each access (R240). -/
structure XEntry where
  ctx : Nat
  start : Nat
  len : Nat
  target : Nat
  /-- the partition address that `start` leads to. -/
  part : Nat
  direct : Bool := false
deriving DecidableEq, Repr

/-! ### Engine queues -/

/-- The state of an instruction record (Table 13.3). -/
inductive QState where
  | pending | running | complete | taken
deriving DecidableEq, Repr

/-- A used signal slot: handle, kind, sequence number, operand (R86). -/
structure SigSlot where
  handle : Nat
  kind : Nat
  seq : W32
  operand : W64
deriving DecidableEq, Repr

/-- An address of an access of a DMA instruction: the body field that gives it, its context, the address, and its place in the
row, element, record or block that is in hand. -/
structure DeAddr where
  field : Nat
  ctx : Nat
  addr : Nat
  off : Nat := 0
deriving DecidableEq, Repr

/-- A fault a DMA instruction is paused on (Table 10.12). -/
structure DmaFault where
  fid : W16
  kind : Nat
  at_ : DeAddr
  progress : Nat
  /-- the byte, or the phase of a BUCKET, that the instruction had come to. -/
  sub : Nat := 0
  paddr : Nat
  time : W64
  src : W32
  /-- the instruction began again, and has not come back to the faulting access (R268). -/
  again : Bool := false
deriving DecidableEq, Repr

/-- A descriptor: 128 bytes, the first in the least significant place. -/
abbrev Desc := BitVec 1024

/-- An entry of an engine queue: the descriptor as accepted, its record's tag (R334), and how far the engine
has come. -/
structure QEntry where
  acc : Nat
  desc : Desc
  st : QState := .pending
  /-- next access: row, element or record index (PROGRESS of Table 10.12); pass number for the MU. -/
  progress : Nat := 0
  /-- byte position inside the row or element that `progress` names. -/
  sub : Nat := 0
  /-- accesses discarded under R267, as (progress, sub, body field). -/
  discs : List (Nat × Nat × Nat) := []
  /-- push counts of the core's stream queues at its start, and while it replays the counts it has reached (R324). -/
  pushBase : List Nat := []
  pushNow : Option (List Nat) := none
  /-- records counted in each bucket, and written (R262). -/
  bkCount : List Nat := []
  bkDone : List Nat := []
  fault : Option DmaFault := none
  /-- a translation walk the instruction waits for: the access, and whether the result may not be cached (R246). -/
  walk : Option (DeAddr × Bool) := none
  /-- the uncached result of such a walk, for the access that asked for it. -/
  held : Option XEntry := none
  /-- bytes read and not yet written, and the index of the element in hand. -/
  buf : List Byte := []
  index : Option W64 := none
  /-- every output is written and visible. -/
  done : Bool := false
  /-- signals of a complete instruction that wait for the instructions before it (R88). -/
  sigs : List SigSlot := []
  /-- sequence numbers of its signals not yet acknowledged. -/
  unacked : List W32 := []
  /-- a replay needed its record after both copies were lost: it goes no further (R353). -/
  void : Bool := false
  /-- grid slot of a started LAUNCH. -/
  slot : Option Nat := none
  /-- applied epoch and mode word of the control core when it was pushed (R370). -/
  mode : Nat × W32 := (0, 0)
  /-- both copies of its record are lost (R332). -/
  lost : Bool := false
  /-- bytes written so far, as its trace record says (Table 15.11). -/
  wrote : Nat := 0
  /-- outstanding remote writes (R304, R337). -/
  remoteWrites : Nat := 0
deriving DecidableEq, Repr

/-- One engine queue of a core (Table 3.5): accepted count, signal sequence (R86), entries oldest first. -/
structure Queue where
  accepted : Nat := 0
  sigSeq : W32 := 0
  entries : List QEntry := []
deriving DecidableEq, Repr

/-! ### Vector engine -/

/-- A grid in a grid slot of a core (R106, R108, R109). -/
structure Grid where
  acc : Nat
  publisher : Nat
  pslot : Nat
  /-- launch ring of a ring-mode grid. -/
  ring : Option Nat
  /-- entry count of its grid entry once appended. -/
  entry : Option Nat := none
  body : BitVec 448
  span : W32
  total : Nat
  /-- next linear block index of a local-mode grid. -/
  next : Nat := 0
  ended : Nat := 0
  killed : Bool := false
  /-- at the publisher: the logical cores on which a block of it has started (R122). -/
  begunOn : List Nat := []
deriving DecidableEq, Repr

/-- State of a block record (Table 13.4). -/
inductive BState where
  | pulled | resident | ended
deriving DecidableEq, Repr

/-- A block record (Table 13.4) with the block's placement and the groups that wait at its barrier. -/
structure Block where
  core : Nat
  slot : Nat
  st : BState
  unprot : Bool := false
  index : Nat
  publisher : Nat
  pslot : Nat
  gen : Nat
  lmSize : Nat
  pushBase : List Nat := []
  /-- while the block replays, the push counts it has reached (R324). -/
  pushNow : Option (List Nat) := none
  lmBase : Nat := 0
  groups : List Nat := []
  arrived : List Nat := []
  /-- outstanding remote writes of its groups (R337). -/
  remoteWrites : Nat := 0
  body : BitVec 448
  span : W32
  /-- the grid it belongs to: its ring and entry count, or for a local-mode grid its accepted count. -/
  ring : Option Nat := none
  grid : Nat := 0
deriving DecidableEq, Repr

/-- An entry of a reconvergence stack (Table 4.7). -/
structure RecEntry where
  joinPc : Nat
  elsePc : Nat
  pending : W32
  saved : W32
deriving DecidableEq, Repr

/-- What a resident group does. -/
inductive GStatus where
  | ready
  /-- waits on a counter (R154): destination, counter, expected value, L1 invalidate. -/
  | waiting (dst : Option Nat) (ctr : Nat) (expected : W64) (inval : Bool)
  | atBarrier
  /-- ended; its slot and registers stay taken until its block's last group has ended (R103). -/
  | ended
  /-- halted by a group fault (R125). -/
  | halted (code : Nat)
  /-- a CSIG whose signal has not left the core yet (R116): its sequence number. -/
  | signalling (seq : W32)
  /-- stalled in MQPUSH (R156): source register and destination. -/
  | mqStall (src : Nat) (dst : Option Nat)
  /-- waits for an L1 line (R121): the load is issued again when the line has come. -/
  | missed (line : Nat)
deriving DecidableEq, Repr

/-- A resident group (4.1, 4.2, 4.4). Vector register r of lane l is key 32 × r + l; predicate i is a mask of
lanes; `live` holds the lanes that have not exited. -/
structure Group where
  block : Nat
  gi : Nat
  v : SMap W32 := []
  u : SMap W64 := []
  p : SMap W32 := []
  active : W32 := 0xFFFFFFFF
  live : W32 := 0xFFFFFFFF
  stack : List RecEntry := []
  spilled : Nat := 0
  pc : Nat := 0
  status : GStatus := .ready
  csigN : Nat := 0
  atomN : Nat := 0
  remoteWrites : Nat := 0
  /-- bytes that have come for the load it is in, by partition address × 32 + length. -/
  fills : SMap (List Byte) := []
deriving DecidableEq, Repr

/-- A line of the L1 group cache (R121): line number (partition address ÷ 128) and its 128 bytes. -/
structure L1Line where
  line : Nat
  data : BitVec 1024
deriving DecidableEq, Repr

/-- The vector engine of a core. -/
structure VE where
  grids : SMap (Option Grid) := []
  groups : SMap (Option Group) := []
  /-- L1 lines, most recently used first. -/
  l1 : List L1Line := []
  misses : List Nat := []
  /-- a change of split, or of reserve, that waits for resident groups to end (R123). -/
  splitPending : Option Nat := none
  resvPending : Option Nat := none
  /-- when both kinds of blocks wait, the distributor's turn (R111). -/
  distTurn : Bool := false
  stopped : Bool := false
deriving DecidableEq, Repr

/-! ### Matrix unit -/

/-- An MMA that an MU works on, cut into passes (R185, R195): its accepted count, mode and pass parameters. -/
structure MuRun where
  acc : Nat
  broadcast : Bool
  arr : Nat
  q : Nat
  mp : Nat
  nc : Nat
  rowChunks : Nat
  colChunks : Nat
  spans : Nat
  /-- passes whose stationary tile has been loaded, of rowChunks × colChunks × spans. -/
  pass : Nat := 0
  /-- passes that have left the array. -/
  passed : Nat := 0
  /-- (row chunk, column chunk) pairs drained. -/
  closed : Nat := 0
  /-- flags to merge at commit (R178): invalid, overflow, underflow, inexact. -/
  flags : Nat := 0
deriving DecidableEq, Repr

/-- One row of a stationary tile over one K-block, as a cube holds it (R180): row of A, K-block, its 32 element codes and its
scale code. -/
structure MuCell where
  row : Nat
  block : Nat
  elems : List Nat
  scale : Nat
deriving DecidableEq, Repr

/-- One of the two stationary banks of an MU (R180, R188): the tag of the generation that it holds, the MMA and the pass that
the tile belongs to, the arrangement and Q of the pass, and the cells of the tile by physical cube. -/
structure MuBank where
  gen : Nat
  acc : Nat
  pass : Nat
  arr : Nat
  q : Nat
  cubes : SMap (List MuCell) := []
deriving DecidableEq, Repr

/-- The matrix unit of a core (7.5): generation tag, the two stationary banks of its cubes, the accumulation buffer (R190), the
work. -/
structure MU where
  gen : Nat := 0
  bankA : Option MuBank := none
  bankB : Option MuBank := none
  /-- the 8,192 entries of the accumulation buffer, as XA96 words. -/
  accum : SMap (BitVec 96) := []
  /-- a stationary load that waits for a drain fence (R188). -/
  loadStall : Bool := false
  /-- the array takes bubbles for the drain, for a feeder (R189, R190). -/
  drainStall : Bool := false
  feedStall : Bool := false
  /-- the MMAs in the array, oldest first (R192). -/
  runs : List MuRun := []
  lastArr : Nat := 0
  lastQ : Nat := 0
  /-- flags of complete, uncommitted MMAs by accepted count. -/
  pendFlags : SMap Nat := []
  /-- stopped by a damper stop (R389). -/
  stopped : Bool := false
deriving DecidableEq, Repr

/-! ### Grate engines -/

/-- A sequence of an ATTEND as its scheduler fetched it (Table 8.4a): `ok` when every check of R208 holds, `outOk` when
its OUT range may be written; its page list as (index, generation) pairs. -/
structure GSeq where
  q : Nat
  pages : List (Nat × Nat)
  npage : Nat
  len : Nat
  causal : Nat
  id : Nat
  dst : Nat
  ok : Bool
  outOk : Bool
deriving DecidableEq, Repr

/-- An ATTEND that a grate scheduler has taken (R203): its sequences, the next span, spans dispatched and not ended, and
spans whose status is 2 to 5. -/
structure GCmd where
  core : Nat
  acc : Nat
  seqs : List GSeq := []
  seq : Nat := 0
  span : Nat := 0
  outstanding : Nat := 0
  failed : Nat := 0
deriving DecidableEq, Repr

/-- A work item on a grate engine: command, sequence, span (R203), and its pages as the scheduler read them: table index,
generation, physical page, first token, count. -/
structure GItem where
  core : Nat
  acc : Nat
  seq : Nat
  span : Nat
  ents : List (Nat × Nat × Nat × Nat × Nat)
deriving DecidableEq, Repr

/-- A stack's grate scheduler: active commands in the order of their turns, the engines, abandoned items to reissue
(R205), the count of completed items (Table 8.10), a damper stop. -/
structure Stack where
  active : List GCmd := []
  engines : SMap (Option GItem) := []
  reissue : List GItem := []
  items : Nat := 0
  stopped : Bool := false
deriving DecidableEq, Repr

/-! ### Stream queues -/

/-- The working state of an outbound stream queue (12.8): slots used and freed since it was enabled, packet numbers of
the next packet and of the head packet, slots that the packet being formed holds, the valid packets as (slot of the
header, items), and the count of pushes (R324). -/
structure StreamQ where
  used : Nat := 0
  freed : Nat := 0
  packetNo : Nat := 0
  headNo : Nat := 0
  forming : Nat := 0
  packets : List (Nat × Nat) := []
  pushes : Nat := 0
deriving DecidableEq, Repr

/-! ### Cores and clusters -/

/-- One logical core. -/
structure Core where
  cc : CC := {}
  /-- IMEM, DMEM and locked entries, by offset from 0x400_0000_0000. -/
  priv : SMap Byte := []
  /-- the control cache, most recently used first (R71); at most 32 − LOCKED lines. -/
  cache : List CLine := []
  evict : List CLine := []
  queues : SMap Queue := []
  /-- admission's copy of the arena table, and its span cache, most recently used first (R91). -/
  arenas : List Arena := []
  spanCache : List (Nat × W64 × W64) := []
  faultSeq : W16 := 0
  l1x : List XEntry := []
  ve : VE := {}
  mu : MU := {}
  sq : SMap StreamQ := []
  deStopped : Bool := false
  lost : Bool := false
  /-- the slot that a lost core ran in last: its source numbers keep it (R21, R344). -/
  oldSlot : Nat := 0
  /-- BUSY and NOMINAL of its VE (1), MU (2) and DE (3) since the last lag sample, in thousandths of a cycle, NOMINAL of the DE in
  bytes moved (R346). -/
  busy : SMap Nat := []
  nominal : SMap Nat := []
deriving DecidableEq, Repr

/-- A cluster: block records and their generations, pulled blocks, migration in progress, test slice. -/
structure Cluster where
  blocks : SMap (Option Block) := []
  gens : SMap Nat := []
  /-- records of pulled, unstarted blocks in pull order (R111). -/
  pulled : List Nat := []
  /-- logical cores that migrate, oldest first, whether the old slot failed, and the old slot. -/
  migrating : List (Nat × Bool × Nat) := []
  /-- slots marked DEGRADED (R347, R348). -/
  degraded : List Nat := []
  /-- a test slice: slot under test; and the slot whose turn is next (R348). -/
  test : Option Nat := none
  nextSlot : Nat := 0
  /-- stage-1 and stage-2 entries of the L2 range cache: (stage, context, entry). -/
  l2x : List (Nat × Nat × RangeEntry) := []
  stopped : Bool := false
  /-- the ring whose turn is next (Table 4.9f). -/
  nextRing : Nat := 0
  /-- logical cores that wait for a shared instruction record, in the order of their requests (R333). -/
  recordWait : List Nat := []
deriving DecidableEq, Repr

/-! ### Counters, signals, barriers -/

/-- A registered wait (R278): who waits, for what value, the value that satisfied it once one has; for another module's
registration the source number of its first waiting unit (R283) and the tag that a WAKE echoes. -/
structure Wait where
  who : Waiter
  expected : W64
  met : Option W64 := none
  src : W32 := 0
  tag : Nat := 0
deriving DecidableEq, Repr

/-- A counter at its home (R270, R283). Of a system counter that another module owns this module holds its own waiters alone. -/
structure Counter where
  value : W64 := 0
  sat : Bool := false
  lastSrc : W32 := 0
  lastTime : W64 := 0
  waiters : List Wait := []
deriving DecidableEq, Repr

/-- A signal that waits in its stream (R275): destination and content. `home` is the home it goes to. -/
structure Sig where
  home : Nat
  msg : SigMsg
  /-- slot and phase of an ARRIVE. -/
  slot : Nat := 0
  core : Nat := 0
deriving DecidableEq, Repr

/-- A signal stream (R275): signals not yet sent, and signals sent and not acknowledged, oldest first; and the modules that hold
delivery records of it, each with the last sequence number sent there (R276). -/
structure SStream where
  unsent : List Sig := []
  sent : List Sig := []
  away : List (Nat × W32) := []
deriving DecidableEq, Repr

/-- A delivery record (R276). Stream IDs name streams of one module, so a record of a signal that came from another module
names that module too (log entry 26). -/
structure Delivery where
  home : Nat
  stream : W32
  seq : W32
  module : Option Nat := none
deriving DecidableEq, Repr

/-- A barrier slot (R281) outside its registers. -/
structure Barrier where
  phase : W64 := 0
  cur : BitVec 1024 := 0
  nxt : BitVec 1024 := 0
deriving DecidableEq, Repr

/-- Records for memory-side operations (Table 13.5). -/
inductive OpRecord where
  | reduceMark (home : Nat) (stream : W32) (acc : Nat) (elem word : Nat)
  | atomicMark (home : Nat) (stream : W32) (number lane : Nat)
  | result (home : Nat) (stream : W32) (number lane : Nat) (old : W64)
deriving DecidableEq, Repr

/-! ### Configuration in force -/

/-- An interleave entry (Table 2.7). -/
structure ILEntry where
  base : Nat
  len : Nat
  offset : Nat
  mode : Nat
  set : Nat
  granule : Nat
deriving DecidableEq, Repr

/-- A slice group of the Hearth (R40): scratchpad, its owner, sixteen way masks. -/
structure HGroup where
  scratch : Bool := false
  owner : Nat := 0
  masks : List W16 := []
deriving DecidableEq, Repr

/-- A PARTITION record (Table 2.6). -/
structure PartCfg where
  clusters : BitVec 96
  vf : Bool
  s2root : Nat
  s2count : Nat
  modBase : Nat
  modCount : Nat
  rgnBase : Nat
  rgnCount : Nat
  sysBase : Nat
  sysCount : Nat
  barBase : Nat
  barCount : Nat
deriving DecidableEq, Repr

/-- A KV_POOL record (Table 2.8). -/
structure KvPool where
  table : Nat
  entries : Nat
  page : Nat
  nearBase : Nat
  nearLen : Nat
  farBase : Nat
  farLen : Nat
deriving DecidableEq, Repr

/-- A KV_POLICY record (R49). -/
structure KvPolicy where
  policy : Nat := 0
  low : Nat := 0
  high : Nat := 0
deriving DecidableEq, Repr

/-- A golden-copy entry (R41). -/
structure Golden where
  near : Nat
  ring : Nat
  len : Nat
deriving DecidableEq, Repr

/-- A DVFS point (R42). -/
structure DvfsPoint where
  mhz : Nat
  mv : Nat
  watts : Nat
deriving DecidableEq, Repr

/-- A throttle step (R43): threshold and hysteresis in 0.1 °C, rate in percent, refresh multiplier. -/
structure ThStep where
  thr : Nat
  rate : Nat
  refx : Nat
  hyst : Nat
deriving DecidableEq, Repr

/-- An entry of a state table (R44). -/
structure STEntry where
  cur : Nat
  ev : Nat
  nxt : Nat
  act : Nat
  timeout : Nat
deriving DecidableEq, Repr

/-- An arbitration setting (R45). -/
structure ArbCfg where
  perCluster : Bool := false
  normal : Nat := 2048
  background : Nat := 65536
deriving DecidableEq, Repr

/-- The configuration that the applied streams leave in force (02). Tables absent from it read as Table 2.3
gives for an omitted record. -/
structure Cfg where
  timeRole : Nat := 0
  pulse : Bool := false
  upPrimary : Nat := 0xFF
  upAlternate : Nat := 0xFF
  roles : SMap Nat := []
  tables : SMap (List STEntry) := []
  dvfs : SMap (List DvfsPoint) := []
  thRegion : SMap (List ThStep) := []
  thStack : SMap (List ThStep) := []
  arbRegion : SMap ArbCfg := []
  arbDie : SMap ArbCfg := []
  coreMap : SMap Nat := []
  interleave : List ILEntry := []
  hearth : SMap HGroup := []
  parts : SMap (Option PartCfg) := []
  p4 : SMap (Option (BitVec 128)) := []
  fold : SMap (List W64) := []
  bucket : SMap (Option (List Nat)) := []
  pool : SMap (Option KvPool) := []
  policy : SMap KvPolicy := []
  golden : SMap (List Golden) := []
  groupRoutes : SMap W32 := []
  memberRoutes : SMap W32 := []
deriving DecidableEq, Repr

/-! ### Partitions at run time -/

/-- A partition's running state outside its registers: the stage 2 and pinned map in force (R249), the image
(R415), work of the Stoker, DE faults (R266), the mode change in progress (R368). -/
structure Part where
  s2 : Option (Nat × Nat) := none
  pinned : List RangeEntry := []
  /-- where the pinned map in force lies (R243). -/
  pinnedAt : Nat := 0
  image : Option (BitVec 384) := none
  /-- pinned ranges the loaded image declares (R248). -/
  declared : List (Nat × Nat) := []
  /-- a swap being checked: stage-2 root and count, pinned base and count. -/
  swap : Option (Nat × Nat × Nat × Nat) := none
  inval : Option Nat := none
  /-- fault records that wait for a place in the fault ring, oldest first (R266). -/
  faults : List (List Byte) := []
  /-- latched mode word and handle of the change in progress. -/
  modeWord : W32 := 0
  modeHandle : Nat := 0
  modeUnits : List Nat := []
  /-- the sequence number of the partition's next trace record (R396). -/
  traceSeq : Nat := 0
deriving DecidableEq, Repr

/-! ### Regions, ports, time, host, Stoker -/

/-- An operating-point move in progress (R361). -/
inductive DvfsMove where
  | slewUp (pt : Nat) | switchUp (pt : Nat) | switchDown (pt : Nat) | slewDown (pt : Nat)
deriving DecidableEq, Repr

/-- A region's DVFS state outside its registers (R360 to R362) and its lag history (R346): for each core and
engine the number of samples in a row in which its pace was too low. -/
structure Region where
  mv : Nat := 0
  move : Option DvfsMove := none
  thermCap : Nat := 15
  thermStep : Nat := 0
  powerCap : Nat := 15
  neighCap : Nat := 15
  lowSince : Option W64 := none
  lag : SMap Nat := []
deriving DecidableEq, Repr

/-- A flit that waits for its turn at a port: its class of R299 (1 time, 2 counter signals, 3 requests and responses, 4
management), and whether it has become urgent (R328). -/
structure TxFlit where
  cls : Nat
  urgent : Bool := false
  flit : Flit
deriving DecidableEq, Repr

/-- A flue port outside its registers (12.2 to 12.5). -/
structure Port where
  mapped : BitVec 9 := 0
  /-- wavelengths that lock, as last measured. -/
  lit : BitVec 9 := 0
  /-- CLOSE or SWAP has stopped packet flits, until OPEN (Table 12.1). -/
  closed : Bool := false
  peer : Option LinkParams := none
  txSeq : BitVec 12 := 0
  /-- packet flits not acknowledged, oldest first (R297). -/
  replay : List (BitVec 12 × Flit) := []
  rxNext : BitVec 12 := 0
  nakSent : Bool := false
  unackedRx : Nat := 0
  /-- flits that wait for their turn, oldest first (R299). -/
  txq : List TxFlit := []
  /-- what the last 63 flits were, newest first: 0 neither, 1 a counter signal, 2 urgent (R299, R328). -/
  slots : List Nat := []
  /-- of requests and responses, the responses' turn (R299). -/
  respTurn : Bool := false
  /-- packets discarded because they had left their group (R305). -/
  misroutes : Nat := 0
  credits : SMap Nat := []
  /-- flit buffers freed whose credits are not yet returned, by VC (R298). -/
  owed : SMap Nat := []
  /-- payload of packets being received, by VC. -/
  rx : SMap (List Byte) := []
  /-- packets whose tail has come and which wait to be handled. -/
  inbox : List Packet := []
  /-- packets held in a damper stop (R391). -/
  held : List Packet := []
  shadowGroup : SMap W32 := []
  shadowMember : SMap W32 := []
  groupRoutes : SMap W32 := []
  memberRoutes : SMap W32 := []
  swapTime : Option W64 := none
  deadline : Option W64 := none
  naksAt : List W64 := []
deriving DecidableEq, Repr

/-- Time (12.6, 14.1): a copy of the GTB per die, the offset still to slew out, references. -/
structure Time where
  gtb : SMap W64 := []
  /-- dies whose copy leaves out its next tick (R357). -/
  hold : List Nat := []
  offset : Int := 0
  /-- ticks since the last one that a slew added or left out, modulo 5,000 (200 ppm). -/
  phase : Nat := 0
  locked : Bool := false
  refOk : Bool := true
  pps : Option W64 := none
  ppsLost : Bool := false
  lastSync : W64 := 0
  holdover : Bool := false
deriving DecidableEq, Repr

/-- A remote access that waits for its response (R301). -/
structure Remote where
  pk : Packet
  sent : W64
  tries : Nat
  unit : Option Unit
  /-- the group that waits for it. -/
  grp : Option Nat := none
  /-- data returned, or the reason of a refusal. -/
  resp : Option (List Byte) := none
  refused : Option Nat := none
deriving DecidableEq, Repr

/-- A record of the ash log (Table 13.8). -/
structure AshRec where
  time : W64
  src : W32
  kind : W16
  severity : Nat
  part : Nat := 0xFF
  unit : Nat := 0
  lcore : Nat := 0xFFFF
  span : W32 := 0
  start : W64 := 0
  length : W64 := 0
  detail : BitVec 192 := 0
deriving DecidableEq, Repr

/-- A key slot (R33, R416). -/
inductive KeySlot where
  | empty | valid (key : BitVec 768) | revoked
deriving DecidableEq, Repr

/-- A submission to a kindling mailbox as its GO found it (R53): mailbox, time, source address, length. -/
structure Submission where
  mailbox : Nat
  time : W64
  addr : Nat
  len : Nat
deriving DecidableEq, Repr

/-- A piece of a submission that is being copied (R53): the other module that holds it, none for this one; its address there; its
bytes, once they are read. -/
structure CopyPiece where
  module : Option Nat
  addr : Nat
  len : Nat
  data : Option (List Byte) := none
deriving DecidableEq, Repr

/-- A body of a verified record that waits to be applied: type, target index, body bytes. -/
structure Rec where
  type : Nat
  kind : Nat
  index : Nat
  body : List Byte
  /-- its place in the stream. -/
  pos : Nat := 0
deriving DecidableEq, Repr

/-- The Stoker (01 R17, 02, 16). -/
structure Stoker where
  standby : Bool := false
  pg48 : Bool := false
  resetLow : Bool := false
  ready : Bool := false
  /-- shut down for overtemperature (R410). -/
  overtemp : Bool := false
  /-- what the sensor of each die's uncore read last, in 0.1 °C (R410). -/
  dieTemps : SMap (Option Nat) := []
  flashActive : List Byte := []
  flashPending : List Byte := []
  floor : W32 := 0
  digest : BitVec 384 := 0
  doneHandle : Nat := 0
  doneSeq : W32 := 0
  /-- mailboxes that wait, in GO order (R53); the submission being worked on; its verified records. -/
  subs : List Submission := []
  /-- a submission being copied, with its pieces; none where they cannot be read. -/
  copied : Option (Submission × Option (List CopyPiece)) := none
  /-- a submission that passed its checks: its records, sequence number and done counter. -/
  verified : Option (Submission × List Rec × W32 × Nat) := none
  /-- greatest sequence number applied through a mailbox since boot (R34). -/
  seqs : SMap (Option W32) := []
  keys : SMap KeySlot := []
  imgA : FwImage := { version := 0, sigOk := false, measurement := 0, verifier := 0 }
  imgB : FwImage := { version := 0, sigOk := false, measurement := 0, verifier := 0 }
  /-- nonces that a signed management command has used (R416). -/
  nonces : List (BitVec 256) := []
  ash : List AshRec := []
  ashFlash : List AshRec := []
  /-- proofs accepted, by content hash (R95). -/
  proofs : List (BitVec 384) := []
  /-- measurement of the verifier that accepted them. -/
  verifier : BitVec 384 := 0
  i3c : SMap Nat := []
  /-- reason in the completion record of the last image load, 0 for an accepted one (R89). -/
  loadReason : W16 := 0
deriving DecidableEq, Repr

/-- The damper stop (15.4). -/
structure Damper where
  t : W64 := 0
  resumeAt : Option W64 := none
  buf : Nat := 0
  /-- stops recorded as (unit key, stop time, position, flags). -/
  stops : List (Nat × W64 × Nat × Nat) := []
  heldWakes : List Waiter := []
  quiet : Bool := false
deriving DecidableEq, Repr

/-- A message to the host (R312): an MSI-X message, read data, an Unsupported Request. -/
inductive HostMsg where
  | msix (fn : Nat) (vec : Nat)
  | data (fn : Nat) (bytes : List Byte)
  | ur (fn : Nat)
deriving DecidableEq, Repr

/-- An access of the host that stalls (R230) or a doorbell's signal that waits behind one (R315): its function; the targets and, for
a write, the data; of a doorbell the partition and number, its DB_CFG word and the operand; of a read of view registers whose
snapshot is on its way, the registers (R289). -/
structure HostHeld where
  fn : HostFn
  targets : List (Nat × Nat)
  data : Option (List Byte) := none
  bell : Option (Nat × Nat × W32 × W64) := none
  view : List RegRef := []
deriving DecidableEq, Repr

/-- The host endpoint's data-link layer (R318): the sequence number of its next message, the messages that were sent and are not
acknowledged, those that wait for a port, oldest first; and the host's accesses that stall, in the order of their arrival
(R230). -/
structure HostLink where
  seq : BitVec 12 := 0
  replay : List (BitVec 12 × HostMsg) := []
  waiting : List HostMsg := []
  held : List HostHeld := []
  /-- the AER log (R314): function, whether a read, address. -/
  aer : List (Nat × Bool × Nat) := []
deriving DecidableEq, Repr

/-- A message that left the module. -/
inductive Out where
  | packet (port : Nat) (pk : Packet)
  | flit (port : Nat) (bytes : List Byte)
  | link (port : Nat) (what : Nat) (arg : Nat)
  | host (port : Nat) (seq : BitVec 12) (msg : HostMsg)
  | item (core : Nat) (bytes : List Byte)
  | mgmt (code : Nat) (bytes : List Byte)
  | debug (data : W64)
deriving DecidableEq, Repr

/-! ### Arbiters -/

/-- A request that waits at an arbiter (R325): the child that it comes from, its core, the bytes that it moves, its class, and
whether it has become urgent there (R328). -/
structure ArbReq where
  from' : Nat
  core : Option Nat
  bytes : Nat
  background : Bool
  urgent : Bool := false
deriving DecidableEq, Repr

/-- An arbiter (12.9): the requests that wait, oldest first; weights and deficits by child, the child whose turn it is and whether
this turn has added to its deficit (R326); for each of the last 63 grants whether it was urgent (R328); the (child, core) pairs that
have requested in the window (R326); the bytes granted so far by child. -/
structure Arb where
  waiting : List ArbReq := []
  weights : SMap Nat := []
  deficits : SMap Int := []
  turn : Nat := 0
  fed : Bool := false
  recent : List Bool := []
  seen : List (Nat × Option Nat) := []
  granted : SMap Nat := []
deriving DecidableEq, Repr

/-- A part in which errors are corrected, for R330: its kind (0 core, 1 record store, 2 Hearth slice, 3 stack, 4 ring channel, 5
bridge, 6 flue port), its number, and its row where it has rows. -/
structure CeUnit where
  kind : Nat
  unit : Nat
  row : Nat := 0
deriving DecidableEq, Repr

/-! ### The state -/

/-- The module. -/
structure State where
  /-- commands waiting, first in, first out. -/
  pending : List Instr
  /-- the model's own count of free values taken. -/
  freeCtr : Nat
  /-- the model's own record of what left the module, newest first. -/
  out : List Out
  /-- the register file, by `RegRef.key`; an unlisted register reads its reset value. -/
  regs : SMap W32
  /-- low halves in effect of LO and HI pairs (R379), by the LO register. -/
  effLo : SMap W32
  /-- LS shadows by agent and register (R380). -/
  shadows : SMap W32
  /-- 48-bit counters of Table 15.12, by `RegRef.key` of their LO register. -/
  counts : SMap Nat
  /-- memory by local physical address; core local memories at their window addresses. -/
  mem : SMap Byte
  /-- 64-byte granules lost without copy (R351). -/
  lost : List Nat
  /-- Hearth tags by global slice: (line, dirty, way), most recently used first (R223). -/
  hearth : SMap (List (Nat × Bool × Nat))
  /-- presence filters: line to logical cores that may hold it (R77). -/
  presence : SMap (List Nat)
  /-- lines that an ownership snoop supplied and whose requester has not taken them yet: holder and data. -/
  inFlight : SMap (Option (Nat × BitVec 2048))
  cores : SMap Core
  clusters : SMap Cluster
  regions : SMap Region
  stks : SMap Stack
  ports : SMap Port
  parts : SMap Part
  counters : SMap Counter
  streams : SMap SStream
  deliveries : List Delivery
  /-- waits that found no registration free, by counter (R278). -/
  retries : List (Nat × Wait)
  barriers : SMap Barrier
  opRecords : List OpRecord
  /-- applied epoch and mode word of every unit (R369), by `ModeUnit.key`. -/
  modes : SMap (Nat × W32)
  /-- power-domain events held (R364) and deadlines of timed transitions. -/
  pwrHeld : SMap (List Nat)
  pwrDeadline : SMap (Option W64)
  pwrBusy : SMap Bool
  /-- the arbiters, by `Arbiter.key`. -/
  arbs : SMap Arb
  remotes : SMap (Option Remote)
  /-- the model's own number of the next source tag of a data request (log entry 13). -/
  nextTag : Nat
  /-- contents of the MSI-X tables by function and word (Table 12.11). -/
  msixTable : SMap W32
  /-- MSI-X messages held back by the mask bit of their vector: function and vector. -/
  msixPend : List (Nat × Nat)
  /-- the host link's data-link layer (12.7). -/
  hostLink : HostLink
  /-- errors corrected in the present second, by part and row (R330). -/
  corrected : List (CeUnit × Nat)
  /-- rows in which an error was met before: one whose errors recur is spared (R226). -/
  erred : List CeUnit
  /-- rows that a spare row has replaced (R345). -/
  spared : List CeUnit
  lasers : BitVec 8
  bridgeLanes : SMap Nat
  cfg : Cfg
  time : Time
  sto : Stoker
  damper : Damper
  /-- registers of the debug module by DMI address (R384), its data, program buffer and cmderr (R386) among them; its hart array
  mask words from 0x100 on. -/
  dm : SMap W32
  obsBudget : Nat
  /-- an export that waits for budget (R401): its buffer and its bytes. -/
  obsWaiting : Option (Nat × List Byte)
  obsExports : Nat
deriving DecidableEq, Repr

/-- The state right after reset: every counter 0 (R270), every signal sequence 0 (R67, R86), every register at
the reset value of its table, no configuration applied, V3P3_SB not yet valid. Values the spec does not state
are named in log entries 1 to 9. -/
def State.reset : State where
  pending := []
  freeCtr := 0
  out := []
  regs := []
  effLo := []
  shadows := []
  counts := []
  mem := []
  lost := []
  hearth := []
  presence := []
  inFlight := []
  cores := []
  clusters := []
  regions := []
  stks := []
  ports := []
  parts := []
  counters := []
  streams := []
  deliveries := []
  retries := []
  barriers := []
  opRecords := []
  modes := []
  pwrHeld := []
  pwrDeadline := []
  pwrBusy := []
  arbs := []
  remotes := []
  nextTag := 0
  msixTable := []
  msixPend := []
  hostLink := {}
  corrected := []
  erred := []
  spared := []
  lasers := 0xFF
  bridgeLanes := []
  cfg := {}
  time := {}
  sto := {}
  damper := {}
  dm := []
  obsBudget := 0
  obsWaiting := none
  obsExports := 0

end Sys2Proof.Machine
end

