-- ==== Sys2Proof/Machine/Registers.lean ====
section
/-!
DEFINITION. The register tables of the manual: the fields of every register with their access types and reset
values (R8, R9), where each register lies (R376, Table 15.3, Table 15.4), who may write it, and how a write, a
read and the two other alias forms act on a register word (R9, R378, R379).
-/

namespace Sys2Proof


/-- Register access types (Table 0.6). -/
inductive Access where
  | ro | rw | w1c | w1s | rc | ls
deriving DecidableEq, Repr

/-- A register field: bits [hi:lo], access type, reset value. -/
structure Field where
  hi : Nat
  lo : Nat
  acc : Access
  reset : Nat
deriving DecidableEq, Repr

/-- Who may write a register beside the Stoker and the debug module (R382, and each register's description):
`stoker` nobody; `pf` PF0; `part` also the control cores and the window of partition i; `partj` of partition j;
`core` the control core that runs on physical core i; `mailbox` PF0 for 16, else also partition i; `view` every
partition; `slot` the partition that owns barrier slot i; `trig` the function i itself. -/
inductive Writers where
  | stoker | pf | part | partj | core | mailbox | view | slot | trig
deriving DecidableEq, Repr

/-- Where the registers of one name lie: base offset in the CSR space, strides and counts of both indices. -/
structure Place where
  base : Option Nat
  si : Nat
  ni : Nat
  sj : Nat
  nj : Nat
  writers : Writers
deriving DecidableEq, Repr

/-- The fields of each register, from the manual's tables; bits in no field are reserved (R8). -/
def RegName.fields : RegName → List Field
  -- Table 2.10a: ADDR_LO
  | .STO_KS_ADDR_LO => [⟨31, 3, .rw, 0⟩]
  -- Table 2.10b: ADDR_HI
  | .STO_KS_ADDR_HI => [⟨9, 0, .rw, 0⟩]
  -- Table 2.10c: LEN
  | .STO_KS_LEN => [⟨20, 0, .rw, 0⟩]
  -- Table 2.10d: GO
  | .STO_KS_CTRL => [⟨0, 0, .w1s, 0⟩]
  -- Table 2.10e: REASON RECORD FAIL DONE BUSY
  | .STO_KS_STATUS => [⟨31, 16, .ro, 0⟩, ⟨15, 4, .ro, 0⟩, ⟨2, 2, .w1c, 0⟩, ⟨1, 1, .w1c, 0⟩, ⟨0, 0, .ro, 0⟩]
  -- Table 2.10f: SEQ
  | .STO_KS_SEQ => [⟨31, 0, .ro, 0⟩]
  -- Table 3.12: LOCKED PLACEMENT
  | .CORE_CC_CFG => [⟨5, 1, .rw, 0⟩, ⟨0, 0, .rw, 0⟩]
  -- Table 3.13: VALID ORIGIN GROUP OVERFLOW SELECTOR OFFSET REASON
  | .CORE_ADM_STATUS => [⟨31, 31, .w1c, 0⟩, ⟨30, 30, .ro, 0⟩, ⟨29, 24, .ro, 0⟩, ⟨23, 20, .ro, 0⟩, ⟨19, 16, .ro, 0⟩, ⟨15, 8, .ro, 0⟩, ⟨3, 0, .ro, 0⟩]
  -- Table 3.15: ADDR_LO
  | .CORE_ADM_ADDR_LO => [⟨31, 0, .ro, 0⟩]
  -- Table 3.15: ADDR_HI
  | .CORE_ADM_ADDR_HI => [⟨31, 0, .ls, 0⟩]
  -- Table 3.16: BASE_LO
  | .CORE_SPAN_BASE_LO => [⟨31, 6, .rw, 0⟩]
  -- Table 3.16: BASE_HI
  | .CORE_SPAN_BASE_HI => [⟨9, 0, .rw, 0⟩]
  -- Table 3.17: COUNT
  | .CORE_SPAN_COUNT => [⟨31, 0, .rw, 0⟩]
  -- Table 4.9a: LMSIZE
  | .CORE_VE_CFG => [⟨7, 4, .rw, 6⟩]
  -- Table 4.9b: SPLIT_PENDING KILLED GRIDS HALTED RESIDENT
  | .CORE_VE_STATUS => [⟨31, 31, .ro, 0⟩, ⟨30, 30, .w1c, 0⟩, ⟨27, 24, .ro, 0⟩, ⟨13, 8, .ro, 0⟩, ⟨5, 0, .ro, 0⟩]
  -- Table 4.9c: VALID SLOT GROUP LANE OVERFLOW CODE
  | .CORE_VE_FAULT => [⟨31, 31, .w1c, 0⟩, ⟨27, 26, .ro, 0⟩, ⟨25, 20, .ro, 0⟩, ⟨19, 15, .ro, 0⟩, ⟨7, 4, .ro, 0⟩, ⟨3, 0, .ro, 0⟩]
  -- Table 4.9d: ADDR_LO
  | .CORE_VE_FAULT_ADDR_LO => [⟨31, 0, .ro, 0⟩]
  -- Table 4.9d: ADDR_HI
  | .CORE_VE_FAULT_ADDR_HI => [⟨31, 0, .ls, 0⟩]
  -- Table 4.9e: KILL
  | .CORE_VE_KILL => [⟨3, 0, .w1s, 0⟩]
  -- Table 4.9f: RINGS
  | .CLU_DIST_CFG => [⟨3, 0, .rw, 0⟩]
  -- Table 4.9g: BASE_LO
  | .CLU_DIST_RING_LO => [⟨31, 7, .rw, 0⟩]
  -- Table 4.9g: BASE_HI
  | .CLU_DIST_RING_HI => [⟨9, 0, .rw, 0⟩]
  -- Table 6.12: MU_INEXACT MU_UNDERFLOW MU_OVERFLOW MU_INVALID VE_INEXACT VE_UNDERFLOW VE_OVERFLOW VE_INVALID
  | .CORE_FP_FLAGS => [⟨7, 7, .w1c, 0⟩, ⟨6, 6, .w1c, 0⟩, ⟨5, 5, .w1c, 0⟩, ⟨4, 4, .w1c, 0⟩, ⟨3, 3, .w1c, 0⟩, ⟨2, 2, .w1c, 0⟩, ⟨1, 1, .w1c, 0⟩, ⟨0, 0, .w1c, 0⟩]
  -- Table 7.9: MODE FAILED SPARE
  | .CORE_MU_CUBES => [⟨31, 30, .ro, 0⟩, ⟨24, 16, .rw, 0⟩, ⟨3, 0, .rw, 8⟩]
  -- Table 7.10: GEN ARR QRG LOADSTALL DRAINSTALL FEEDSTALL BANKS BUSY
  | .CORE_MU_STATUS => [⟨31, 29, .ro, 0⟩, ⟨28, 27, .ro, 0⟩, ⟨26, 23, .ro, 0⟩, ⟨22, 22, .ro, 0⟩, ⟨21, 21, .ro, 0⟩, ⟨20, 20, .ro, 0⟩, ⟨19, 18, .ro, 0⟩, ⟨17, 17, .ro, 0⟩]
  -- Table 7.11: COUNT_LO
  | .CORE_MU_BUBBLE_LO => [⟨31, 0, .ro, 0⟩]
  -- Table 7.11: COUNT_HI
  | .CORE_MU_BUBBLE_HI => [⟨15, 0, .ls, 0⟩]
  -- Table 8.8: FAILED
  | .GRT_ENGINES => [⟨15, 0, .rw, 0⟩]
  -- Table 8.9: ACTIVE ALLFAILED BUSY
  | .GRT_STATUS => [⟨30, 24, .ro, 0⟩, ⟨16, 16, .ro, 0⟩, ⟨15, 0, .ro, 0⟩]
  -- Table 8.10: COUNT_LO
  | .GRT_ITEMS_LO => [⟨31, 0, .ro, 0⟩]
  -- Table 8.10: COUNT_HI
  | .GRT_ITEMS_HI => [⟨15, 0, .ls, 0⟩]
  -- Table 8.11: BASE_LO
  | .GRT_PT_BASE_LO => [⟨31, 4, .rw, 0⟩]
  -- Table 8.11: BASE_HI
  | .GRT_PT_BASE_HI => [⟨9, 0, .rw, 0⟩]
  -- Table 8.11: COUNT
  | .GRT_PT_COUNT => [⟨31, 0, .rw, 0⟩]
  -- Table 8.11: VALID PAGE
  | .GRT_PT_CFG => [⟨2, 2, .rw, 0⟩, ⟨1, 0, .rw, 0⟩]
  -- Table 9.8: FLOOR REFX2 STEP TEMP
  | .STK_TEMP => [⟨25, 25, .ro, 0⟩, ⟨24, 24, .ro, 0⟩, ⟨23, 20, .ro, 0⟩, ⟨15, 0, .ro, 0⟩]
  -- Table 9.9: MAX
  | .STK_TEMP_MAX => [⟨15, 0, .rc, 0⟩]
  -- Table 9.10: GRATE_MIN
  | .STK_SPLIT => [⟨4, 0, .rw, 10⟩]
  -- Table 9.11: ROWS PCSPARED PC
  | .STK_REPAIR => [⟨31, 16, .ro, 0⟩, ⟨8, 8, .ro, 0⟩, ⟨5, 0, .ro, 0⟩]
  -- Table 9.12: COUNT
  | .STK_CE_COUNT => [⟨31, 0, .rc, 0⟩]
  -- Table 9.13: ARM
  | .MOD_GOLD_CTRL => [⟨7, 0, .rw, 0⟩]
  -- Table 9.14: BUSY MISMATCH ARMED
  | .MOD_GOLD_STATUS => [⟨23, 16, .ro, 0⟩, ⟨15, 8, .w1c, 0⟩, ⟨7, 0, .ro, 0⟩]
  -- Table 10.14: BASE_LO
  | .MOD_XLT_CTX_LO => [⟨31, 4, .rw, 0⟩]
  -- Table 10.14: BASE_HI
  | .MOD_XLT_CTX_HI => [⟨9, 0, .rw, 0⟩]
  -- Table 10.15: BASE_LO
  | .MOD_XLT_S2_LO => [⟨31, 5, .rw, 0⟩]
  -- Table 10.15: BASE_HI
  | .MOD_XLT_S2_HI => [⟨9, 0, .rw, 0⟩]
  -- Table 10.16: BASE_LO COUNT
  | .MOD_XLT_PIN_LO => [⟨31, 11, .rw, 0⟩, ⟨6, 0, .rw, 0⟩]
  -- Table 10.16: BASE_HI
  | .MOD_XLT_PIN_HI => [⟨9, 0, .rw, 0⟩]
  -- Table 10.17: GO BUSY FAIL DONE REASON COUNT
  | .MOD_XLT_SWAP => [⟨31, 31, .w1s, 0⟩, ⟨30, 30, .ro, 0⟩, ⟨29, 29, .w1c, 0⟩, ⟨28, 28, .w1c, 0⟩, ⟨27, 24, .ro, 0⟩, ⟨16, 0, .rw, 0⟩]
  -- Table 10.18: GO CONTEXT
  | .MOD_XLT_INV => [⟨31, 31, .w1s, 0⟩, ⟨7, 0, .rw, 0⟩]
  -- Table 10.19: BASE_LO
  | .MOD_XLT_FR_LO => [⟨31, 6, .rw, 0⟩]
  -- Table 10.19: BASE_HI
  | .MOD_XLT_FR_HI => [⟨9, 0, .rw, 0⟩]
  -- Table 10.20: SIZE TAIL
  | .MOD_XLT_FR_CTRL => [⟨21, 17, .rw, 4⟩, ⟨16, 0, .ro, 0⟩]
  -- Table 10.20: HEAD
  | .MOD_XLT_FR_HEAD => [⟨16, 0, .rw, 0⟩]
  -- Table 10.21: ACTION CORE FAULT
  | .MOD_XLT_RESOLVE => [⟨31, 30, .rw, 0⟩, ⟨25, 16, .rw, 0⟩, ⟨15, 0, .rw, 0⟩]
  -- Table 11.15: REGION CORE
  | .FCH_VIEW_WHERE => [⟨13, 10, .rw, 0⟩, ⟨9, 0, .rw, 0⟩]
  -- Table 11.16: BUSY HANDLE
  | .FCH_VIEW_SEL => [⟨31, 31, .ro, 0⟩, ⟨23, 0, .rw, 0⟩]
  -- Table 11.17: VALID SAT LISTED MORE
  | .FCH_VIEW_STATE => [⟨31, 31, .ro, 0⟩, ⟨30, 30, .ro, 0⟩, ⟨20, 16, .ro, 0⟩, ⟨15, 0, .ro, 0⟩]
  -- Table 11.17: VALUE_LO
  | .FCH_VIEW_VALUE_LO => [⟨31, 0, .ro, 0⟩]
  -- Table 11.17: VALUE_HI
  | .FCH_VIEW_VALUE_HI => [⟨31, 0, .ls, 0⟩]
  -- Table 11.17: SOURCE
  | .FCH_VIEW_LAST_SRC => [⟨31, 0, .ro, 0⟩]
  -- Table 11.17: TIME_LO
  | .FCH_VIEW_LAST_TIME_LO => [⟨31, 0, .ro, 0⟩]
  -- Table 11.17: TIME_HI
  | .FCH_VIEW_LAST_TIME_HI => [⟨31, 0, .ls, 0⟩]
  -- Table 11.17: SOURCE
  | .FCH_VIEW_WAITER => [⟨31, 0, .ro, 0⟩]
  -- Table 11.18: ENABLE GROUP PARENT GBASE
  | .FCH_SLOT_CFG => [⟨31, 31, .rw, 0⟩, ⟨30, 30, .rw, 0⟩, ⟨29, 29, .rw, 0⟩, ⟨11, 0, .rw, 0⟩]
  -- Table 11.18: HANDLE
  | .FCH_SLOT_COMP => [⟨23, 0, .rw, 0⟩]
  -- Table 11.18: PSLOT PMODULE
  | .FCH_SLOT_PARENT => [⟨23, 18, .rw, 0⟩, ⟨17, 0, .rw, 0⟩]
  -- Table 11.18: INDEX
  | .FCH_SLOT_INDEX => [⟨9, 0, .rw, 0⟩]
  -- Table 11.18: MASK
  | .FCH_SLOT_MASK => [⟨31, 0, .rw, 0⟩]
  -- Table 11.19: PHASE_LO
  | .FCH_SLOT_PHASE_LO => [⟨31, 0, .ro, 0⟩]
  -- Table 11.19: PHASE_HI
  | .FCH_SLOT_PHASE_HI => [⟨31, 0, .ls, 0⟩]
  -- Table 11.19: ERRORS ARRIVED
  | .FCH_SLOT_STATUS => [⟨31, 16, .rc, 0⟩, ⟨10, 0, .ro, 0⟩]
  -- Table 11.20: VALID MODULE
  | .FCH_GROUP => [⟨31, 31, .rw, 0⟩, ⟨17, 0, .rw, 0⟩]
  -- Table 11.21: VALID OWNER
  | .FCH_SYSDIR => [⟨31, 31, .rw, 0⟩, ⟨17, 0, .rw, 0⟩]
  -- Table 12.12: KIND HANDLE
  | .DB_CFG => [⟨25, 24, .rw, 0⟩, ⟨23, 0, .rw, 0⟩]
  -- Table 12.12: OP_LO
  | .DB_RING_LO => [⟨31, 0, .rw, 0⟩]
  -- Table 12.12: OP_HI
  | .DB_RING_HI => [⟨31, 0, .rw, 0⟩]
  -- Table 12.14: ARM HANDLE
  | .TRIG_CFG => [⟨31, 31, .w1s, 0⟩, ⟨23, 0, .rw, 0⟩]
  -- Table 12.14: THR_LO
  | .TRIG_LO => [⟨31, 0, .rw, 0⟩]
  -- Table 12.14: THR_HI
  | .TRIG_HI => [⟨31, 0, .rw, 0⟩]
  -- Table 12.18: STATE LANES SPARED ROLE LASER1 LASER0 FAILED
  | .FLP_STATUS => [⟨31, 28, .ro, 0⟩, ⟨27, 24, .ro, 0⟩, ⟨23, 23, .ro, 0⟩, ⟨22, 21, .ro, 0⟩, ⟨20, 20, .ro, 0⟩, ⟨19, 19, .ro, 0⟩, ⟨8, 0, .ro, 0⟩]
  -- Table 12.19: NAKS DISCARDS REFUSALS
  | .FLP_ERRS => [⟨31, 16, .rc, 0⟩, ⟨15, 8, .rc, 0⟩, ⟨7, 0, .rc, 0⟩]
  -- Table 12.20: BASE_LO
  | .RMT_BASE_LO => [⟨31, 12, .rw, 0⟩]
  -- Table 12.20: BASE_HI
  | .RMT_BASE_HI => [⟨9, 0, .rw, 0⟩]
  -- Table 12.20: LEN
  | .RMT_LEN => [⟨27, 0, .rw, 0⟩]
  -- Table 12.20: VALID WRITE MASK GROUP
  | .RMT_SRC => [⟨31, 31, .rw, 0⟩, ⟨30, 30, .rw, 0⟩, ⟨19, 10, .rw, 0⟩, ⟨9, 0, .rw, 0⟩]
  -- Table 12.21: ENABLE ENGINE CONSUMER SIZE CRED OVERRUN REFUSED
  | .CORE_SQ_CFG => [⟨31, 31, .rw, 0⟩, ⟨30, 30, .rw, 0⟩, ⟨29, 20, .rw, 0⟩, ⟨19, 16, .rw, 4⟩, ⟨15, 8, .rw, 0⟩, ⟨7, 7, .w1c, 0⟩, ⟨6, 6, .w1c, 0⟩]
  -- Table 12.21: BASE
  | .CORE_SQ_RING => [⟨18, 6, .rw, 0⟩]
  -- Table 12.22: RESV
  | .CORE_SQ_RESV => [⟨6, 0, .rw, 0⟩]
  -- Table 13.10: MIGRATING DEGRADED FAILED MIGRATIONS SPARE
  | .CLU_SPARE => [⟨31, 31, .ro, 0⟩, ⟨30, 30, .ro, 0⟩, ⟨24, 16, .ro, 0⟩, ⟨15, 8, .rc, 0⟩, ⟨3, 0, .ro, 8⟩]
  -- Table 13.11: UNPROT BLOCKS RECORDS
  | .CLU_RS_STATUS => [⟨31, 25, .rc, 0⟩, ⟨24, 16, .ro, 256⟩, ⟨10, 0, .ro, 1536⟩]
  -- Table 13.12: ENABLE RUN LAST PERIOD
  | .CLU_TEST => [⟨31, 31, .rw, 1⟩, ⟨30, 30, .w1s, 0⟩, ⟨29, 28, .ro, 0⟩, ⟨15, 0, .rw, 160⟩]
  -- Table 13.13: ENABLE WINDOW THRESH
  | .RGN_LAG_CFG => [⟨31, 31, .rw, 1⟩, ⟨15, 8, .rw, 4⟩, ⟨7, 0, .rw, 12⟩]
  -- Table 13.14: LAGGING CORE ENGINE DEGRADED
  | .RGN_LAG_STATUS => [⟨31, 31, .ro, 0⟩, ⟨19, 10, .ro, 0⟩, ⟨9, 8, .ro, 0⟩, ⟨7, 0, .rc, 0⟩]
  -- Table 13.15: HALTED RESUME HANDLE
  | .MOD_LOSS_CFG => [⟨31, 31, .ro, 0⟩, ⟨30, 30, .w1s, 0⟩, ⟨23, 0, .rw, 0⟩]
  -- Table 13.16: LOST AVAIL
  | .STO_ALOG_STATUS => [⟨31, 17, .rc, 0⟩, ⟨16, 0, .ro, 0⟩]
  -- Table 13.16: POP
  | .STO_ALOG_POP => [⟨0, 0, .w1s, 0⟩]
  -- Table 13.16: WORD
  | .STO_ALOG_REC => [⟨31, 0, .ro, 0⟩]
  -- Table 13.17: SLOT7 SLOT6 SLOT5 SLOT4 SLOT3 SLOT2 SLOT1 SLOT0
  | .CLU_CORE_MAP => [⟨31, 28, .ro, 7⟩, ⟨27, 24, .ro, 6⟩, ⟨23, 20, .ro, 5⟩, ⟨19, 16, .ro, 4⟩, ⟨15, 12, .ro, 3⟩, ⟨11, 8, .ro, 2⟩, ⟨7, 4, .ro, 1⟩, ⟨3, 0, .ro, 0⟩]
  -- Table 14.9: VALID POINT
  | .RGN_PERF_REQ => [⟨31, 31, .rw, 0⟩, ⟨3, 0, .rw, 0⟩]
  -- Table 14.10: POINT TARGET THERM POWER NEIGH STEPPING TEMP
  | .RGN_DVFS_STATUS => [⟨31, 28, .ro, 0⟩, ⟨27, 24, .ro, 0⟩, ⟨23, 23, .ro, 0⟩, ⟨22, 22, .ro, 0⟩, ⟨21, 21, .ro, 0⟩, ⟨20, 20, .ro, 0⟩, ⟨15, 0, .ro, 0⟩]
  -- Table 14.11: POWER
  | .RGN_POWER => [⟨15, 0, .ro, 0⟩]
  -- Table 14.12: EVENT STATE
  | .MOD_PWR_STATE => [⟨15, 8, .ro, 0⟩, ⟨7, 0, .ro, 0⟩]
  -- Table 14.13: DOMAIN EVENT
  | .MOD_PWR_EVENT => [⟨15, 8, .rw, 0⟩, ⟨7, 0, .rw, 0⟩]
  -- Table 14.14: MODE
  | .MOD_MODE_NEXT => [⟨31, 0, .rw, 0⟩]
  -- Table 14.14: GO BUSY REFUSED HANDLE
  | .MOD_MODE_CTRL => [⟨31, 31, .w1s, 0⟩, ⟨30, 30, .ro, 0⟩, ⟨29, 29, .w1c, 0⟩, ⟨23, 0, .rw, 0⟩]
  -- Table 14.14: EPOCH
  | .MOD_MODE_EPOCH => [⟨31, 0, .ro, 0⟩]
  -- Table 14.14: UNITS PENDING
  | .MOD_MODE_STATUS => [⟨27, 16, .ro, 0⟩, ⟨11, 0, .ro, 0⟩]
  -- Table 14.14: MODE
  | .MOD_MODE_CUR => [⟨31, 0, .ro, 0⟩]
  -- Table 15.13: VARIANT REVISION MODULE
  | .MOD_ID => [⟨31, 30, .ro, 0⟩, ⟨29, 26, .ro, 1⟩, ⟨17, 0, .ro, 0⟩]
  -- Table 15.14: ARM RESUME SYSTEM REFUSED REASON
  | .MOD_DAMP_CTRL => [⟨31, 31, .w1s, 0⟩, ⟨30, 30, .w1s, 0⟩, ⟨29, 29, .rw, 0⟩, ⟨28, 28, .w1c, 0⟩, ⟨27, 24, .ro, 0⟩]
  -- Table 15.15: TIME_LO
  | .MOD_DAMP_TIME_LO => [⟨31, 0, .rw, 0⟩]
  -- Table 15.15: TIME_LO
  | .MOD_DAMP_RES_LO => [⟨31, 0, .rw, 0⟩]
  -- Table 15.15: TIME_HI
  | .MOD_DAMP_TIME_HI => [⟨31, 0, .rw, 0⟩]
  -- Table 15.15: TIME_HI
  | .MOD_DAMP_RES_HI => [⟨31, 0, .rw, 0⟩]
  -- Table 15.15: BASE_LO
  | .MOD_DAMP_BUF_LO => [⟨31, 6, .rw, 0⟩]
  -- Table 15.15: BASE_HI
  | .MOD_DAMP_BUF_HI => [⟨9, 0, .rw, 0⟩]
  -- Table 15.16: STATE RECORDS HELD
  | .MOD_DAMP_STATUS => [⟨31, 29, .ro, 0⟩, ⟨27, 16, .ro, 0⟩, ⟨15, 0, .ro, 0⟩]
  -- Table 15.17: BUDGET PERIOD
  | .MOD_OBS_CFG => [⟨20, 16, .rw, 3⟩, ⟨15, 0, .rw, 0⟩]
  -- Table 15.15: BASE_LO
  | .MOD_OBS_EXP_LO => [⟨31, 6, .rw, 0⟩]
  -- Table 15.15: BASE_HI
  | .MOD_OBS_EXP_HI => [⟨9, 0, .rw, 0⟩]
  -- Table 15.18: LATE EXPORTS
  | .MOD_OBS_STATUS => [⟨31, 16, .rc, 0⟩, ⟨15, 0, .rc, 0⟩]
  -- Table 15.19: BASE_LO
  | .MOD_TRC_BASE_LO => [⟨31, 5, .rw, 0⟩]
  -- Table 15.19: BASE_HI
  | .MOD_TRC_BASE_HI => [⟨9, 0, .rw, 0⟩]
  -- Table 15.19: SIZE TAIL
  | .MOD_TRC_CTRL => [⟨29, 25, .rw, 10⟩, ⟨24, 0, .ro, 0⟩]
  -- Table 15.19: HEAD
  | .MOD_TRC_HEAD => [⟨24, 0, .rw, 0⟩]
  -- Table 15.19: DROPS
  | .MOD_TRC_DROPS => [⟨31, 0, .rc, 0⟩]
  -- Table 16.3: PHASE READY FAILED RECOVERY IMAGE STRAPS REASON
  | .STO_BOOT_STATUS => [⟨31, 28, .ro, 0⟩, ⟨27, 27, .ro, 0⟩, ⟨26, 26, .ro, 0⟩, ⟨25, 25, .ro, 0⟩, ⟨24, 24, .ro, 0⟩, ⟨23, 20, .ro, 0⟩, ⟨15, 0, .ro, 0⟩]
  | .CORE_CNT_LO => [⟨31, 0, .ro, 0⟩]
  | .CORE_CNT_HI => [⟨15, 0, .ls, 0⟩]
  | .DIE_CNT_LO => [⟨31, 0, .ro, 0⟩]
  | .DIE_CNT_HI => [⟨15, 0, .ls, 0⟩]
  | .STK_CNT_LO => [⟨31, 0, .ro, 0⟩]
  | .STK_CNT_HI => [⟨15, 0, .ls, 0⟩]
  | .RNG_CNT_LO => [⟨31, 0, .ro, 0⟩]
  | .RNG_CNT_HI => [⟨15, 0, .ls, 0⟩]
  | .FLP_CNT_LO => [⟨31, 0, .ro, 0⟩]
  | .FLP_CNT_HI => [⟨15, 0, .ls, 0⟩]

/-- Where each register lies and who may write it. The triggers of PF0 have no CSR offset in the manual; those
of a VF are reached in its window (Table 12.11). -/
def RegName.place : RegName → Place
  | .STO_KS_ADDR_LO => ⟨some 0x20000, 0x40, 17, 0, 1, .mailbox⟩
  | .STO_KS_ADDR_HI => ⟨some 0x20004, 0x40, 17, 0, 1, .mailbox⟩
  | .STO_KS_LEN => ⟨some 0x20008, 0x40, 17, 0, 1, .mailbox⟩
  | .STO_KS_CTRL => ⟨some 0x2000c, 0x40, 17, 0, 1, .mailbox⟩
  | .STO_KS_STATUS => ⟨some 0x20010, 0x40, 17, 0, 1, .mailbox⟩
  | .STO_KS_SEQ => ⟨some 0x20014, 0x40, 17, 0, 1, .mailbox⟩
  | .CORE_CC_CFG => ⟨some 0x40000100, 0x10000, 864, 0, 1, .core⟩
  | .CORE_ADM_STATUS => ⟨some 0x40000110, 0x10000, 864, 0, 1, .core⟩
  | .CORE_ADM_ADDR_LO => ⟨some 0x40000114, 0x10000, 864, 0, 1, .core⟩
  | .CORE_ADM_ADDR_HI => ⟨some 0x40000118, 0x10000, 864, 0, 1, .core⟩
  | .CORE_SPAN_BASE_LO => ⟨some 0x40000120, 0x10000, 864, 0, 1, .pf⟩
  | .CORE_SPAN_BASE_HI => ⟨some 0x40000124, 0x10000, 864, 0, 1, .pf⟩
  | .CORE_SPAN_COUNT => ⟨some 0x40000128, 0x10000, 864, 0, 1, .pf⟩
  | .CORE_VE_CFG => ⟨some 0x40000200, 0x10000, 864, 0, 1, .core⟩
  | .CORE_VE_STATUS => ⟨some 0x40000204, 0x10000, 864, 0, 1, .core⟩
  | .CORE_VE_FAULT => ⟨some 0x40000210, 0x10000, 864, 0, 1, .core⟩
  | .CORE_VE_FAULT_ADDR_LO => ⟨some 0x40000214, 0x10000, 864, 0, 1, .core⟩
  | .CORE_VE_FAULT_ADDR_HI => ⟨some 0x40000218, 0x10000, 864, 0, 1, .core⟩
  | .CORE_VE_KILL => ⟨some 0x40000220, 0x10000, 864, 0, 1, .core⟩
  | .CLU_DIST_CFG => ⟨some 0x20000100, 0x40000, 96, 0, 1, .pf⟩
  | .CLU_DIST_RING_LO => ⟨some 0x20000110, 0x40000, 96, 8, 4, .pf⟩
  | .CLU_DIST_RING_HI => ⟨some 0x20000114, 0x40000, 96, 8, 4, .pf⟩
  | .CORE_FP_FLAGS => ⟨some 0x40000300, 0x10000, 864, 0, 1, .core⟩
  | .CORE_MU_CUBES => ⟨some 0x40000400, 0x10000, 864, 0, 1, .stoker⟩
  | .CORE_MU_STATUS => ⟨some 0x40000404, 0x10000, 864, 0, 1, .core⟩
  | .CORE_MU_BUBBLE_LO => ⟨some 0x40000408, 0x10000, 864, 0, 1, .core⟩
  | .CORE_MU_BUBBLE_HI => ⟨some 0x4000040c, 0x10000, 864, 0, 1, .core⟩
  | .GRT_ENGINES => ⟨some 0x30010000, 0x100000, 12, 0, 1, .stoker⟩
  | .GRT_STATUS => ⟨some 0x30010004, 0x100000, 12, 0, 1, .pf⟩
  | .GRT_ITEMS_LO => ⟨some 0x30010008, 0x100000, 12, 0, 1, .pf⟩
  | .GRT_ITEMS_HI => ⟨some 0x3001000c, 0x100000, 12, 0, 1, .pf⟩
  | .GRT_PT_BASE_LO => ⟨some 0x30010100, 0x100000, 12, 16, 16, .pf⟩
  | .GRT_PT_BASE_HI => ⟨some 0x30010104, 0x100000, 12, 16, 16, .pf⟩
  | .GRT_PT_COUNT => ⟨some 0x30010108, 0x100000, 12, 16, 16, .pf⟩
  | .GRT_PT_CFG => ⟨some 0x3001010c, 0x100000, 12, 16, 16, .pf⟩
  | .STK_TEMP => ⟨some 0x30000000, 0x100000, 12, 0, 1, .pf⟩
  | .STK_TEMP_MAX => ⟨some 0x30000004, 0x100000, 12, 0, 1, .pf⟩
  | .STK_SPLIT => ⟨some 0x30000010, 0x100000, 12, 0, 1, .pf⟩
  | .STK_REPAIR => ⟨some 0x30000020, 0x100000, 12, 0, 1, .pf⟩
  | .STK_CE_COUNT => ⟨some 0x30000024, 0x100000, 12, 0, 1, .pf⟩
  | .MOD_GOLD_CTRL => ⟨some 0x30000, 0x8, 16, 0, 1, .part⟩
  | .MOD_GOLD_STATUS => ⟨some 0x30004, 0x8, 16, 0, 1, .part⟩
  | .MOD_XLT_CTX_LO => ⟨some 0x40000, 0x40, 16, 0, 1, .part⟩
  | .MOD_XLT_CTX_HI => ⟨some 0x40004, 0x40, 16, 0, 1, .part⟩
  | .MOD_XLT_S2_LO => ⟨some 0x40008, 0x40, 16, 0, 1, .pf⟩
  | .MOD_XLT_S2_HI => ⟨some 0x4000c, 0x40, 16, 0, 1, .pf⟩
  | .MOD_XLT_PIN_LO => ⟨some 0x40010, 0x40, 16, 0, 1, .pf⟩
  | .MOD_XLT_PIN_HI => ⟨some 0x40014, 0x40, 16, 0, 1, .pf⟩
  | .MOD_XLT_SWAP => ⟨some 0x40018, 0x40, 16, 0, 1, .pf⟩
  | .MOD_XLT_INV => ⟨some 0x4001c, 0x40, 16, 0, 1, .part⟩
  | .MOD_XLT_FR_LO => ⟨some 0x40020, 0x40, 16, 0, 1, .part⟩
  | .MOD_XLT_FR_HI => ⟨some 0x40024, 0x40, 16, 0, 1, .part⟩
  | .MOD_XLT_FR_CTRL => ⟨some 0x40028, 0x40, 16, 0, 1, .part⟩
  | .MOD_XLT_FR_HEAD => ⟨some 0x4002c, 0x40, 16, 0, 1, .part⟩
  | .MOD_XLT_RESOLVE => ⟨some 0x40030, 0x40, 16, 0, 1, .part⟩
  | .FCH_VIEW_WHERE => ⟨some 0x50004, 0x0, 1, 0, 1, .view⟩
  | .FCH_VIEW_SEL => ⟨some 0x50000, 0x0, 1, 0, 1, .view⟩
  | .FCH_VIEW_STATE => ⟨some 0x50008, 0x0, 1, 0, 1, .view⟩
  | .FCH_VIEW_VALUE_LO => ⟨some 0x50010, 0x0, 1, 0, 1, .view⟩
  | .FCH_VIEW_VALUE_HI => ⟨some 0x50014, 0x0, 1, 0, 1, .view⟩
  | .FCH_VIEW_LAST_SRC => ⟨some 0x50018, 0x0, 1, 0, 1, .view⟩
  | .FCH_VIEW_LAST_TIME_LO => ⟨some 0x5001c, 0x0, 1, 0, 1, .view⟩
  | .FCH_VIEW_LAST_TIME_HI => ⟨some 0x50020, 0x0, 1, 0, 1, .view⟩
  | .FCH_VIEW_WAITER => ⟨some 0x50040, 0x0, 1, 4, 16, .view⟩
  | .FCH_SLOT_CFG => ⟨some 0x51000, 0x100, 64, 0, 1, .slot⟩
  | .FCH_SLOT_COMP => ⟨some 0x51004, 0x100, 64, 0, 1, .slot⟩
  | .FCH_SLOT_PARENT => ⟨some 0x51008, 0x100, 64, 0, 1, .slot⟩
  | .FCH_SLOT_INDEX => ⟨some 0x5100c, 0x100, 64, 0, 1, .slot⟩
  | .FCH_SLOT_MASK => ⟨some 0x51080, 0x100, 64, 4, 32, .slot⟩
  | .FCH_SLOT_PHASE_LO => ⟨some 0x51010, 0x100, 64, 0, 1, .slot⟩
  | .FCH_SLOT_PHASE_HI => ⟨some 0x51014, 0x100, 64, 0, 1, .slot⟩
  | .FCH_SLOT_STATUS => ⟨some 0x51018, 0x100, 64, 0, 1, .slot⟩
  | .FCH_GROUP => ⟨some 0x60000, 0x4, 4096, 0, 1, .pf⟩
  | .FCH_SYSDIR => ⟨some 0x70000, 0x4, 4096, 0, 1, .pf⟩
  | .DB_CFG => ⟨some 0x90000, 0x400, 16, 16, 64, .part⟩
  | .DB_RING_LO => ⟨some 0x90008, 0x400, 16, 16, 64, .part⟩
  | .DB_RING_HI => ⟨some 0x9000c, 0x400, 16, 16, 64, .part⟩
  | .TRIG_CFG => ⟨none, 0x0, 17, 0, 128, .trig⟩
  | .TRIG_LO => ⟨none, 0x0, 17, 0, 128, .trig⟩
  | .TRIG_HI => ⟨none, 0x0, 17, 0, 128, .trig⟩
  | .FLP_STATUS => ⟨some 0x38000000, 0x10000, 36, 0, 1, .pf⟩
  | .FLP_ERRS => ⟨some 0x38000004, 0x10000, 36, 0, 1, .pf⟩
  | .RMT_BASE_LO => ⟨some 0x80000, 0x10, 64, 0, 1, .pf⟩
  | .RMT_BASE_HI => ⟨some 0x80004, 0x10, 64, 0, 1, .pf⟩
  | .RMT_LEN => ⟨some 0x80008, 0x10, 64, 0, 1, .pf⟩
  | .RMT_SRC => ⟨some 0x8000c, 0x10, 64, 0, 1, .pf⟩
  | .CORE_SQ_CFG => ⟨some 0x40000500, 0x10000, 864, 8, 8, .core⟩
  | .CORE_SQ_RING => ⟨some 0x40000504, 0x10000, 864, 8, 8, .core⟩
  | .CORE_SQ_RESV => ⟨some 0x40000540, 0x10000, 864, 0, 1, .core⟩
  | .CLU_SPARE => ⟨some 0x20000200, 0x40000, 96, 0, 1, .pf⟩
  | .CLU_RS_STATUS => ⟨some 0x20000204, 0x40000, 96, 0, 1, .pf⟩
  | .CLU_TEST => ⟨some 0x20000208, 0x40000, 96, 0, 1, .pf⟩
  | .RGN_LAG_CFG => ⟨some 0x10000100, 0x100000, 16, 0, 1, .pf⟩
  | .RGN_LAG_STATUS => ⟨some 0x10000104, 0x100000, 16, 0, 1, .pf⟩
  | .MOD_LOSS_CFG => ⟨some 0xa0000, 0x8, 16, 0, 1, .part⟩
  | .STO_ALOG_STATUS => ⟨some 0x21000, 0x0, 1, 0, 1, .pf⟩
  | .STO_ALOG_POP => ⟨some 0x21004, 0x0, 1, 0, 1, .pf⟩
  | .STO_ALOG_REC => ⟨some 0x21040, 0x0, 1, 4, 16, .pf⟩
  | .CLU_CORE_MAP => ⟨some 0x2000020c, 0x40000, 96, 0, 1, .pf⟩
  | .RGN_PERF_REQ => ⟨some 0x10000200, 0x100000, 16, 4, 16, .partj⟩
  | .RGN_DVFS_STATUS => ⟨some 0x10000210, 0x100000, 16, 0, 1, .pf⟩
  | .RGN_POWER => ⟨some 0x10000214, 0x100000, 16, 0, 1, .pf⟩
  | .MOD_PWR_STATE => ⟨some 0xb0000, 0x4, 50, 0, 1, .pf⟩
  | .MOD_PWR_EVENT => ⟨some 0xb0100, 0x0, 1, 0, 1, .pf⟩
  | .MOD_MODE_NEXT => ⟨some 0xc0000, 0x20, 16, 0, 1, .part⟩
  | .MOD_MODE_CTRL => ⟨some 0xc0004, 0x20, 16, 0, 1, .part⟩
  | .MOD_MODE_EPOCH => ⟨some 0xc0008, 0x20, 16, 0, 1, .part⟩
  | .MOD_MODE_STATUS => ⟨some 0xc000c, 0x20, 16, 0, 1, .part⟩
  | .MOD_MODE_CUR => ⟨some 0xc0010, 0x20, 16, 0, 1, .part⟩
  | .MOD_ID => ⟨some 0x0, 0x0, 1, 0, 1, .pf⟩
  | .MOD_DAMP_CTRL => ⟨some 0x10000, 0x0, 1, 0, 1, .pf⟩
  | .MOD_DAMP_TIME_LO => ⟨some 0x10004, 0x0, 1, 0, 1, .pf⟩
  | .MOD_DAMP_RES_LO => ⟨some 0x1000c, 0x0, 1, 0, 1, .pf⟩
  | .MOD_DAMP_TIME_HI => ⟨some 0x10008, 0x0, 1, 0, 1, .pf⟩
  | .MOD_DAMP_RES_HI => ⟨some 0x10010, 0x0, 1, 0, 1, .pf⟩
  | .MOD_DAMP_BUF_LO => ⟨some 0x10014, 0x0, 1, 0, 1, .pf⟩
  | .MOD_DAMP_BUF_HI => ⟨some 0x10018, 0x0, 1, 0, 1, .pf⟩
  | .MOD_DAMP_STATUS => ⟨some 0x1001c, 0x0, 1, 0, 1, .pf⟩
  | .MOD_OBS_CFG => ⟨some 0x10040, 0x0, 1, 0, 1, .pf⟩
  | .MOD_OBS_EXP_LO => ⟨some 0x10044, 0x0, 1, 0, 1, .pf⟩
  | .MOD_OBS_EXP_HI => ⟨some 0x10048, 0x0, 1, 0, 1, .pf⟩
  | .MOD_OBS_STATUS => ⟨some 0x1004c, 0x0, 1, 0, 1, .pf⟩
  | .MOD_TRC_BASE_LO => ⟨some 0x10100, 0x20, 16, 0, 1, .part⟩
  | .MOD_TRC_BASE_HI => ⟨some 0x10104, 0x20, 16, 0, 1, .part⟩
  | .MOD_TRC_CTRL => ⟨some 0x10108, 0x20, 16, 0, 1, .part⟩
  | .MOD_TRC_HEAD => ⟨some 0x1010c, 0x20, 16, 0, 1, .part⟩
  | .MOD_TRC_DROPS => ⟨some 0x10110, 0x20, 16, 0, 1, .part⟩
  | .STO_BOOT_STATUS => ⟨some 0x22000, 0x0, 1, 0, 1, .pf⟩
  | .CORE_CNT_LO => ⟨some 0x40000800, 0x10000, 864, 8, 10, .pf⟩
  | .CORE_CNT_HI => ⟨some 0x40000804, 0x10000, 864, 8, 10, .pf⟩
  | .DIE_CNT_LO => ⟨some 0x1000800, 0x1000000, 4, 8, 6, .pf⟩
  | .DIE_CNT_HI => ⟨some 0x1000804, 0x1000000, 4, 8, 6, .pf⟩
  | .STK_CNT_LO => ⟨some 0x30000800, 0x100000, 12, 8, 5, .pf⟩
  | .STK_CNT_HI => ⟨some 0x30000804, 0x100000, 12, 8, 5, .pf⟩
  | .RNG_CNT_LO => ⟨some 0x3c000800, 0x10000, 16, 8, 3, .pf⟩
  | .RNG_CNT_HI => ⟨some 0x3c000804, 0x10000, 16, 8, 3, .pf⟩
  | .FLP_CNT_LO => ⟨some 0x38000800, 0x10000, 36, 8, 4, .pf⟩
  | .FLP_CNT_HI => ⟨some 0x38000804, 0x10000, 36, 8, 4, .pf⟩

/-- The high register that a read of this low register latches (R380). -/
def RegName.lsHigh : RegName → Option RegName
  | .CORE_ADM_ADDR_LO => some .CORE_ADM_ADDR_HI
  | .CORE_VE_FAULT_ADDR_LO => some .CORE_VE_FAULT_ADDR_HI
  | .CORE_MU_BUBBLE_LO => some .CORE_MU_BUBBLE_HI
  | .GRT_ITEMS_LO => some .GRT_ITEMS_HI
  | .FCH_VIEW_VALUE_LO => some .FCH_VIEW_VALUE_HI
  | .FCH_VIEW_LAST_TIME_LO => some .FCH_VIEW_LAST_TIME_HI
  | .FCH_SLOT_PHASE_LO => some .FCH_SLOT_PHASE_HI
  | .CORE_CNT_LO => some .CORE_CNT_HI
  | .DIE_CNT_LO => some .DIE_CNT_HI
  | .STK_CNT_LO => some .STK_CNT_HI
  | .RNG_CNT_LO => some .RNG_CNT_HI
  | .FLP_CNT_LO => some .FLP_CNT_HI
  | _ => none

/-- The low register whose held value takes effect when this high register is written (R379). -/
def RegName.rwLow : RegName → Option RegName
  | .STO_KS_ADDR_HI => some .STO_KS_ADDR_LO
  | .CORE_SPAN_BASE_HI => some .CORE_SPAN_BASE_LO
  | .CLU_DIST_RING_HI => some .CLU_DIST_RING_LO
  | .GRT_PT_BASE_HI => some .GRT_PT_BASE_LO
  | .MOD_XLT_CTX_HI => some .MOD_XLT_CTX_LO
  | .MOD_XLT_S2_HI => some .MOD_XLT_S2_LO
  | .MOD_XLT_PIN_HI => some .MOD_XLT_PIN_LO
  | .MOD_XLT_FR_HI => some .MOD_XLT_FR_LO
  | .TRIG_HI => some .TRIG_LO
  | .RMT_BASE_HI => some .RMT_BASE_LO
  | .MOD_DAMP_TIME_HI => some .MOD_DAMP_TIME_LO
  | .MOD_DAMP_RES_HI => some .MOD_DAMP_RES_LO
  | .MOD_DAMP_BUF_HI => some .MOD_DAMP_BUF_LO
  | .MOD_OBS_EXP_HI => some .MOD_OBS_EXP_LO
  | .MOD_TRC_BASE_HI => some .MOD_TRC_BASE_LO
  | _ => none

/-- Register names, part 0. -/
def RegName.names0 : List RegName :=
  [.STO_KS_ADDR_LO, .STO_KS_ADDR_HI, .STO_KS_LEN, .STO_KS_CTRL, .STO_KS_STATUS, .STO_KS_SEQ, .CORE_CC_CFG, .CORE_ADM_STATUS, .CORE_ADM_ADDR_LO, .CORE_ADM_ADDR_HI, .CORE_SPAN_BASE_LO, .CORE_SPAN_BASE_HI, .CORE_SPAN_COUNT, .CORE_VE_CFG, .CORE_VE_STATUS, .CORE_VE_FAULT, .CORE_VE_FAULT_ADDR_LO, .CORE_VE_FAULT_ADDR_HI, .CORE_VE_KILL, .CLU_DIST_CFG, .CLU_DIST_RING_LO, .CLU_DIST_RING_HI, .CORE_FP_FLAGS, .CORE_MU_CUBES, .CORE_MU_STATUS, .CORE_MU_BUBBLE_LO, .CORE_MU_BUBBLE_HI, .GRT_ENGINES, .GRT_STATUS, .GRT_ITEMS_LO, .GRT_ITEMS_HI, .GRT_PT_BASE_LO, .GRT_PT_BASE_HI, .GRT_PT_COUNT, .GRT_PT_CFG, .STK_TEMP, .STK_TEMP_MAX, .STK_SPLIT, .STK_REPAIR, .STK_CE_COUNT, .MOD_GOLD_CTRL, .MOD_GOLD_STATUS, .MOD_XLT_CTX_LO, .MOD_XLT_CTX_HI, .MOD_XLT_S2_LO, .MOD_XLT_S2_HI]

/-- Register names, part 1. -/
def RegName.names1 : List RegName :=
  [.MOD_XLT_PIN_LO, .MOD_XLT_PIN_HI, .MOD_XLT_SWAP, .MOD_XLT_INV, .MOD_XLT_FR_LO, .MOD_XLT_FR_HI, .MOD_XLT_FR_CTRL, .MOD_XLT_FR_HEAD, .MOD_XLT_RESOLVE, .FCH_VIEW_WHERE, .FCH_VIEW_SEL, .FCH_VIEW_STATE, .FCH_VIEW_VALUE_LO, .FCH_VIEW_VALUE_HI, .FCH_VIEW_LAST_SRC, .FCH_VIEW_LAST_TIME_LO, .FCH_VIEW_LAST_TIME_HI, .FCH_VIEW_WAITER, .FCH_SLOT_CFG, .FCH_SLOT_COMP, .FCH_SLOT_PARENT, .FCH_SLOT_INDEX, .FCH_SLOT_MASK, .FCH_SLOT_PHASE_LO, .FCH_SLOT_PHASE_HI, .FCH_SLOT_STATUS, .FCH_GROUP, .FCH_SYSDIR, .DB_CFG, .DB_RING_LO, .DB_RING_HI, .TRIG_CFG, .TRIG_LO, .TRIG_HI, .FLP_STATUS, .FLP_ERRS, .RMT_BASE_LO, .RMT_BASE_HI, .RMT_LEN, .RMT_SRC, .CORE_SQ_CFG, .CORE_SQ_RING, .CORE_SQ_RESV, .CLU_SPARE, .CLU_RS_STATUS, .CLU_TEST]

/-- Register names, part 2. -/
def RegName.names2 : List RegName :=
  [.RGN_LAG_CFG, .RGN_LAG_STATUS, .MOD_LOSS_CFG, .STO_ALOG_STATUS, .STO_ALOG_POP, .STO_ALOG_REC, .CLU_CORE_MAP, .RGN_PERF_REQ, .RGN_DVFS_STATUS, .RGN_POWER, .MOD_PWR_STATE, .MOD_PWR_EVENT, .MOD_MODE_NEXT, .MOD_MODE_CTRL, .MOD_MODE_EPOCH, .MOD_MODE_STATUS, .MOD_MODE_CUR, .MOD_ID, .MOD_DAMP_CTRL, .MOD_DAMP_TIME_LO, .MOD_DAMP_RES_LO, .MOD_DAMP_TIME_HI, .MOD_DAMP_RES_HI, .MOD_DAMP_BUF_LO, .MOD_DAMP_BUF_HI, .MOD_DAMP_STATUS, .MOD_OBS_CFG, .MOD_OBS_EXP_LO, .MOD_OBS_EXP_HI, .MOD_OBS_STATUS, .MOD_TRC_BASE_LO, .MOD_TRC_BASE_HI, .MOD_TRC_CTRL, .MOD_TRC_HEAD, .MOD_TRC_DROPS, .STO_BOOT_STATUS, .CORE_CNT_LO, .CORE_CNT_HI, .DIE_CNT_LO, .DIE_CNT_HI, .STK_CNT_LO, .STK_CNT_HI, .RNG_CNT_LO, .RNG_CNT_HI, .FLP_CNT_LO, .FLP_CNT_HI]

/-- Every register name. -/
def RegName.all : List RegName := RegName.names0 ++ RegName.names1 ++ RegName.names2


/-- The mask of a field's bits. -/
def Field.mask (f : Field) : W32 :=
  BitVec.ofNat 32 ((2 ^ (f.hi + 1 - f.lo) - 1) <<< f.lo)

/-- The mask of every bit of a register whose field has access type `a`. -/
def RegName.maskOf (n : RegName) (a : Access) : W32 :=
  n.fields.foldl (fun m f => if f.acc = a then m ||| f.mask else m) 0

/-- The mask of every bit that lies in a field: the others are reserved, read 0 and ignore writes (R8). -/
def RegName.known (n : RegName) : W32 := n.fields.foldl (fun m f => m ||| f.mask) 0

/-- A register's reset value. -/
def RegName.resetWord (n : RegName) : W32 :=
  n.fields.foldl (fun m f => m ||| BitVec.ofNat 32 (f.reset <<< f.lo)) 0

/-- The key of a register in the register file. -/
def RegRef.key (r : RegRef) : Nat :=
  r.name.ctorIdx * 2 ^ 24 + r.i * 2 ^ 12 + r.j

/-- The register exists: its indices lie in the counts of its name. -/
def RegRef.exists? (r : RegRef) : Bool :=
  decide (r.i < r.name.place.ni) && decide (r.j < r.name.place.nj)

/-- A register's offset in the CSR space. -/
def RegRef.offset (r : RegRef) : Option Nat :=
  r.name.place.base.map fun b => b + r.i * r.name.place.si + r.j * r.name.place.sj

/-- The indices (i, j) at which a register of name `n` lies at offset `o`, if one does. -/
def RegName.locate (n : RegName) (o : Nat) : Option RegRef :=
  match n.place.base with
  | none => none
  | some b =>
    if o < b then none
    else
      let d := o - b
      let i := if n.place.si = 0 then 0 else d / n.place.si
      let e := d - i * n.place.si
      let j := if n.place.sj = 0 then 0 else e / n.place.sj
      let r : RegRef := { name := n, i := i, j := j }
      if r.exists? && decide (r.offset = some o) then some r else none

/-- The register at an offset of the CSR space (R376). RGN_DVFS_STATUS and RGN_POWER share two offsets with
RGN_PERF_REQ 4 and 5 (Tables 14.9 to 14.11); the two status registers are found there (log entry 10). -/
def regAt (o : Nat) : Option RegRef :=
  match (RegName.all.filter (fun n => !(decide (n = .RGN_PERF_REQ)))).findSome? (fun n => n.locate o) with
  | some r => some r
  | none => RegName.locate .RGN_PERF_REQ o

/-- The register word after a write `v` to a word `old`, by the access types of its fields (R9, R8). -/
def RegName.written (n : RegName) (old v : W32) : W32 :=
  let rw := n.maskOf .rw
  let base := (old &&& ~~~rw) ||| (v &&& rw)
  (base &&& ~~~(v &&& n.maskOf .w1c)) ||| (v &&& n.maskOf .w1s)

/-- The register word after an alias write that gives its RW bits the value `x` (R378): other fields ignore it. -/
def RegName.aliased (n : RegName) (old x : W32) : W32 :=
  let rw := n.maskOf .rw
  (old &&& ~~~rw) ||| (x &&& rw)

/-- The register word after a read with side effects: RC fields clear (R9). -/
def RegName.afterRead (n : RegName) (old : W32) : W32 :=
  old &&& ~~~(n.maskOf .rc)

/-- Values that a register's description says are ignored: the field then keeps its previous value. Each entry is
(hi, lo, allowed). -/
def RegName.allowed (n : RegName) : List (Nat × Nat × (Nat → Bool)) :=
  match n with
  | .CORE_VE_CFG => [(7, 4, fun v => decide (2 ≤ v ∧ v ≤ 8))]
  | .STK_SPLIT => [(4, 0, fun v => decide (4 ≤ v ∧ v ≤ 12))]
  | .CLU_TEST => [(15, 0, fun v => decide (v ≠ 0))]
  | .RGN_LAG_CFG => [(15, 8, fun v => decide (1 ≤ v)), (7, 0, fun v => decide (1 ≤ v ∧ v ≤ 50))]
  | .MOD_XLT_FR_CTRL => [(21, 17, fun v => decide (4 ≤ v ∧ v ≤ 16))]
  | .MOD_OBS_CFG => [(20, 16, fun v => decide (v ≤ 20))]
  | .MOD_TRC_CTRL => [(29, 25, fun v => decide (6 ≤ v ∧ v ≤ 24))]
  | .CORE_SQ_RESV => [(6, 0, fun v => decide (v ≤ 64))]
  | .CORE_SQ_CFG => [(19, 16, fun v => decide (4 ≤ v ∧ v ≤ 11))]
  | .FCH_SLOT_COMP => [(23, 0, fun v => decide (v = 0 ∨ 2 ≤ v >>> 22))]
  | .DB_CFG => [(25, 24, fun v => decide (v ≤ 1))]
  | _ => []

/-- `new` with every field whose new value is not allowed taken back to its value in `old`. -/
def RegName.keepAllowed (n : RegName) (old new : W32) : W32 :=
  n.allowed.foldl (fun w (hi, lo, ok) =>
    if ok (bitsOf w hi lo) then w
    else
      let m : W32 := BitVec.ofNat 32 ((2 ^ (hi + 1 - lo) - 1) <<< lo)
      (w &&& ~~~m) ||| (old &&& m)) new

end Sys2Proof
end

