-- ==== Sys2Proof/Machine/Ops.lean ====
section
/-!
DEFINITION. The named operations over the state that every family of commands shares: units, registers, bytes of
memory, free values, messages that leave, and the record of an error in the ash log.
-/

namespace Sys2Proof.Machine

open Sys2Proof

/-- What a command answers. -/
abbrev Res := Host.Outcome State Fault Refusal

/-! ### Units -/

def State.core (s : State) (l : Nat) : Core := SMap.get {} s.cores l
def State.setCore (s : State) (l : Nat) (c : Core) : State := { s with cores := SMap.set {} s.cores l c }
def State.modCore (s : State) (l : Nat) (f : Core → Core) : State := s.setCore l (f (s.core l))
def State.cluster (s : State) (c : Nat) : Cluster := SMap.get {} s.clusters c
def State.setCluster (s : State) (c : Nat) (x : Cluster) : State :=
  { s with clusters := SMap.set {} s.clusters c x }
def State.modCluster (s : State) (c : Nat) (f : Cluster → Cluster) : State := s.setCluster c (f (s.cluster c))
def State.region (s : State) (r : Nat) : Region := SMap.get {} s.regions r
def State.setRegion (s : State) (r : Nat) (x : Region) : State :=
  { s with regions := SMap.set {} s.regions r x }
def State.modRegion (s : State) (r : Nat) (f : Region → Region) : State := s.setRegion r (f (s.region r))
def State.stack (s : State) (k : Nat) : Stack := SMap.get {} s.stks k
def State.setStack (s : State) (k : Nat) (x : Stack) : State := { s with stks := SMap.set {} s.stks k x }
def State.modStack (s : State) (k : Nat) (f : Stack → Stack) : State := s.setStack k (f (s.stack k))
def State.port (s : State) (p : Nat) : Port := SMap.get {} s.ports p
def State.setPort (s : State) (p : Nat) (x : Port) : State := { s with ports := SMap.set {} s.ports p x }
def State.modPort (s : State) (p : Nat) (f : Port → Port) : State := s.setPort p (f (s.port p))
def State.part (s : State) (p : Nat) : Part := SMap.get {} s.parts p
def State.setPart (s : State) (p : Nat) (x : Part) : State := { s with parts := SMap.set {} s.parts p x }
def State.modPart (s : State) (p : Nat) (f : Part → Part) : State := s.setPart p (f (s.part p))
def State.counter (s : State) (k : Nat) : Counter := SMap.get {} s.counters k
def State.setCounter (s : State) (k : Nat) (x : Counter) : State :=
  { s with counters := SMap.set {} s.counters k x }
def State.stream (s : State) (k : Nat) : SStream := SMap.get {} s.streams k
def State.setStream (s : State) (k : Nat) (x : SStream) : State :=
  { s with streams := SMap.set {} s.streams k x }
def State.barrier (s : State) (k : Nat) : Barrier := SMap.get {} s.barriers k
def State.setBarrier (s : State) (k : Nat) (x : Barrier) : State :=
  { s with barriers := SMap.set {} s.barriers k x }

/-- A queue of a core. -/
def Core.queue (c : Core) (q : Nat) : Queue := SMap.get {} c.queues q
def Core.setQueue (c : Core) (q : Nat) (x : Queue) : Core := { c with queues := SMap.set {} c.queues q x }
def State.queue (s : State) (l q : Nat) : Queue := (s.core l).queue q
def State.modQueue (s : State) (l q : Nat) (f : Queue → Queue) : State :=
  s.modCore l fun c => c.setQueue q (f (c.queue q))

/-- The entry of a queue with an accepted count. -/
def Queue.find (q : Queue) (acc : Nat) : Option QEntry := q.entries.find? fun e => e.acc == acc
/-- The queue with `f` applied to the entry of that accepted count. -/
def Queue.update (q : Queue) (acc : Nat) (f : QEntry → QEntry) : Queue :=
  { q with entries := q.entries.map fun e => if e.acc == acc then f e else e }
def State.entry (s : State) (l q acc : Nat) : Option QEntry := (s.queue l q).find acc
/-- The instruction is paused on a fault (R265): one that began again is not, until it comes back to the access (R268). -/
def QEntry.paused (e : QEntry) : Bool := e.fault.any fun f => !f.again
def State.modEntry (s : State) (l q acc : Nat) (f : QEntry → QEntry) : State :=
  s.modQueue l q fun x => x.update acc f

def State.modCC (s : State) (l : Nat) (f : CC → CC) : State := s.modCore l fun c => { c with cc := f c.cc }
def State.modVE (s : State) (l : Nat) (f : VE → VE) : State := s.modCore l fun c => { c with ve := f c.ve }
def State.modMU (s : State) (l : Nat) (f : MU → MU) : State := s.modCore l fun c => { c with mu := f c.mu }

/-! ### Registers -/

/-- The word of a register in the register file. -/
def State.reg (s : State) (n : RegName) (i : Nat := 0) (j : Nat := 0) : W32 :=
  SMap.get n.resetWord s.regs ({ name := n, i := i, j := j } : RegRef).key

/-- The register file with a register's word replaced. -/
def State.setReg (s : State) (n : RegName) (i j : Nat) (w : W32) : State :=
  { s with regs := SMap.set n.resetWord s.regs ({ name := n, i := i, j := j } : RegRef).key w }

/-- `w` with bits [hi:lo] replaced by `v`. -/
def putBits (w : W32) (hi lo v : Nat) : W32 :=
  let m : W32 := BitVec.ofNat 32 ((2 ^ (hi + 1 - lo) - 1) <<< lo)
  (w &&& ~~~m) ||| (BitVec.ofNat 32 (v <<< lo) &&& m)

def State.field (s : State) (n : RegName) (i j hi lo : Nat) : Nat := bitsOf (s.reg n i j) hi lo
def State.setField (s : State) (n : RegName) (i j hi lo v : Nat) : State :=
  s.setReg n i j (putBits (s.reg n i j) hi lo v)

/-- A field raised by `d`, holding at its largest value. -/
def State.bumpField (s : State) (n : RegName) (i j hi lo d : Nat) : State :=
  s.setField n i j hi lo (min (s.field n i j hi lo + d) (2 ^ (hi + 1 - lo) - 1))

/-- The value in effect of a LO and HI pair (R379). -/
def State.pair (s : State) (lo hi : RegName) (i j : Nat := 0) : Nat :=
  (SMap.get 0 s.effLo ({ name := lo, i := i, j := j } : RegRef).key).toNat + (s.reg hi i j).toNat * 2 ^ 32

/-- Both words of a pair written at once, and in effect; reserved bits stay 0 (R8). -/
def State.setPair (s : State) (lo hi : RegName) (i j v : Nat) : State :=
  let w : W32 := BitVec.ofNat 32 v &&& lo.known
  let s := (s.setReg lo i j w).setReg hi i j (BitVec.ofNat 32 (v >>> 32) &&& hi.known)
  { s with effLo := SMap.set 0 s.effLo ({ name := lo, i := i, j := j } : RegRef).key w }

/-- A 48-bit counter of Table 15.12, or of Tables 7.11 and 8.10, by its LO register (R398). -/
def State.count (s : State) (lo : RegName) (i j : Nat) : Nat :=
  SMap.get 0 s.counts ({ name := lo, i := i, j := j } : RegRef).key
/-- A counter advanced, wrapping at 2^48 (R398). -/
def State.addCount (s : State) (lo : RegName) (i j n : Nat) : State :=
  { s with counts :=
      SMap.set 0 s.counts ({ name := lo, i := i, j := j } : RegRef).key ((s.count lo i j + n) % 2 ^ 48) }

/-! ### Bytes -/

/-- The low `n` bytes of a number, lowest first: every multi-byte field is little-endian. -/
def leBytes : Nat → Nat → List Byte
  | 0, _ => []
  | n + 1, v => BitVec.ofNat 8 v :: leBytes n (v / 256)

/-- The number that bytes spell, lowest first. -/
def ofLe : List Byte → Nat
  | [] => 0
  | b :: t => b.toNat + 256 * ofLe t

/-- Bytes lo to hi of a list, as a number. -/
def fieldLe (bs : List Byte) (lo n : Nat) : Nat := ofLe ((bs.drop lo).take n)

/-- What an unlisted byte of memory reads as (log entry 5). -/
def blankByte : Byte := 0

/-- The 64-byte granule of an address. -/
def granuleOf (a : Nat) : Nat := a / 64

/-- A byte of memory by local physical address: a granule lost without copy reads as all-ones (R351). -/
def State.byte (s : State) (a : Nat) : Byte :=
  if s.lost.contains (granuleOf a) then 0xFF else SMap.get blankByte s.mem a

def State.bytes (s : State) (a n : Nat) : List Byte := (List.range n).map fun k => s.byte (a + k)
/-- A little-endian field of `n` bytes in memory. -/
def State.load (s : State) (a n : Nat) : Nat := ofLe (s.bytes a n)

/-- One byte of storage replaced. -/
def State.poke (s : State) (a : Nat) (b : Byte) : State := { s with mem := SMap.set blankByte s.mem a b }

/-- Bytes of storage replaced from `a` on. -/
def State.pokes (s : State) : Nat → List Byte → State
  | _, [] => s
  | a, b :: bs => (s.poke a b).pokes (a + 1) bs

/-- The numbers from `a` to `b`, both included. -/
def span (a b : Nat) : List Nat := (List.range (b + 1 - a)).map (a + ·)

/-- A granule lost without copy holds all-ones once a write touches it (R351). -/
def State.heal (s : State) (a n : Nat) : State :=
  if n = 0 then s
  else
    (span (granuleOf a) (granuleOf (a + n - 1))).foldl (fun s g =>
      if s.lost.contains g then
        { s.pokes (g * 64) (List.replicate 64 0xFF) with lost := s.lost.filter (· != g) }
      else s) s

/-- Bytes stored: a lost granule that the write touches is no longer lost (R351). -/
def State.store (s : State) (a : Nat) (bs : List Byte) : State := (s.heal a bs.length).pokes a bs

/-- The canonical form of memory (log entry 5). -/
def Memory.wf (m : SMap Byte) : Bool := SMap.wf blankByte m

/-! ### Free values and messages -/

/-- A free value: nothing constrains it (log entry 2). -/
def State.freeWord (s : State) : W64 := Config.freeValue s.freeCtr
def State.nextFree (s : State) : State := { s with freeCtr := s.freeCtr + 1 }
/-- A free value below `n`. -/
def State.freeBelow (s : State) (n : Nat) : Nat := Config.freeNat s.freeCtr % n

/-- A message that leaves the module (log entry 3). -/
def State.emit (s : State) (o : Out) : State := { s with out := o :: s.out }

/-- The copy of the global timebase at a die (R357); the Stoker and the ash log read die 0's. -/
def State.gtb (s : State) (die : Nat := 0) : W64 := SMap.get 0 s.time.gtb die

/-- `f` folded over a list that indexes state. -/
def State.forAll {α : Type} (s : State) (l : List α) (f : State → α → State) : State := l.foldl f s

/-! ### Source numbers -/

/-- The module's own ID (Table 15.13). -/
def State.moduleId (s : State) : Nat := s.field .MOD_ID 0 0 17 0

/-- A source number from its fields (Table 1.6). -/
def sourceNo (module die region cluster slot engine : Nat) : W32 :=
  BitVec.ofNat 32 (module <<< 14 + die <<< 12 + region <<< 10 + cluster <<< 7 + slot <<< 3 + engine)

/-- The physical slot of a logical core, 15 for a lost one (Table 13.17). -/
def State.slotOf (s : State) (l : Nat) : Nat := s.field .CLU_CORE_MAP (l / 8) 0 (4 * (l % 8) + 3) (4 * (l % 8))

/-- The slot that a logical core's source numbers bear (R22): a lost core keeps the slot that it ran in last (R21). -/
def State.srcSlot (s : State) (l : Nat) : Nat := if s.slotOf l = 15 then (s.core l).oldSlot else s.slotOf l

/-- The physical core index of a logical core (R18, R19); a number of no physical core for a lost one. -/
def State.physOf (s : State) (l : Nat) : Nat := if s.slotOf l = 15 then 864 + l else (l / 8) * 9 + s.slotOf l

/-- The core has no slot to run in: it migrates, or it is lost (R342, R344). -/
def State.unplaced (s : State) (l : Nat) : Bool :=
  (s.core l).lost || s.slotOf l == 15 || (s.cluster (l / 8)).migrating.any fun m => m.1 == l

/-- Power states and events of Table 14.5, as far as the model names them. -/
def pwOff : Nat := 0
def pwOn : Nat := 2
def pwParking : Nat := 3
def pwParked : Nat := 4
def peDemand : Nat := 1
def peParkReq : Nat := 3
def peOffReq : Nat := 4
def peOvertemp : Nat := 8

/-- The state of a power domain (R363). -/
def State.domainState (s : State) (d : Nat) : Nat := s.field .MOD_PWR_STATE d 0 7 0

/-- A region's clocks run: it is ON, or drains on its way to PARKED (Table 14.5). -/
def State.regionRuns (s : State) (r : Nat) : Bool := s.domainState r == pwOn || s.domainState r == pwParking

/-- The core runs nothing: it has no slot (R342, R344), or its region's clocks are off (R366). Window accesses to it stall (R230,
R366). -/
def State.fenced (s : State) (l : Nat) : Bool := s.unplaced l || !s.regionRuns (l / 48)

/-- A loss without copy has stopped the engines of a core's partition (R351). -/
def State.lossHalted (s : State) (l : Nat) : Bool :=
  (List.range 16).any fun p =>
    (match SMap.get none s.cfg.parts p with
    | none => false
    | some x => x.clusters.getLsbD (l / 8)) && (s.reg .MOD_LOSS_CFG p).getLsbD 31

/-- The logical core on a physical core, if one is (R19). -/
def State.logicalOf (s : State) (k : Nat) : Option Nat :=
  ((List.range 8).map (fun i => 8 * (k / 9) + i)).find? fun l => s.slotOf l == k % 9

/-- The source number of an engine of a logical core, by the slot it runs in (R22). -/
def State.srcCore (s : State) (l engine : Nat) : W32 :=
  let c := l / 8
  sourceNo s.moduleId (c / 24) (c / 6 % 4) (c % 6) (s.srcSlot l) engine

def State.srcStoker (s : State) : W32 := sourceNo s.moduleId 0 0 7 15 6
def State.srcChimney (s : State) (d : Nat) : W32 := sourceNo s.moduleId d 0 7 15 7
def State.srcSched (s : State) (k : Nat) : W32 := sourceNo s.moduleId (k / 3) (k % 3) 7 15 4
def State.srcGrate (s : State) (k g : Nat) : W32 := sourceNo s.moduleId (k / 3) (k % 3) 6 g 4
def State.srcPort (s : State) (p : Nat) : W32 := sourceNo s.moduleId (p / 9) 0 7 (p % 9) 5

/-- Engine numbers of a source number (Table 1.6) by queue selector: VE, MU, DE. -/
def engineOfSel (q : Nat) : Nat := q + 1

/-! ### Partitions -/

def State.partCfg (s : State) (p : Nat) : Option PartCfg := SMap.get none s.cfg.parts p

/-- The partition that owns a cluster (R11). -/
def State.partOfCluster (s : State) (c : Nat) : Option Nat :=
  (List.range 16).find? fun p => (s.partCfg p).any fun x => x.clusters.getLsbD c

/-- The partition of a logical core. -/
def State.partOf (s : State) (l : Nat) : Option Nat := s.partOfCluster (l / 8)

/-- The clusters, and the logical cores, of a partition. -/
def State.clustersOf (s : State) (p : Nat) : List Nat :=
  match s.partCfg p with
  | none => []
  | some x => (List.range 96).filter fun c => x.clusters.getLsbD c
def State.coresOf (s : State) (p : Nat) : List Nat :=
  (s.clustersOf p).flatMap fun c => (List.range 8).map (8 * c + ·)

/-- A partition has cores in a region. -/
def State.inRegion (s : State) (p r : Nat) : Bool := (s.clustersOf p).any fun c => c / 6 == r

/-! ### The host link (R312, R318) -/

/-- A port is usable for routing while it is ACTIVE (R295). -/
def State.portActive (s : State) (p : Nat) : Bool := s.field .FLP_STATUS p 0 31 28 == 5

/-- The port carries the host link: its role is 1 (R36, Table 12.18). -/
def State.hostRole (s : State) (p : Nat) : Bool := s.field .FLP_STATUS p 0 22 21 == 1

/-- The port that carries the host's traffic: 34 while it is ACTIVE, else 35; a single host-link port carries it alone (R318). -/
def State.hostPort (s : State) : Option Nat := [34, 35].find? fun p => s.hostRole p && s.portActive p

/-- A message to the host: sent on the port that carries the endpoint and kept until it is acknowledged, or kept until a port is
ACTIVE (R318, log entry 78). -/
def State.toHost (s : State) (m : HostMsg) : State :=
  let h := s.hostLink
  match s.hostPort with
  | none => { s with hostLink := { h with waiting := h.waiting ++ [m] } }
  | some p => { s with hostLink := { h with seq := h.seq + 1, replay := h.replay ++ [(h.seq, m)] } }.emit (.host p h.seq m)

/-- The messages up to number `ack` have reached the host. -/
def State.hostAcked (s : State) (ack : BitVec 12) : State :=
  { s with hostLink := { s.hostLink with
      replay := s.hostLink.replay.dropWhile fun e => decide ((ack - e.1).toNat < 2048) } }

/-- The data-link layer sends again what is not acknowledged, on the port that carries the endpoint. -/
def State.hostReplay (s : State) : State :=
  match s.hostPort with
  | none => s
  | some p => s.hostLink.replay.foldl (fun s e => s.emit (.host p e.1 e.2)) s

/-- The data-link layer goes on after a change of port: it replays from its own buffer, then sends what waited, so that nothing
is lost (R318). -/
def State.hostResume (s : State) : State :=
  if s.hostPort.isNone then s
  else
    let w := s.hostLink.waiting
    let s := s.hostReplay
    w.foldl (fun s m => s.toHost m) { s with hostLink := { s.hostLink with waiting := [] } }

/-! ### MSI-X and the ash log -/

/-- The key of a word of a function's MSI-X table: four words for each vector, the last the vector control. -/
def msixKey (fn vec word : Nat) : Nat := (fn * 128 + vec) * 4 + word

/-- The mask bit of a vector is set. -/
def State.msixMasked (s : State) (fn vec : Nat) : Bool := (SMap.get 0 s.msixTable (msixKey fn vec 3)).getLsbD 0

/-- An MSI-X message of a host function: 0 is PF0, p + 1 the virtual function of partition p (Table 12.13). A masked vector
keeps it as a pending bit (Table 12.11). -/
def State.msix (s : State) (fn vec : Nat) : State :=
  if s.msixMasked fn vec then
    if s.msixPend.contains (fn, vec) then s else { s with msixPend := s.msixPend ++ [(fn, vec)] }
  else s.toHost (.msix fn vec)

/-- The virtual function of a partition sends a vector, when the partition has one enabled (Table 2.6). -/
def State.msixVf (s : State) (p vec : Nat) : State :=
  if (s.partCfg p).any (·.vf) then s.msix (p + 1) vec else s

/-- The largest number of records in the Stoker's memory, and of those kept in flash (R352). -/
def ashDepth : Nat := 65536
def ashFlashDepth : Nat := 4096

/-- A record enters the ash log (R352): the oldest is overwritten when 65,536 are held, and severities 2 and 3
also go to flash. PF0's vector for a new record is sent (Table 12.13). -/
def State.ash (s : State) (r : AshRec) : State :=
  let s :=
    if s.sto.ash.length < ashDepth then s
    else (s.bumpField .STO_ALOG_STATUS 0 0 31 17 1).setField .STO_ALOG_STATUS 0 0 16 0 (s.field .STO_ALOG_STATUS 0 0 16 0 - 1)
  let log := (if s.sto.ash.length < ashDepth then s.sto.ash else s.sto.ash.drop 1) ++ [r]
  let flash :=
    if r.severity < 2 then s.sto.ashFlash
    else
      let f := s.sto.ashFlash ++ [r]
      f.drop (f.length - ashFlashDepth)
  ({ s with sto := { s.sto with ash := log, ashFlash := flash } }).msix 0 1

/-- A record of a kind from a source at the present time, with the rest given. -/
def State.ashNow (s : State) (src : W32) (kind severity : Nat) (part : Nat := 0xFF) (unit : Nat := 0)
    (lcore : Nat := 0xFFFF) (span : W32 := 0) (start : Nat := 0) (length : Nat := 0) (detail : Nat := 0) : State :=
  s.ash { time := s.gtb, src := src, kind := BitVec.ofNat 16 kind, severity := severity, part := part,
          unit := unit, lcore := lcore, span := span, start := BitVec.ofNat 64 start,
          length := BitVec.ofNat 64 length, detail := BitVec.ofNat 192 detail }

/-- A service event (R353): its ash-log record, PF0 vector 2 and vector 3 of the partition's function. -/
def State.serviceEvent (s : State) (part unit lcore : Nat) (span : W32 := 0) (start length detail : Nat := 0) :
    State :=
  let s := s.ashNow s.srcStoker 0x20 3 part unit lcore span start length detail
  let s := s.msix 0 2
  if part < 16 then s.msixVf part 3 else s

end Sys2Proof.Machine
end

