-- ==== Sys2Proof/Machine/Crypto.lean ====
section
/-!
DEFINITION. The published algorithms that R29 and R33 name: CRC-32C, SHA-384, and ECDSA over P-384. Their constants are those
of the standards, which the manual does not repeat (log entry 33).
-/

namespace Sys2Proof.Machine

open Sys2Proof

/-! ### CRC-32C -/

/-- One bit of the reflected Castagnoli polynomial 0x1EDC_6F41. -/
def crcBit (c : W32) : W32 := if c.getLsbD 0 then (c >>> 1) ^^^ 0x82F63B78 else c >>> 1
def crcByte (c : W32) (b : Byte) : W32 := (List.range 8).foldl (fun c _ => crcBit c) (c ^^^ b.setWidth 32)
/-- CRC-32C of bytes (R29). -/
def crc32c (bs : List Byte) : W32 := ~~~(bs.foldl crcByte 0xFFFFFFFF)

/-! ### SHA-384 -/

/-- Bytes as a number, the first the most significant. -/
def ofBe (bs : List Byte) : Nat := bs.foldl (fun n b => n * 256 + b.toNat) 0
def beBytes (n v : Nat) : List Byte := (leBytes n v).reverse

def shaK0 : List W64 :=
  [0x428A2F98D728AE22, 0x7137449123EF65CD, 0xB5C0FBCFEC4D3B2F, 0xE9B5DBA58189DBBC,
   0x3956C25BF348B538, 0x59F111F1B605D019, 0x923F82A4AF194F9B, 0xAB1C5ED5DA6D8118,
   0xD807AA98A3030242, 0x12835B0145706FBE, 0x243185BE4EE4B28C, 0x550C7DC3D5FFB4E2,
   0x72BE5D74F27B896F, 0x80DEB1FE3B1696B1, 0x9BDC06A725C71235, 0xC19BF174CF692694,
   0xE49B69C19EF14AD2, 0xEFBE4786384F25E3, 0x0FC19DC68B8CD5B5, 0x240CA1CC77AC9C65]
def shaK1 : List W64 :=
  [0x2DE92C6F592B0275, 0x4A7484AA6EA6E483, 0x5CB0A9DCBD41FBD4, 0x76F988DA831153B5,
   0x983E5152EE66DFAB, 0xA831C66D2DB43210, 0xB00327C898FB213F, 0xBF597FC7BEEF0EE4,
   0xC6E00BF33DA88FC2, 0xD5A79147930AA725, 0x06CA6351E003826F, 0x142929670A0E6E70,
   0x27B70A8546D22FFC, 0x2E1B21385C26C926, 0x4D2C6DFC5AC42AED, 0x53380D139D95B3DF,
   0x650A73548BAF63DE, 0x766A0ABB3C77B2A8, 0x81C2C92E47EDAEE6, 0x92722C851482353B]
def shaK2 : List W64 :=
  [0xA2BFE8A14CF10364, 0xA81A664BBC423001, 0xC24B8B70D0F89791, 0xC76C51A30654BE30,
   0xD192E819D6EF5218, 0xD69906245565A910, 0xF40E35855771202A, 0x106AA07032BBD1B8,
   0x19A4C116B8D2D0C8, 0x1E376C085141AB53, 0x2748774CDF8EEB99, 0x34B0BCB5E19B48A8,
   0x391C0CB3C5C95A63, 0x4ED8AA4AE3418ACB, 0x5B9CCA4F7763E373, 0x682E6FF3D6B2B8A3,
   0x748F82EE5DEFB2FC, 0x78A5636F43172F60, 0x84C87814A1F0AB72, 0x8CC702081A6439EC]
def shaK3 : List W64 :=
  [0x90BEFFFA23631E28, 0xA4506CEBDE82BDE9, 0xBEF9A3F7B2C67915, 0xC67178F2E372532B,
   0xCA273ECEEA26619C, 0xD186B8C721C0C207, 0xEADA7DD6CDE0EB1E, 0xF57D4F7FEE6ED178,
   0x06F067AA72176FBA, 0x0A637DC5A2C898A6, 0x113F9804BEF90DAE, 0x1B710B35131C471B,
   0x28DB77F523047D84, 0x32CAAB7B40C72493, 0x3C9EBE0A15C9BEBC, 0x431D67C49C100D4C,
   0x4CC5D4BECB3E42B6, 0x597F299CFC657E2A, 0x5FCB6FAB3AD6FAEC, 0x6C44198C4A475817]
/-- The eighty round constants. -/
def shaK : List W64 := shaK0 ++ shaK1 ++ shaK2 ++ shaK3

/-- The eight working variables. -/
structure Sha where
  a : W64
  b : W64
  c : W64
  d : W64
  e : W64
  f : W64
  g : W64
  h : W64
deriving DecidableEq, Repr

/-- The initial hash value of SHA-384. -/
def shaInit : Sha :=
  ⟨0xCBBB9D5DC1059ED8, 0x629A292A367CD507, 0x9159015A3070DD17, 0x152FECD8F70E5939,
   0x67332667FFC00B31, 0x8EB44A8768581511, 0xDB0C2E0D64F98FA7, 0x47B5481DBEFA4FA4⟩

def Sha.add (x y : Sha) : Sha := ⟨x.a + y.a, x.b + y.b, x.c + y.c, x.d + y.d, x.e + y.e, x.f + y.f, x.g + y.g, x.h + y.h⟩

/-- One round with its constant and schedule word. -/
def Sha.round (x : Sha) (k w : W64) : Sha :=
  let s1 := x.e.rotateRight 14 ^^^ x.e.rotateRight 18 ^^^ x.e.rotateRight 41
  let ch := (x.e &&& x.f) ^^^ (~~~x.e &&& x.g)
  let t1 := x.h + s1 + ch + k + w
  let s0 := x.a.rotateRight 28 ^^^ x.a.rotateRight 34 ^^^ x.a.rotateRight 39
  let maj := (x.a &&& x.b) ^^^ (x.a &&& x.c) ^^^ (x.b &&& x.c)
  ⟨t1 + (s0 + maj), x.a, x.b, x.c, x.d + t1, x.e, x.f, x.g⟩

/-- The schedule: its sixteen words in hand, moved on by one. -/
def shaNext (ws : List W64) : List W64 :=
  let x := ws.getD 1 0
  let y := ws.getD 14 0
  let s0 := x.rotateRight 1 ^^^ x.rotateRight 8 ^^^ x >>> 7
  let s1 := y.rotateRight 19 ^^^ y.rotateRight 61 ^^^ y >>> 6
  ws.drop 1 ++ [s1 + ws.getD 9 0 + s0 + ws.getD 0 0]

/-- One block of 128 bytes. -/
def Sha.block (x : Sha) (bs : List Byte) : Sha :=
  let ws := (List.range 16).map fun i => BitVec.ofNat 64 (ofBe ((bs.drop (8 * i)).take 8))
  x.add (shaK.foldl (fun (r : Sha × List W64) k => (r.1.round k (r.2.getD 0 0), shaNext r.2)) (x, ws)).1

def shaBlocks : Nat → Sha → List Byte → Sha
  | 0, x, _ => x
  | n + 1, x, bs => shaBlocks n (x.block (bs.take 128)) (bs.drop 128)

/-- The SHA-384 digest of bytes, the first byte the most significant. -/
def sha384 (bs : List Byte) : BitVec 384 :=
  let n := bs.length
  let zeros := (239 - n % 128) % 128
  let m := bs ++ (0x80 : Byte) :: (List.replicate zeros 0 ++ beBytes 16 (8 * n))
  let x := shaBlocks (m.length / 128) shaInit m
  BitVec.ofNat 384 (((((x.a.toNat * 2 ^ 64 + x.b.toNat) * 2 ^ 64 + x.c.toNat) * 2 ^ 64 + x.d.toNat) * 2 ^ 64 + x.e.toNat) *
    2 ^ 64 + x.f.toNat)

/-! ### ECDSA over P-384 -/

def p384P : Nat := 2 ^ 384 - 2 ^ 128 - 2 ^ 96 + 2 ^ 32 - 1
def p384B : Nat := 0xB3312FA7E23EE7E4988E056BE3F82D19181D9C6EFE8141120314088F5013875AC656398D8A2ED19D2A85C8EDD3EC2AEF
def p384N : Nat := 0xFFFFFFFFFFFFFFFFFFFFFFFFFFFFFFFFFFFFFFFFFFFFFFFFC7634D81F4372DDF581A0DB248B0A77AECEC196ACCC52973
def p384Gx : Nat := 0xAA87CA22BE8B05378EB1C71EF320AD746E1D3B628BA79B9859F741E082542A385502F25DBF55296C3A545E3872760AB7
def p384Gy : Nat := 0x3617DE4A96262C6F5D9E98BF9292DC29F8F41DBD289A147CE9DA3113B5F0B8C00A60B1CE1D7E819D7A431D7C90EA0E5F

/-- A power modulo `m`, over the lowest `n` bits of the exponent, the highest first. -/
def powMod (m b e : Nat) : Nat → Nat
  | 0 => 1
  | n + 1 => go m b e n 1
where
  go (m b e : Nat) : Nat → Nat → Nat
    | 0, r => r * r % m * (if e.testBit 0 then b else 1) % m
    | n + 1, r => go m b e n (r * r % m * (if e.testBit (n + 1) then b else 1) % m)

/-- The inverse modulo a prime. -/
def invMod (m x : Nat) : Nat := powMod m (x % m) (m - 2) 384

/-- A difference modulo `p`. -/
def subP (x y : Nat) : Nat := (x + p384P - y % p384P) % p384P

/-- A point of the curve; none is the point at infinity. -/
abbrev CurvePoint := Option (Nat × Nat)

def onCurve (x y : Nat) : Bool :=
  decide (x < p384P) && decide (y < p384P) && decide (y * y % p384P = subP (x * x % p384P * x + p384B) (3 * x))

/-- The point with a slope through a point and the other's x. -/
def chord (x1 y1 x2 m : Nat) : CurvePoint :=
  let x3 := subP (subP (m * m % p384P) x1) x2
  some (x3, subP (m * subP x1 x3 % p384P) y1)

def curveAdd : CurvePoint → CurvePoint → CurvePoint
  | none, q => q
  | p, none => p
  | some (x1, y1), some (x2, y2) =>
    if x1 = x2 then
      if (y1 + y2) % p384P = 0 then none
      else chord x1 y1 x2 (subP (3 * x1 * x1) 3 * invMod p384P (2 * y1) % p384P)
    else chord x1 y1 x2 (subP y2 y1 * invMod p384P (subP x2 x1) % p384P)

/-- A multiple of a point, over the lowest `n` bits of the factor, the highest first. -/
def curveMul (k : Nat) (q : CurvePoint) : Nat → CurvePoint → CurvePoint
  | 0, r => r
  | n + 1, r =>
    let d := curveAdd r r
    curveMul k q n (if k.testBit n then curveAdd d q else d)

/-- The affine coordinates of a public key: x above y. -/
def keyPoint (key : BitVec 768) : Nat × Nat := (key.toNat / 2 ^ 384, key.toNat % 2 ^ 384)

/-- An ECDSA signature (r, s) over bytes verifies under a public key (R33). -/
def ecdsaVerify (key : BitVec 768) (msg : List Byte) (r s : Nat) : Bool :=
  let q := keyPoint key
  if r = 0 || s = 0 || decide (p384N ≤ r) || decide (p384N ≤ s) || !onCurve q.1 q.2 then false
  else
    let w := invMod p384N s
    let u1 := (sha384 msg).toNat * w % p384N
    let u2 := r * w % p384N
    match curveAdd (curveMul u1 (some (p384Gx, p384Gy)) 384 none) (curveMul u2 (some q) 384 none) with
    | none => false
    | some (x, _) => x % p384N == r

end Sys2Proof.Machine
end

