-- ==== Sys2Proof/Machine/Address.lean ====
section
/-!
DEFINITION. Addresses: the local physical address map (Table 9.1), where the interleave table places an address
(R39), the home of a line (R220), pools and golden copies, the pinned map and the direct apertures.
-/

namespace Sys2Proof.Machine

open Sys2Proof

/-! ### The address map -/

def nearEnd : Nat := 0xC000000000
def ringBase : Nat := 0x10000000000
def scratchBase : Nat := 0x30000000000
def scratchEnd : Nat := 0x30030000000
def windowBase : Nat := 0x31000000000
def windowEnd : Nat := 0x31030000000
def counterBase : Nat := 0x32000000000
def counterEnd : Nat := 0x33000000000
def csrBase : Nat := 0x3F000000000
def csrEnd : Nat := 0x3F100000000
/-- Bytes of one slice group (R40). -/
def groupBytes : Nat := 24 * 2 ^ 20

/-- The fitted variant (Table 15.13): 0 CL2-1792-LB0, 1 CL2-1280-LB0, 2 CL2-0768-LB0. -/
def State.variant (s : State) : Nat := s.field .MOD_ID 0 0 31 30

/-- Bytes of ring that the fitted variant has (R6). -/
def State.ringBytes (s : State) : Nat :=
  match s.variant with
  | 0 => 2 ^ 40
  | 1 => 2 ^ 39
  | _ => 0

/-- The range lies wholly in one memory row of Table 9.1 in the fitted variant. -/
def State.inRow (s : State) (a n : Nat) : Bool :=
  decide (a + n ≤ nearEnd) ||
  (decide (ringBase ≤ a) && decide (a + n ≤ ringBase + s.ringBytes)) ||
  (decide (scratchBase ≤ a) && decide (a + n ≤ scratchEnd))

/-- Where a near or ring address is stored: on a stack, or on a ring channel. -/
structure Placed where
  ring : Bool
  unit : Nat
  within : Nat
deriving DecidableEq, Repr

/-- The number of targets of an interleave mode, and the first (R39). -/
def ILEntry.targets (e : ILEntry) : Nat × Nat :=
  match e.mode with
  | 0 => (3, 3 * e.set)
  | 1 => (12, 0)
  | 2 => (4, 4 * e.set)
  | _ => (16, 0)

/-- The placement of an address that entry `e` covers (R39). -/
def ILEntry.place (e : ILEntry) (a : Nat) : Placed :=
  let o := a - e.base
  let g := o >>> e.granule
  { ring := decide (2 ≤ e.mode)
    unit := e.targets.2 + g % e.targets.1
    within := e.offset + (g / e.targets.1) <<< e.granule + o % 2 ^ e.granule }

/-- The placement of an address: none where no entry covers it, which is an address error (R39). -/
def State.place (s : State) (a : Nat) : Option Placed :=
  match s.cfg.interleave.find? fun e => decide (e.base ≤ a) && decide (a < e.base + e.len) with
  | none => none
  | some e => if s.inRow a 1 && decide (a < scratchBase) then some (e.place a) else none

/-- A slice group by die × 8 + group (R40). -/
def State.hgroup (s : State) (g : Nat) : HGroup := SMap.get {} s.cfg.hearth g

/-- The slice group whose scratchpad an aperture address names. -/
def scratchGroup (a : Nat) : Nat := (a - scratchBase) / groupBytes

/-- The address is a scratchpad address of a group in scratchpad mode. -/
def State.isScratch (s : State) (a : Nat) : Bool :=
  decide (scratchBase ≤ a) && decide (a < scratchEnd) && (s.hgroup (scratchGroup a)).scratch

/-- The address is one that a home serves (R218, R39, R40). -/
def State.isMemory (s : State) (a : Nat) : Bool := (s.place a).isSome || s.isScratch a

/-- Every byte of the range is served by a home. Interleave entries and slice groups begin at multiples of
4 KiB, so one address of each 4 KiB page decides. -/
def State.isMemoryRange (s : State) (a n : Nat) : Bool :=
  decide (n = 0) || (span (a / 4096) ((a + n - 1) / 4096)).all fun k => s.isMemory (k * 4096)

/-- The die of a stack, of a ring channel. -/
def Placed.die (p : Placed) : Nat := if p.ring then p.unit / 4 else p.unit / 3

/-- The power domain of a stack, of a ring channel's pair (Table 14.4). -/
def Placed.domain (p : Placed) : Nat := if p.ring then 32 + p.unit / 2 else 20 + p.unit

/-- The slice of a line number: the exclusive-or of its six fields (R220). -/
def sliceHash (line : Nat) : Nat :=
  natBits line 5 0 ^^^ natBits line 11 6 ^^^ natBits line 17 12 ^^^ natBits line 23 18 ^^^
    natBits line 29 24 ^^^ natBits line 34 30

/-- The home of a memory address, as die × 64 + slice (R220). -/
def State.homeOf (s : State) (a : Nat) : Option Nat :=
  if s.isScratch a then
    let x := a - scratchBase
    some (64 * (x / (192 * 2 ^ 20)) + 8 * ((x / groupBytes) % 8) + (x >>> 7) % 8)
  else
    (s.place a).map fun p => 64 * p.die + sliceHash (a >>> 7)

/-- The logical core and offset that a window address names, when the offset is in the used half (Table 9.1). -/
def windowOf (a : Nat) : Option (Nat × Nat) :=
  if decide (windowBase ≤ a) && decide (a < windowEnd) && decide ((a - windowBase) % 2 ^ 20 < 2 ^ 19) then
    some ((a - windowBase) / 2 ^ 20, (a - windowBase) % 2 ^ 20)
  else none

/-- The window address of a byte of a core's local memory. -/
def localAddr (l off : Nat) : Nat := windowBase + l * 2 ^ 20 + off

/-- Bytes of local memory in force on a core: LMSIZE × 64 KiB (Table 4.9a). -/
def State.lmSize (s : State) (l : Nat) : Nat := s.field .CORE_VE_CFG (s.physOf l) 0 7 4 * 65536

/-! ### Pools and golden copies -/

/-- The partition whose near pool holds an address, and whose far pool does. -/
def State.nearPoolOf (s : State) (a : Nat) : Option Nat :=
  (List.range 16).find? fun p => match SMap.get none s.cfg.pool p with
    | none => false
    | some k => decide (k.nearBase ≤ a) && decide (a < k.nearBase + k.nearLen)
def State.farPoolOf (s : State) (a : Nat) : Option Nat :=
  (List.range 16).find? fun p => match SMap.get none s.cfg.pool p with
    | none => false
    | some k => decide (k.farBase ≤ a) && decide (a < k.farBase + k.farLen)

def State.goldens (s : State) (p : Nat) : List Golden := SMap.get [] s.cfg.golden p

/-- The armed golden entry that an address lies in, with whether it lies in the ring copy (R234). -/
def State.armedAt (s : State) (a : Nat) : Option (Nat × Nat × Bool) :=
  (List.range 16).findSome? fun p =>
    let st := s.reg .MOD_GOLD_STATUS p
    (s.goldens p).zipIdx.findSome? fun (g, e) =>
      if st.getLsbD e then
        if decide (g.near ≤ a) && decide (a < g.near + g.len) then some (p, e, false)
        else if decide (g.ring ≤ a) && decide (a < g.ring + g.len) then some (p, e, true)
        else none
      else none

/-! ### Global addresses -/

/-- A target as the module uses it: a global address of the module's own ID is its local address (R219). -/
def State.localise (s : State) (t : Nat) : Nat :=
  if t >>> 42 = 2 ^ 18 + s.moduleId then t % 2 ^ 42 else t

/-- The other module that a target names (R219). -/
def State.remoteOf (s : State) (t : Nat) : Option Nat :=
  let t := s.localise t
  if t >>> 60 = 1 && decide ((t >>> 42) % 2 ^ 18 ≠ s.moduleId) then some ((t >>> 42) % 2 ^ 18) else none

/-! ### The pinned map and the direct apertures -/

/-- A range looked up in a range table by pieces: none where a byte lies outside every entry (R250). `fuel`
bounds the number of pieces. -/
def rangePieces (m : List RangeEntry) : Nat → Nat → Nat → Option (List (Nat × Nat))
  | 0, _, n => if n = 0 then some [] else none
  | fuel + 1, a, n =>
    if n = 0 then some []
    else
      match m.find? fun e => decide (e.start ≤ a) && decide (a < e.start + e.len) with
      | none => none
      | some e =>
        let k := min n (e.start + e.len - a)
        (rangePieces m fuel (a + k) (n - k)).map ((e.target + (a - e.start), k) :: ·)

/-- A scratchpad range that partition `p` owns wholly (R40). -/
def State.ownsScratch (s : State) (p a n : Nat) : Bool :=
  decide (scratchBase ≤ a) && decide (a + n ≤ scratchEnd) && decide (0 < n) &&
  (span (scratchGroup a) (scratchGroup (a + n - 1))).all fun g =>
    (s.hgroup g).scratch && (s.hgroup g).owner == p

/-- The targets of a translated partition range through the entries of the pinned map (R250): (local physical or global address,
length) pieces, or none where some byte lies in none. -/
def State.mappedPieces (s : State) (p a n : Nat) : Option (List (Nat × Nat)) :=
  if decide (a + n ≤ scratchBase) then
    (rangePieces (s.part p).pinned 65 a n).map fun l => l.map fun (t, k) => (s.localise t, k)
  else none

/-- The targets of a partition range for the units that use the pinned map (R250, Table 10.1): scratchpad that the partition owns
directly, other addresses through the map. -/
def State.pinnedPieces (s : State) (p a n : Nat) : Option (List (Nat × Nat)) :=
  if s.ownsScratch p a n then some [(a, n)] else s.mappedPieces p a n

/-- The range translates wholly to this module's memory. -/
def State.pinnedLocal (s : State) (p a n : Nat) : Option (List (Nat × Nat)) :=
  match s.pinnedPieces p a n with
  | none => none
  | some l => if l.all fun (t, _) => (s.remoteOf t).isNone then some l else none

/-- A range of a core's window, below the local-memory size in force, that belongs to partition `p`. -/
def State.ownsWindow (s : State) (p a n : Nat) : Bool :=
  match windowOf a with
  | none => false
  | some (l, off) => decide (off + n ≤ s.lmSize l) && decide (s.partOf l = some p)

end Sys2Proof.Machine
end

