-- ==== Sys2Proof/Machine/Memory.lean ====
section
/-!
DEFINITION. Memory at its homes: the order of accesses to a line, the control caches' snoops (R75 to R77), the
Hearth's cache lines (R222, R223), golden copies (R234), reservations (R78) and the byte counters (R398).
-/

namespace Sys2Proof.Machine

open Sys2Proof

/-! ### The source of an access -/

/-- The source number of a unit that accesses memory (Tables 1.6 and 1.7): the host reaches it through the port that carries the
endpoint, another module through the port that its packet came by, a distributor as the VE of its cluster's slot 0 (log entry 79). -/
def State.unitSrc (s : State) : Unit → W32
  | .cc l => s.srcCore l 0
  | .ve l => s.srcCore l 1
  | .mu l => s.srcCore l 2
  | .de l => s.srcCore l 3
  | .grate k _ => s.srcSched k
  | .host _ => s.srcPort (s.hostPort.getD 34)
  | .remote p => s.srcPort p
  | .stoker => s.srcStoker
  | .dist c => s.srcCore (8 * c) 1

/-- The logical core of a unit of a core. -/
def unitCore : Unit → Option Nat
  | .cc l => some l
  | .ve l => some l
  | .mu l => some l
  | .de l => some l
  | .grate _ _ => none
  | .host _ => none
  | .remote _ => none
  | .stoker => none
  | .dist _ => none

/-- The partition that a unit's access belongs to; none for those of no partition. -/
def State.unitPart (s : State) : Unit → Option Nat
  | .cc l => s.partOf l
  | .ve l => s.partOf l
  | .mu l => s.partOf l
  | .de l => s.partOf l
  | .grate _ l => s.partOf l
  | .host (.vf p) => some p
  | .host .pf0 => none
  | .remote _ => none
  | .stoker => none
  | .dist c => s.partOfCluster c

/-- The die at which a unit's traffic enters the fabric. -/
def State.unitDie (s : State) : Unit → Nat
  | .cc l => l / 192
  | .ve l => l / 192
  | .mu l => l / 192
  | .de l => l / 192
  | .grate k _ => k / 3
  | .host _ => s.hostPort.getD 34 / 9
  | .remote p => p / 9
  | .stoker => 0
  | .dist c => c / 24

/-! ### Byte counters (Table 15.12) -/

/-- Bytes over the bridges from die `x` to die `y`: the horizontal bridge first (R10). -/
def State.countBridges (s : State) (x y n : Nat) : State :=
  let m := if x % 2 = y % 2 then x else x ^^^ 1
  let s := if x % 2 = y % 2 then s else (s.addCount .DIE_CNT_LO x 2 n).addCount .DIE_CNT_LO m 3 n
  if m = y then s else (s.addCount .DIE_CNT_LO m 4 n).addCount .DIE_CNT_LO y 5 n

/-- Bytes between a unit and die `d`, in the direction in which the data move. -/
def State.countPath (s : State) (u : Unit) (d n : Nat) (write : Bool) : State :=
  if write then s.countBridges (s.unitDie u) d n else s.countBridges d (s.unitDie u) n

/-- Bytes through a stack's interface, or a ring channel. -/
def State.countPlaced (s : State) (p : Placed) (n : Nat) (write : Bool) : State :=
  let w := if write then 1 else 0
  if p.ring then s.addCount .RNG_CNT_LO p.unit w n else s.addCount .STK_CNT_LO p.unit w n

/-- The bytes of one access of a line counted: `hit` when the Hearth serves it, `fill` when a miss fetches the whole line into the
Hearth (log entry 80). -/
def State.account (s : State) (u : Unit) (a n : Nat) (write hit stream fill : Bool) : State :=
  match s.homeOf a with
  | none => s
  | some h =>
    let hd := h / 64
    let w := if write then 1 else 0
    let core? := unitCore u
    let phys := (core?.map s.physOf).getD 0
    let bump (s : State) (i : Nat) : State := if core?.isSome then s.addCount .CORE_CNT_LO phys i n else s
    let s := if stream then bump s 7 else s
    let s :=
      if hit || s.isScratch a then (bump s 3).addCount .DIE_CNT_LO hd w n
      else
        match s.place a with
        | none => s
        | some p =>
          (bump s (if !p.ring && s.unitDie u == hd then 4 else 5)).countPlaced p (if fill then 128 else n) write
    s.countPath u hd n write

/-! ### Storing at a home -/

/-- A list of bytes cut at multiples of `k`. `fuel` bounds the number of pieces. -/
def chunksAt (k : Nat) : Nat → Nat → List Byte → List (Nat × List Byte)
  | 0, _, _ => []
  | fuel + 1, a, bs =>
    if bs.isEmpty then []
    else (a, bs.take (k - a % k)) :: chunksAt k fuel (a + (k - a % k)) (bs.drop (k - a % k))

def chunks (k a : Nat) (bs : List Byte) : List (Nat × List Byte) := chunksAt k (bs.length / k + 2) a bs

/-- The pieces of a range cut at multiples of `k`. -/
def cutAt (k : Nat) : Nat → Nat → Nat → List (Nat × Nat)
  | 0, _, _ => []
  | fuel + 1, a, n =>
    if n = 0 then [] else (a, min n (k - a % k)) :: cutAt k fuel (a + (k - a % k)) (n - (k - a % k))

def cuts (k a n : Nat) : List (Nat × Nat) := cutAt k (n / k + 2) a n

/-- Every core listed in state, with `f` applied to it. -/
def State.eachCore (s : State) (f : Nat → Core → Core) : State :=
  (s.cores.map (·.1)).foldl (fun s l => s.modCore l (f l)) s

/-- A write to a line cancels every reservation on it (R78). The line is the home's 128-byte line. -/
def State.cancelResv (s : State) (a n : Nat) : State :=
  s.eachCore fun _ c =>
    match c.cc.resv with
    | none => c
    | some (ra, _) =>
      if decide (a / 128 ≤ ra / 128) && decide (ra / 128 ≤ (a + n - 1) / 128) then
        { c with cc := { c.cc with resv := none } }
      else c

/-- Bytes stored at a home from source `src`: a write to an armed golden copy is dropped and logged (R234). -/
def State.put (s : State) (src : W32) (a : Nat) (bs : List Byte) : State :=
  (chunks 128 a bs).foldl (fun s (c : Nat × List Byte) =>
    match s.armedAt c.1 with
    | some (p, _, _) => s.ashNow src 0x0B 0 p 0 0xFFFF 0 c.1 c.2.length
    | none => (s.cancelResv c.1 c.2.length).store c.1 c.2) s

/-! ### The Hearth -/

/-- The set of a line (R223). -/
def hearthSet (line : Nat) : Nat := line / 64 % 1536

/-- The ways that a partition may allocate into in a slice group (R40). -/
def HGroup.ways (g : HGroup) (p : Nat) : List Nat :=
  let m : W16 := if g.masks.all (· == 0) then 0xFFFF else g.masks.getD p 0
  (List.range 16).filter fun w => m.getLsbD w

/-- One access of a unit to a line at its home's slice (R222, R223): whether the slice holds the line, and the
slice after it. `alloc`: a miss allocates. A stack's own pool lines stay clean. -/
def State.hearthTouch (s : State) (part : Option Nat) (a : Nat) (write alloc : Bool) : Bool × State :=
  match s.homeOf a with
  | none => (false, s)
  | some h =>
    if s.isScratch a || (s.hgroup (h / 8)).scratch then (false, s)
    else
      let line := a / 128
      let dirty := write && (s.nearPoolOf a).isNone
      let ls := SMap.get [] s.hearth h
      let put (l : List (Nat × Bool × Nat)) : State := { s with hearth := SMap.set [] s.hearth h l }
      match ls.find? fun e => e.1 == line with
      | some (_, d, w) => (true, put ((line, d || dirty, w) :: ls.filter fun e => e.1 != line))
      | none =>
        match part with
        | none => (false, s)
        | some p =>
          if !alloc then (false, s)
          else
            let ways := (s.hgroup (h / 8)).ways p
            let mates := ls.filter fun e => hearthSet e.1 == hearthSet line
            match ways.find? fun w => mates.all fun e => e.2.2 != w with
            | some w => (false, put ((line, dirty, w) :: ls))
            | none =>
              match mates.reverse.find? fun e => ways.contains e.2.2 with
              | none => (false, s)
              | some (vl, vd, vw) =>
                let s' := put ((line, dirty, vw) :: ls.filter fun e => e.1 != vl)
                match vd, s'.place (vl * 128) with
                | true, some q =>
                  (false, s'.countPlaced q 128 true)
                | _, _ => (false, s')

/-- Does the slice hold the line of an address? -/
def State.hearthHolds (s : State) (a : Nat) : Bool :=
  match s.homeOf a with
  | none => false
  | some h => (SMap.get [] s.hearth h).any fun e => e.1 == a / 128

/-- A power domain that an access to a line needs is not ON (R366): the die uncore of its home, and the stack or the ring pair that
stores it where the Hearth does not hold the line. -/
def State.homeAsleep (s : State) (a : Nat) : Bool :=
  match s.homeOf a with
  | none => false
  | some h =>
    s.domainState (16 + h / 64) != pwOn ||
      match s.place a with
      | none => false
      | some x => !s.hearthHolds a && s.domainState x.domain != pwOn

/-- The same of some line of a range. -/
def State.homesAsleep (s : State) (a n : Nat) : Bool :=
  decide (n ≠ 0) && (span (a / 128) ((a + n - 1) / 128)).any fun k => s.homeAsleep (k * 128)

/-- The access stalls at the boundary of its target: the window of a core that migrates or is lost (R230), or a target whose power
domain is not ON (R366). -/
def State.targetStalls (s : State) (t n : Nat) : Bool :=
  match windowOf t with
  | some (k, _) => s.fenced k
  | none => s.homesAsleep t n

/-- Whether a unit's access may allocate in the Hearth (R223): all do but stream-port reads and grate-engine reads. -/
def allocates (u : Unit) (write stream : Bool) : Bool :=
  match u with
  | .grate _ _ => write
  | .ve _ => write || !stream
  | .mu _ => write || !stream
  | .de _ => write || !stream
  | .cc _ => true
  | .host _ => true
  | .remote _ => true
  | .stoker => true
  | .dist _ => true

/-- A read of at most one line at its home's slice and its storage, with its bytes counted (R223). -/
def State.readHome (s : State) (u : Unit) (a n : Nat) (stream : Bool) : State :=
  let r := s.hearthTouch (s.unitPart u) a false (allocates u false stream)
  r.2.account u a n false r.1 stream (!r.1 && r.2.hearthHolds a)

/-- A write of at most one line at its home (R221 to R223, R234): a write to an armed golden copy is dropped; a near pool line is
written through to its stack; a partial write of a line that is allocated first fills it. -/
def State.writeHome (s : State) (u : Unit) (a : Nat) (bs : List Byte) : State :=
  match s.armedAt a with
  | some _ => s.put (s.unitSrc u) a bs
  | none =>
    let n := bs.length
    let r := s.hearthTouch (s.unitPart u) a true (allocates u true false)
    let s := r.2
    let holds := s.hearthHolds a
    let through := (s.nearPoolOf a).isSome
    let s := if !r.1 && holds && decide (n < 128) then
        match s.place a with
        | some p => s.countPlaced p 128 false
        | none => s
      else s
    let s := match s.homeOf a with
      | some h => if holds && through then s.addCount .DIE_CNT_LO (h / 64) 1 n else s
      | none => s
    (s.account u a n true (holds && !through) false false).put (s.unitSrc u) a bs

/-- A write of a range at its homes, line by line. -/
def State.writeHomes (s : State) (u : Unit) (a : Nat) (bs : List Byte) : State :=
  (chunks 128 a bs).foldl (fun s c => s.writeHome u c.1 c.2) s

/-! ### Control-cache lines -/

def CLine.bytes (c : CLine) : List Byte := leBytes 256 c.data.toNat
def lineData (bs : List Byte) : BitVec 2048 := BitVec.ofNat 2048 (ofLe bs)

def Core.lineAt (c : Core) (line : Nat) : Option CLine := c.cache.find? fun x => x.line == line
def Core.evictAt (c : Core) (line : Nat) : Option CLine := c.evict.find? fun x => x.line == line
def Core.dropLine (c : Core) (line : Nat) : Core := { c with cache := c.cache.filter fun x => x.line != line }
def Core.dropEvict (c : Core) (line : Nat) : Core := { c with evict := c.evict.filter fun x => x.line != line }
def Core.setLineState (c : Core) (line : Nat) (st : CState) : Core :=
  { c with cache := c.cache.map fun x => if x.line == line then { x with st := st } else x }

/-- A dirty line written back to its home. -/
def State.writeBack (s : State) (l : Nat) (c : CLine) : State := s.writeHomes (.cc (Fin.ofNat 768 l)) (c.line * 256) c.bytes

/-- A read snoop at one control cache (Table 3.4): D writes back and becomes S, K becomes S, W completes its
write-back; the eviction buffer answers first (R74). -/
def State.snoopRead (s : State) (l line : Nat) : State :=
  match (s.core l).evictAt line with
  | some w => (s.writeBack l w).modCore l (·.dropEvict line)
  | none =>
    match (s.core l).lineAt line with
    | none => s
    | some x =>
      match x.st with
      | .D => (s.writeBack l x).modCore l (·.setLineState line .S)
      | .K => s.modCore l (·.setLineState line .S)
      | .S => s
      | .W => s

/-- A control cache gives up a line, whatever its state. -/
def State.dropFrom (s : State) (l line : Nat) : State := s.modCore l fun c => (c.dropLine line).dropEvict line

/-- The data that a holder in D, K or W supplies to an ownership snoop (R75). -/
def Core.supplied (c : Core) (line : Nat) : Option (BitVec 2048) :=
  match c.evictAt line with
  | some w => some w.data
  | none =>
    match c.lineAt line with
    | none => none
    | some x =>
      match x.st with
      | .D => some x.data
      | .K => some x.data
      | .S => none
      | .W => some x.data

/-- A write of another unit invalidates the line at one control cache: a holder in D or W writes back first
(R77). -/
def State.invalidateAt (s : State) (l line : Nat) : State :=
  let c := s.core l
  let s := match c.evictAt line with
    | some w => s.writeBack l w
    | none =>
      match c.lineAt line with
      | some x => if x.st = CState.D then s.writeBack l x else s
      | none => s
  s.dropFrom l line

/-- The logical cores whose control caches may hold a line (R77). -/
def State.holders (s : State) (line : Nat) : List Nat := SMap.get [] s.presence line
def State.setHolders (s : State) (line : Nat) (ls : List Nat) : State :=
  { s with presence := SMap.set [] s.presence line ls }

/-- A line that an ownership snoop supplied and nobody has taken reaches its home. -/
def State.settle (s : State) (line : Nat) : State :=
  match SMap.get none s.inFlight line with
  | none => s
  | some (l, d) =>
    ({ s with inFlight := SMap.set none s.inFlight line none }).writeHomes (.cc (Fin.ofNat 768 l)) (line * 256)
      (leBytes 256 d.toNat)

/-- An access of a unit other than a control core recalls or invalidates a marked line (R77). -/
def State.recall (s : State) (line : Nat) (write : Bool) : State :=
  let s := s.settle line
  if write then ((s.holders line).foldl (fun s l => s.invalidateAt l line) s).setHolders line []
  else (s.holders line).foldl (fun s l => s.snoopRead l line) s

/-! ### Accesses -/

/-- A read of at most one line at its home. -/
def State.readLine (s : State) (u : Unit) (a n : Nat) (stream : Bool) : List Byte × State :=
  let s := (s.recall (a / 256) false).readHome u a n stream
  (s.bytes a n, s)

/-- A write of at most one line at its home. -/
def State.writeLine (s : State) (u : Unit) (a : Nat) (bs : List Byte) : State := (s.recall (a / 256) true).writeHome u a bs

/-- A read of a range of memory by a unit, line by line at the homes (R76, R223). -/
def State.readMem (s : State) (u : Unit) (a n : Nat) (stream : Bool := false) : List Byte × State :=
  (cuts 128 a n).foldl (fun (r : List Byte × State) (p : Nat × Nat) =>
    let q := r.2.readLine u p.1 p.2 stream
    (r.1 ++ q.1, q.2)) ([], s)

/-- A write of a range of memory by a unit. -/
def State.writeMem (s : State) (u : Unit) (a : Nat) (bs : List Byte) : State :=
  (chunks 128 a bs).foldl (fun s c => s.writeLine u c.1 c.2) s

/-- Reads and writes of translated pieces that lie in this module. -/
def State.readPieces (s : State) (u : Unit) (l : List (Nat × Nat)) (stream : Bool := false) : List Byte × State :=
  l.foldl (fun (r : List Byte × State) p =>
    let q := r.2.readMem u p.1 p.2 stream
    (r.1 ++ q.1, q.2)) ([], s)
def State.writePieces (s : State) (u : Unit) (l : List (Nat × Nat)) (bs : List Byte) : State :=
  (l.foldl (fun (r : List Byte × State) p =>
    (r.1.drop p.2, r.2.writeMem u p.1 (r.1.take p.2))) (bs, s)).2

/-! ### Local memory -/

/-- Bytes of a core's local memory counted by who moves them (Table 15.12): the core's own engines, or another core or the host
through the window. -/
def State.countLocal (s : State) (u : Unit) (l n : Nat) (write : Bool) : State :=
  if unitCore u = some l then s.addCount .CORE_CNT_LO (s.physOf l) 0 n
  else
    let s := (s.addCount .CORE_CNT_LO (s.physOf l) 2 n).countPath u (l / 192) n write
    match unitCore u with
    | none => s
    | some k => s.addCount .CORE_CNT_LO (s.physOf k) 1 n

def State.readLocal (s : State) (u : Unit) (l off n : Nat) : List Byte × State :=
  (s.bytes (localAddr l off) n, s.countLocal u l n false)
def State.writeLocal (s : State) (u : Unit) (l off : Nat) (bs : List Byte) : State :=
  (s.store (localAddr l off) bs).countLocal u l bs.length true

/-! ### Reads that no counter shows -/

/-- The bytes of targets once every control cache has written them back (R77), with no access counted. -/
def State.peekTargets (s : State) (l : List (Nat × Nat)) : List Byte × State :=
  let s := l.foldl (fun s x =>
    if (windowOf x.1).isSome || x.2 = 0 then s
    else (span (x.1 / 256) ((x.1 + x.2 - 1) / 256)).foldl (fun s line => s.recall line false) s) s
  (l.flatMap fun x => s.bytes x.1 x.2, s)

/-- The bytes that a read of a partition range through the pinned map finds. -/
def State.pinnedBytes (s : State) (p a n : Nat) : Option (List Byte) :=
  match s.pinnedLocal p a n with
  | none => none
  | some l => if l.all fun (t, k) => s.isMemoryRange t k then some (s.peekTargets l).1 else none

end Sys2Proof.Machine
end

