-- ==== Sys2Proof/Machine/Flits.lean ====
section
/-!
DEFINITION. Flits of a port (12.3): packets cut into flits, credits, the replay buffer, and the flits a port sends.
-/

namespace Sys2Proof

/-- The operations of a packet that carry data after the header (Tables 12.5, 12.6): a READ and a REFUSE carry none. -/
def Packet.carries (op : Nat) : Bool := decide (op ≠ 1) && decide (op ≠ 5)

/-- The header of a packet as 32 bytes (Table 12.5). -/
def Packet.header (pk : Packet) (flits : Nat) : List Byte :=
  Machine.leBytes 4 (pk.dst.toNat * 2 ^ 14 + pk.op.toNat * 2 ^ 8 + (flits - 1)) ++
  Machine.leBytes 4 (pk.src.toNat * 2 ^ 14) ++ Machine.leBytes 4 pk.tag.toNat ++ Machine.leBytes 4 pk.born.toNat ++
  Machine.leBytes 8 pk.addr.toNat ++ Machine.leBytes 4 pk.len.toNat ++ Machine.leBytes 4 pk.seq.toNat

/-- A packet read from the bytes of its flits' payloads. -/
def packetOf (vc : BitVec 3) (bs : List Byte) : Packet :=
  let w := Machine.fieldLe bs 0 4
  let op := natBits w 13 8
  let len := Machine.fieldLe bs 24 4
  { dst := BitVec.ofNat 18 (natBits w 31 14), op := BitVec.ofNat 6 op,
    src := BitVec.ofNat 18 (natBits (Machine.fieldLe bs 4 4) 31 14), tag := BitVec.ofNat 32 (Machine.fieldLe bs 8 4),
    born := BitVec.ofNat 32 (Machine.fieldLe bs 12 4), addr := BitVec.ofNat 64 (Machine.fieldLe bs 16 8),
    len := BitVec.ofNat 32 len, seq := BitVec.ofNat 32 (Machine.fieldLe bs 28 4), vc := vc,
    data := if Packet.carries op then (bs.drop 32).take len else [] }

end Sys2Proof

namespace Sys2Proof.Machine

open Sys2Proof

/-- Payload bytes of a flit (Table 12.3). -/
def payloadBytes : Nat := 244

/-- Bytes cut into payloads, the last filled with zeros. `n` is their number. -/
def payloads : Nat → List Byte → List (List Byte)
  | 0, _ => []
  | n + 1, bs =>
    let x := bs.take payloadBytes
    (x ++ List.replicate (payloadBytes - x.length) 0) :: payloads n (bs.drop payloadBytes)

/-- The number of flits of a packet with `n` data bytes (R300). -/
def flitsOf (n : Nat) : Nat := if n ≤ 212 then 1 else 1 + (n - 212 + 243) / 244

/-- Bits of a Boolean. -/
def bit (b : Bool) : Nat := if b then 1 else 0

/-- Bytes 0 to 251 of a flit (Table 12.3). -/
def flitBody (f : Flit) : List Byte :=
  leBytes 4 (f.seq.toNat * 2 ^ 20 + f.ack.toNat * 2 ^ 8 + bit f.nak * 2 ^ 7 + f.vc.toNat * 2 ^ 4 + bit f.head * 2 ^ 3 +
    bit f.tail * 2 ^ 2 + f.type.toNat) ++
  leBytes 4 (f.cnt1.toNat * 2 ^ 24 + f.vc1.toNat * 2 ^ 21 + f.cnt0.toNat * 2 ^ 8 + f.vc0.toNat * 2 ^ 5) ++ f.payload

/-- The 256 bytes of a flit: its body, and CRC-32C over it (R296). -/
def flitBytes (f : Flit) : List Byte := flitBody f ++ leBytes 4 (crc32c (flitBody f)).toNat

/-- A flit read from its 256 bytes; none where the CRC check fails (R296, R297). -/
def flitOf (bs : List Byte) : Option Flit :=
  if bs.length ≠ 256 ∨ fieldLe bs 252 4 ≠ (crc32c (bs.take 252)).toNat then none
  else
    let w := fieldLe bs 0 4
    let c := fieldLe bs 4 4
    some { seq := BitVec.ofNat 12 (natBits w 31 20), ack := BitVec.ofNat 12 (natBits w 19 8), nak := natBits w 7 7 == 1,
           vc := BitVec.ofNat 3 (natBits w 6 4), head := natBits w 3 3 == 1, tail := natBits w 2 2 == 1,
           type := BitVec.ofNat 2 (natBits w 1 0), cnt1 := BitVec.ofNat 8 (natBits c 31 24), vc1 := BitVec.ofNat 3 (natBits c 23 21),
           cnt0 := BitVec.ofNat 8 (natBits c 15 8), vc0 := BitVec.ofNat 3 (natBits c 7 5), payload := (bs.drop 8).take payloadBytes }

/-- An idle flit, which carries an acknowledgement and credits only. -/
def idleFlit : Flit :=
  { seq := 0, ack := 0, nak := false, vc := 0, head := false, tail := false, type := 0, vc0 := 0, cnt0 := 0,
    vc1 := 0, cnt1 := 0, payload := List.replicate payloadBytes 0 }

/-- The flits of a packet (R300). -/
def packetFlits (pk : Packet) : List Flit :=
  let n := flitsOf pk.data.length
  (payloads n (pk.header n ++ pk.data)).zipIdx.map fun x =>
    { idleFlit with vc := pk.vc, head := x.2 == 0, tail := x.2 + 1 == n, type := 1, payload := x.1 }

/-- The class of a packet at the output arbiter (R299): 1 time, 2 counter signals with SIGNAL_ACK and VALUE, 3 requests and
responses, 4 management. -/
def arbClass (op : Nat) : Nat :=
  if op = 0x20 ∨ op = 0x21 then 1 else if 0x10 ≤ op ∧ op ≤ 0x15 then 2 else if op = 0x30 then 4 else 3

/-- The flit buffers of each virtual channel, which are its initial credits (Table 12.4). -/
def vcBuffers : List Nat := [448, 448, 448, 448, 96, 96, 32, 32]

/-- The largest number of flits a replay buffer holds (R297). -/
def replayDepth : Nat := 512

/-- The credits a flit returns: up to 255 for each of two channels (Table 12.3), and what stays owed. -/
def Port.returns (x : Port) : (Nat × Nat) × (Nat × Nat) × SMap Nat :=
  match x.owed with
  | [] => ((0, 0), (0, 0), [])
  | [(v, n)] => ((v, min n 255), (0, 0), SMap.set 0 x.owed v (n - 255))
  | (v, n) :: (w, m) :: _ =>
    ((v, min n 255), (w, min m 255), SMap.set 0 (SMap.set 0 x.owed v (n - 255)) w (m - 255))

/-- A flit leaves: it acknowledges the last packet flit received in order and returns credits (R297, R298). -/
def State.sendFlit (s : State) (p : Nat) (f : Flit) : State :=
  let x := s.port p
  let r := x.returns
  let g : Flit := { f with ack := x.rxNext - 1, vc0 := BitVec.ofNat 3 r.1.1, cnt0 := BitVec.ofNat 8 r.1.2,
                           vc1 := BitVec.ofNat 3 r.2.1.1, cnt1 := BitVec.ofNat 8 r.2.1.2 }
  (s.setPort p { x with owed := r.2.2, unackedRx := 0 }).emit (.flit p (flitBytes g))

/-- The first waiting flit of each channel that has a credit, with its place: a packet's flits stay together on their channel
(R298). -/
def Port.ready (x : Port) : List (TxFlit × Nat) :=
  (List.range 8).filterMap fun v =>
    if SMap.get 0 x.credits v = 0 then none else x.txq.zipIdx.find? fun e => e.1.flit.vc.toNat == v

/-- The one that has waited longest. -/
def oldestFlit (l : List (TxFlit × Nat)) : Option (TxFlit × Nat) :=
  l.foldl (fun m e =>
    match m with
    | none => some e
    | some b => if e.2 < b.2 then some e else m) none

/-- Of the last 63 flits, those of a code. -/
def Port.slotCount (x : Port) (code : Nat) : Nat := (x.slots.filter (· == code)).length

/-- The next flit by R299: a time flit; an urgent one, at most 8 in 64 while others wait (R328); a counter signal, at most 16 in
64 while other classes wait; requests and responses in turn; management. -/
def Port.pick (x : Port) : Option (TxFlit × Nat) :=
  let all := x.ready
  let urgent := all.filter fun e => e.1.urgent
  let calm := all.filter fun e => !e.1.urgent
  let signals := calm.filter fun e => e.1.cls == 2
  let reqs := calm.filter fun e => e.1.cls == 3 && decide (e.1.flit.vc.toNat < 2)
  let resps := calm.filter fun e => e.1.cls == 3 && decide (2 ≤ e.1.flit.vc.toNat)
  let mgmt := calm.filter fun e => e.1.cls == 4
  let urgentOk := if calm.isEmpty || decide (x.slotCount 2 < 8) then urgent else []
  let signalsOk := if (all.filter fun e => decide (3 ≤ e.1.cls)).isEmpty || decide (x.slotCount 1 < 16) then signals else []
  let data := if x.respTurn then [resps, reqs] else [reqs, resps]
  ((all.filter fun e => e.1.cls == 1) :: urgentOk :: signalsOk :: data ++ [mgmt, signals, urgent]).findSome? oldestFlit

/-- What a flit counts as among the last ones (R299, R328). -/
def TxFlit.code (f : TxFlit) : Nat := if f.cls = 1 then 0 else if f.urgent then 2 else if f.cls = 2 then 1 else 0

/-- The port sends what it may: each flit against a credit, held in the replay buffer (R297, R298). -/
def State.pumpPort (p : Nat) : Nat → State → State
  | 0, s => s
  | fuel + 1, s =>
    let x := s.port p
    if !s.portActive p || x.closed || decide (replayDepth ≤ x.replay.length) then s
    else
      match x.pick with
      | none => s
      | some (f, i) =>
        let g : Flit := { f.flit with seq := x.txSeq }
        let v := f.flit.vc.toNat
        let s := s.setPort p { x with
          txq := x.txq.eraseIdx i, replay := x.replay ++ [(x.txSeq, g)], txSeq := x.txSeq + 1
          credits := SMap.set 0 x.credits v (SMap.get 0 x.credits v - 1), slots := (f.code :: x.slots).take 63
          respTurn := if f.cls = 3 then decide (v < 2) else x.respTurn }
        State.pumpPort p fuel (s.sendFlit p g)

/-- Every flit that waits at a port is tried once. -/
def State.pump (s : State) (p : Nat) : State := State.pumpPort p (s.port p).txq.length s

/-- A packet handed to a port: it leaves in flits as credits allow (Table 15.12 TX counts its payload). -/
def State.sendPacket (s : State) (p : Nat) (pk : Packet) : State :=
  let s := (s.addCount .FLP_CNT_LO p 0 pk.data.length).emit (.packet p pk)
  let x := s.port p
  (s.setPort p { x with txq := x.txq ++ (packetFlits pk).map fun f => { cls := arbClass pk.op.toNat, flit := f } }).pump p

/-- Flit buffers of a channel are free again (R298). -/
def State.freeFlits (s : State) (p v n : Nat) : State :=
  let x := s.port p
  s.setPort p { x with owed := SMap.set 0 x.owed v (SMap.get 0 x.owed v + n) }

/-- The acknowledged flits leave the replay buffer: those up to `ack`, in sequence order (R297). -/
def Port.acked (x : Port) (ack : BitVec 12) : Port :=
  { x with replay := x.replay.dropWhile fun e => decide ((ack - e.1).toNat < 2048) }

/-- Every flit of the replay buffer is sent again, in order (R297). -/
def State.resendFlits (s : State) (p : Nat) : State :=
  let r := (s.port p).replay
  (r.foldl (fun s e => s.sendFlit p e.2) s).addCount .FLP_CNT_LO p 3 r.length

end Sys2Proof.Machine
end

