-- ==== Sys2Proof/Machine/Arbiters.lean ====
section
/-!
DEFINITION. The arbiters between the engines and the fabric (R13, 12.9): three classes, round-robin at cores and clusters, deficit
round-robin with census weights at regions and dies, the split of a stack's rate (R227), aging and the urgent cap.
-/

namespace Sys2Proof.Machine

open Sys2Proof

/-! ### The tree of arbiters (R13, Table 1.3) -/

/-- The key of an arbiter. -/
def arbKey : Arbiter → Nat
  | .core l => l
  | .cluster c => 1000 + c
  | .region r => 2000 + r
  | .die d => 3000 + d
  | .stack k => 4000 + k
  | .port p => 5000 + p

/-- The arbiter above one, and which of that one's children it is: the engines of a core, the cores of a cluster, the clusters of a
region, the regions of a die. -/
def arbParent : Arbiter → Option (Arbiter × Nat)
  | .core l => some (.cluster (Fin.ofNat 96 (l / 8)), l % 8)
  | .cluster c => some (.region (Fin.ofNat 16 (c / 6)), c % 6)
  | .region r => some (.die (Fin.ofNat 4 (r / 4)), r % 4)
  | .die _ => none
  | .stack _ => none
  | .port _ => none

/-- Where a request enters: its arbiter, the child that it comes from, and its core. After the four regions of a die come its two
bridge ports and the return paths of its three stacks. -/
def ArbSource.entry : ArbSource → Arbiter × Nat × Option Nat
  | .engine l e => (.core l, e, some l)
  | .bridge d b => (.die d, 4 + b, none)
  | .grateReturn k => (.die (Fin.ofNat 4 (k / 3)), 6 + k % 3, none)
  | .classG k => (.stack k, 0, none)
  | .classI k => (.stack k, 1, none)

/-- Below one arbiter stand itself and those whose requests reach it. -/
def arbBelow (top a : Arbiter) : Bool :=
  let up (x : Option Arbiter) : Option Arbiter := x.bind fun y => (arbParent y).map (·.1)
  [some a, up (some a), up (up (some a)), up (up (up (some a)))].contains (some top)

/-- The arbiters with requests of one subtree, upper ones first. -/
def arbTree (top : Arbiter) : List Arbiter :=
  (((List.finRange 4).map Arbiter.die ++ (List.finRange 16).map Arbiter.region ++ (List.finRange 96).map Arbiter.cluster ++
    (List.finRange 768).map Arbiter.core ++ (List.finRange 12).map Arbiter.stack).filter (arbBelow top))

def State.arb (s : State) (a : Arbiter) : Arb := SMap.get {} s.arbs (arbKey a)
def State.setArb (s : State) (a : Arbiter) (x : Arb) : State := { s with arbs := SMap.set {} s.arbs (arbKey a) x }

/-! ### One grant -/

/-- A child's request joins an arbiter; the census notes who waits (R326). -/
def Arb.enter (x : Arb) (r : ArbReq) : Arb :=
  { x with waiting := x.waiting ++ [r], seen := if x.seen.contains (r.from', r.core) then x.seen else x.seen ++ [(r.from', r.core)] }

/-- A class of R325. -/
inductive ArbClass where
  | urgent | normal | background
deriving DecidableEq, Repr

def ArbReq.cls (r : ArbReq) : ArbClass := if r.urgent then .urgent else if r.background then .background else .normal

/-- The class that is served next (R325): urgent, at most 8 of 64 grants while others wait (R328); normal; background. -/
def Arb.serves (x : Arb) : Option ArbClass :=
  let has (c : ArbClass) : Bool := x.waiting.any fun r => r.cls == c
  let calm := has .normal || has .background
  if has .urgent && (!calm || decide ((x.recent.filter id).length < 8)) then some .urgent
  else if has .normal then some .normal
  else if has .background then some .background
  else none

/-- The oldest request of a child in a class, with its place. -/
def Arb.head (x : Arb) (c : ArbClass) (child : Nat) : Option (ArbReq × Nat) :=
  x.waiting.zipIdx.find? fun e => e.1.cls == c && e.1.from' == child

/-- The weight of a child: 1 before the first census that met it. -/
def Arb.weight (x : Arb) (child : Nat) : Nat := max 1 (SMap.get 0 x.weights child)

/-- The children of an arbiter. -/
def arbChildren : Arbiter → Nat
  | .core _ => 3
  | .cluster _ => 8
  | .region _ => 6
  | .die _ => 9
  | .stack _ => 2
  | .port _ => 0

/-- Round-robin (Table 1.3): the first child from the one whose turn it is. -/
def Arb.roundRobin (x : Arb) (n : Nat) (c : ArbClass) : Option (Nat × Arb) :=
  (List.range n).findSome? fun k =>
    let child := (x.turn + k) % n
    (x.head c child).map fun e => (e.2, { x with turn := (child + 1) % n })

/-- Deficit round-robin (R326): a child's turn adds 64 bytes × weight once, and its requests are granted while they fit the deficit; a
child without requests keeps none. `fuel` bounds the turns. -/
def Arb.drr (n : Nat) (c : ArbClass) : Nat → Arb → Option (Nat × Arb)
  | 0, _ => none
  | fuel + 1, x =>
    let k := x.turn
    let next : Arb := { x with turn := (k + 1) % n, fed := false }
    if !x.waiting.any fun r => r.from' == k then Arb.drr n c fuel { next with deficits := SMap.set 0 next.deficits k 0 }
    else
      match x.head c k with
      | none => Arb.drr n c fuel next
      | some (r, i) =>
        let d := SMap.get 0 x.deficits k + if x.fed then 0 else 64 * x.weight k
        if (r.bytes : Int) ≤ d then some (i, { x with fed := true, deficits := SMap.set 0 x.deficits k (d - r.bytes) })
        else Arb.drr n c fuel { next with deficits := SMap.set 0 next.deficits k d }

/-- Turns enough for the largest waiting request to fit. -/
def Arb.turns (x : Arb) (n : Nat) : Nat := n * ((x.waiting.foldl (fun m r => max m r.bytes) 0) / 64 + 3)

/-- The request that an arbiter grants next, and the arbiter after the grant. -/
def Arb.grant (x : Arb) (a : Arbiter) : Option (ArbReq × Arb) :=
  let n := arbChildren a
  match x.serves with
  | none => none
  | some c =>
    let r := match a with
      | .core _ => x.roundRobin n c
      | .cluster _ => x.roundRobin n c
      | _ => Arb.drr n c (x.turns n) x
    match r with
    | none => none
    | some (i, y) =>
      match x.waiting[i]? with
      | none => none
      | some q =>
        some (q, { y with waiting := y.waiting.eraseIdx i, recent := (q.urgent :: y.recent).take 63
                          granted := SMap.set 0 y.granted q.from' (SMap.get 0 y.granted q.from' + q.bytes) })

/-- An arbiter grants one request and forwards it to the arbiter above, where its age begins anew. It holds one grant at most: while one
waits above, it grants no other (R13). -/
def State.arbStep (s : State) (a : Arbiter) : State :=
  match arbParent a with
  | none =>
    match (s.arb a).grant a with
    | none => s
    | some (_, x) => s.setArb a x
  | some (p, k) =>
    if (s.arb p).waiting.any fun r => r.from' == k then s
    else
      match (s.arb a).grant a with
      | none => s
      | some (q, x) => (s.setArb a x).setArb p ((s.arb p).enter { q with from' := k, urgent := false })

/-! ### A window, the census and aging -/

/-- The weight of a child that `cores` cores were seen to request for (R326): at a region arbiter its cores, or 1 in per-cluster mode;
at a die arbiter the region's cores, and 8 for a bridge port or a grate return path; at a stack the shares of R227. -/
def State.censusWeight (s : State) (a : Arbiter) (child cores : Nat) : Nat :=
  match a with
  | .region r => if (SMap.get ({} : ArbCfg) s.cfg.arbRegion r).perCluster then 1 else max 1 cores
  | .die _ => if child < 4 then max 1 cores else 8
  | .stack k => if child = 0 then s.field .STK_SPLIT k 0 4 0 else 16 - s.field .STK_SPLIT k 0 4 0
  | _ => 1

/-- The cores that a child was seen to request for in the window. -/
def Arb.coresOf (x : Arb) (child : Nat) : Nat := (x.seen.filter fun e => e.1 == child && e.2.isSome).length

/-- The end of a window (R326): weights from the census, of the children that were seen to request; what still waits is seen in the
next window too. -/
def State.census (s : State) (a : Arbiter) : State :=
  let x := s.arb a
  let ks := (List.range (arbChildren a)).filter fun k => x.seen.any fun e => e.1 == k
  s.setArb a { x with
    weights := ks.foldl (fun m k => SMap.set 0 m k (s.censusWeight a k (x.coresOf k))) []
    seen := (x.waiting.map fun r => (r.from', r.core)).eraseDups }

/-- The shares of a stack's two classes stand before any census (R227). -/
def State.arbReady (s : State) (a : Arbiter) : State :=
  match a with
  | .stack _ =>
    s.setArb a { s.arb a with weights := [(0, s.censusWeight a 0 0), (1, s.censusWeight a 1 0)] }
  | _ => s

/-- The requests that come in one cycle of the window. -/
def State.arbArrive (s : State) (top : Arbiter) (l : List ArbArrival) (c : Nat) : State :=
  (l.filter fun q => q.cycle.val == c).foldl (fun s q =>
    let e := ArbSource.entry q.src
    if arbBelow top e.1 then
      s.setArb e.1 ((s.arb e.1).enter { from' := e.2.1, core := e.2.2, bytes := q.bytes, background := q.background })
    else s) s

/-- The arbiters below `top` that have requests, or meet them in the window. -/
def State.arbBusy (s : State) (top : Arbiter) (l : List ArbArrival) : List Arbiter :=
  let tree := arbTree top
  let from' := (tree.filter fun a => !(s.arb a).waiting.isEmpty) ++ l.map fun q => (ArbSource.entry q.src).1
  tree.filter fun a => from'.any (arbBelow a)

/-- CENSUS_WINDOW (R13, R325 to R328): 256 cycles of an arbiter and those below it, in each of which requests come and every arbiter
may grant one; then the census. What waits at a flue port is sent as R299 gives. -/
def execCensusWindow (arb : Arbiter) (arrivals : List ArbArrival) (s : State) : Res :=
  match arb with
  | .port p => .next (s.pump p)
  | _ =>
    let busy := s.arbBusy arb arrivals
    let s := s.arbReady arb
    let s := (List.range 256).foldl (fun s c => busy.foldl State.arbStep (s.arbArrive arb arrivals c)) s
    .next (s.census arb)

/-- The thresholds in force at an arbiter (R45, R299, R326): a region's for its core, cluster and region arbiters, the die's for the die
arbiter and, by log entry 62, for its stacks. -/
def State.arbCfg (s : State) : Arbiter → ArbCfg
  | .core l => SMap.get {} s.cfg.arbRegion (l / 48)
  | .cluster c => SMap.get {} s.cfg.arbRegion (c / 6)
  | .region r => SMap.get {} s.cfg.arbRegion r
  | .die d => SMap.get {} s.cfg.arbDie d
  | .stack k => SMap.get {} s.cfg.arbDie (k / 3)
  | .port _ => {}

/-- The class threshold of a waiting request (R45, R328). -/
def State.arbThreshold (s : State) (a : Arbiter) (background : Bool) : Nat :=
  if background then (s.arbCfg a).background else (s.arbCfg a).normal

/-- A flit that waits at a port becomes urgent (R299): classes 2 and 3 after 2,048 port cycles, class 4 after 65,536. -/
def State.ageFlit (s : State) (p i : Nat) (background : Bool) (waited : Nat) : State :=
  let x := s.port p
  match x.txq[i]? with
  | none => s
  | some f =>
    if f.cls = 1 ∨ (f.cls == 4) ≠ background ∨ waited ≤ s.arbThreshold (.port (Fin.ofNat 36 p)) background then s
    else (s.setPort p { x with txq := x.txq.set i { f with urgent := true } }).pump p

/-- AGING_PROMOTE (R16, R24, R328): a waiting request, named by its place and its class, that has waited longer than its class threshold is urgent at
that arbiter. -/
def execAgingPromote (arb : Arbiter) (request : Nat) (background : Bool) (waited : Nat) (s : State) : Res :=
  match arb with
  | .port p => .next (s.ageFlit p request background waited)
  | _ =>
    let x := s.arb arb
    match x.waiting[request]? with
    | none => .next s
    | some r =>
      if r.background ≠ background ∨ waited ≤ s.arbThreshold arb background then .next s
      else .next (s.setArb arb { x with waiting := x.waiting.set request { r with urgent := true } })

end Sys2Proof.Machine
end

