-- ==== Sys2Proof/Machine/Float.lean ====
section
/-!
DEFINITION. Number formats and rounding (06): exact values as sign, integer significand and power of two, the
formats' encodings, the rounding modes with their overflow results, and exact arithmetic on values.
-/

namespace Sys2Proof.Machine

open Sys2Proof

/-- A floating-point value, exactly: ± m × 2^e, an infinity, or NaN (all NaNs are alike, R160). -/
inductive Val where
  | nan
  | inf (neg : Bool)
  | fin (neg : Bool) (m : Nat) (e : Int)
deriving DecidableEq, Repr

/-- The rounding modes of Table 6.6. -/
inductive Rnd where
  | rne | rz | ru | rd | rto | sat
deriving DecidableEq, Repr

/-- A float format of Table 6.1: exponent and fraction bits, bias, and which specials it encodes. -/
structure Fmt where
  e : Nat
  f : Nat
  bias : Nat
  /-- infinities and NaNs in exponent field all ones. -/
  ieee : Bool
  /-- a NaN in the code of all ones, with no infinity (E4M3). -/
  topNan : Bool
deriving DecidableEq, Repr

def fp32 : Fmt := ⟨8, 23, 127, true, false⟩
def fp16 : Fmt := ⟨5, 10, 15, true, false⟩
def bf16 : Fmt := ⟨8, 7, 127, true, false⟩
def e4m3 : Fmt := ⟨4, 3, 7, false, true⟩
def e5m2 : Fmt := ⟨5, 2, 15, true, false⟩
def e3m2 : Fmt := ⟨3, 2, 3, false, false⟩
def e2m3 : Fmt := ⟨2, 3, 1, false, false⟩
def e2m1 : Fmt := ⟨2, 1, 1, false, false⟩

/-- The format of an element code of Table 6.1. -/
def fmtOf : Nat → Option Fmt
  | 0 => some fp32
  | 1 => some fp16
  | 2 => some bf16
  | 3 => some e4m3
  | 4 => some e5m2
  | 5 => some e3m2
  | 6 => some e2m3
  | 7 => some e2m1
  | _ => none

def Fmt.bits (t : Fmt) : Nat := 1 + t.e + t.f

/-- The value of an encoding (R159). -/
def Fmt.decode (t : Fmt) (w : Nat) : Val :=
  let neg := decide ((w >>> (t.e + t.f)) % 2 = 1)
  let ex := (w >>> t.f) % 2 ^ t.e
  let fr := w % 2 ^ t.f
  if t.ieee && decide (ex = 2 ^ t.e - 1) then if fr = 0 then .inf neg else .nan
  else if t.topNan && decide (ex = 2 ^ t.e - 1) && decide (fr = 2 ^ t.f - 1) then .nan
  else if ex = 0 then .fin neg fr (1 - (t.bias : Int) - t.f)
  else .fin neg (2 ^ t.f + fr) ((ex : Int) - t.bias - t.f)

/-- The canonical NaN (R160); 0 in a format that has none. -/
def Fmt.nanCode (t : Fmt) : Nat :=
  if t.ieee then (2 ^ t.e - 1) * 2 ^ t.f + 2 ^ (t.f - 1)
  else if t.topNan then 2 ^ (t.e + t.f) - 1
  else 0

/-- The code of the largest finite value (Table 6.1). -/
def Fmt.maxCode (t : Fmt) : Nat :=
  if t.ieee then (2 ^ t.e - 1) * 2 ^ t.f - 1
  else if t.topNan then 2 ^ (t.e + t.f) - 2
  else 2 ^ (t.e + t.f) - 1

def Fmt.infCode (t : Fmt) : Nat := (2 ^ t.e - 1) * 2 ^ t.f
def Fmt.signed (t : Fmt) (neg : Bool) (c : Nat) : Nat := if neg then c + 2 ^ (t.e + t.f) else c

/-- Flags as CORE_FP_FLAGS numbers them within a set: 1 invalid, 2 overflow, 4 underflow, 8 inexact. -/
def flInvalid : Nat := 1
def flOverflow : Nat := 2
def flUnderflow : Nat := 4
def flInexact : Nat := 8

/-- A significand shifted right by `sh` and rounded; whether it was inexact (Table 6.6). -/
def roundShift (mode : Rnd) (neg : Bool) (m sh : Nat) : Nat × Bool :=
  let q := m >>> sh
  let r := m % 2 ^ sh
  if r = 0 then (q, false)
  else
    let up : Bool :=
      match mode with
      | .rne => decide (2 ^ sh < 2 * r) || (decide (2 * r = 2 ^ sh) && decide (q % 2 = 1))
      | .sat => decide (2 ^ sh < 2 * r) || (decide (2 * r = 2 ^ sh) && decide (q % 2 = 1))
      | .rz => false
      | .ru => !neg
      | .rd => neg
      | .rto => decide (q % 2 = 0)
    (if up then q + 1 else q, true)

/-- A value ± m × 2^e rounded to a multiple of 2^u. -/
def roundAt (mode : Rnd) (neg : Bool) (m : Nat) (e u : Int) : Nat × Bool :=
  if u ≤ e then (m <<< (e - u).toNat, false) else roundShift mode neg m (u - e).toNat

/-- The exponent of a significand's leading bit. -/
def topExp (m : Nat) (e : Int) : Int := e + m.log2

/-- The result on overflow (Table 6.7). -/
def Fmt.overflowCode (t : Fmt) (mode : Rnd) (neg : Bool) : Nat :=
  let toMax : Bool :=
    match mode with
    | .rne => false
    | .rz => true
    | .ru => neg
    | .rd => !neg
    | .rto => true
    | .sat => true
  if toMax || !(t.ieee || t.topNan) then t.signed neg t.maxCode
  else if t.ieee then t.signed neg t.infCode
  else t.nanCode

/-- A finite non-zero value rounded to a format, with the flags it sets (R170, R171, R176). -/
def Fmt.roundFin (t : Fmt) (mode : Rnd) (neg : Bool) (m : Nat) (e : Int) : Nat × Nat :=
  let emin : Int := 1 - (t.bias : Int)
  let f : Int := t.f
  let free := roundAt mode neg m e (topExp m e - f)
  let freeTop := topExp free.1 (topExp m e - f)
  let maxv := t.decode t.maxCode
  let tooBig : Bool :=
    match maxv with
    | .fin _ mm me =>
      let k := min me (topExp m e - f)
      decide (mm <<< (me - k).toNat < free.1 <<< (topExp m e - f - k).toNat)
    | _ => false
  if tooBig then (t.overflowCode mode neg, flOverflow + flInexact)
  else
    let u := max (topExp m e - f) (emin - f)
    let r := roundAt mode neg m e u
    let code := if r.1 < 2 ^ t.f then r.1 else ((topExp r.1 u + t.bias).toNat <<< t.f) + (r.1 >>> (r.1.log2 - t.f)) - 2 ^ t.f
    let tiny := decide (freeTop < emin)
    (t.signed neg code, (if r.2 then flInexact else 0) + (if r.2 && tiny then flUnderflow else 0))

/-- A value rounded to a format (R170, R171): the encoding and the flags. -/
def Fmt.round (t : Fmt) (mode : Rnd) (v : Val) : Nat × Nat :=
  match v with
  | .nan => if t.ieee || t.topNan then (t.nanCode, 0) else (0, flInvalid)
  | .inf neg =>
    if t.ieee then
      if mode = .sat then (t.signed neg t.maxCode, flOverflow + flInexact) else (t.signed neg t.infCode, 0)
    else if t.topNan && decide (mode ≠ .sat) then (t.nanCode, flInvalid)
    else (t.signed neg t.maxCode, flOverflow + flInexact)
  | .fin neg m e => if m = 0 then (t.signed neg 0, 0) else t.roundFin mode neg m e

/-! ### Exact arithmetic -/

def Val.isNan : Val → Bool
  | .nan => true
  | _ => false
def Val.isZero : Val → Bool
  | .fin _ 0 _ => true
  | _ => false
def Val.neg : Val → Val
  | .nan => .nan
  | .inf s => .inf (!s)
  | .fin s m e => .fin (!s) m e
def Val.abs : Val → Val
  | .nan => .nan
  | .inf _ => .inf false
  | .fin _ m e => .fin false m e
/-- Whether the sign bit is set. -/
def Val.sign : Val → Bool
  | .nan => false
  | .inf s => s
  | .fin s _ _ => s
/-- A value times a power of two. -/
def Val.scale (v : Val) (k : Int) : Val :=
  match v with
  | .fin s m e => .fin s m (e + k)
  | _ => v

/-- The signed significand at exponent `k`, for a finite value whose exponent is at least `k`. -/
def signedAt (s : Bool) (m : Nat) (e k : Int) : Int :=
  let x : Int := ((m <<< (e - k).toNat : Nat) : Int)
  if s then -x else x

/-- The exact sum, and whether the operation is invalid (∞ − ∞). An exact zero sum of values that are not both
negative zero is +0, or −0 in mode RD. -/
def Val.add (rd : Bool) (a b : Val) : Val × Bool :=
  match a, b with
  | .nan, _ => (.nan, false)
  | _, .nan => (.nan, false)
  | .inf s, .inf t => if s = t then (.inf s, false) else (.nan, true)
  | .inf s, _ => (.inf s, false)
  | _, .inf t => (.inf t, false)
  | .fin s m e, .fin t n f =>
    let k := min e f
    let x := signedAt s m e k + signedAt t n f k
    if x = 0 then (.fin (if m = 0 ∧ n = 0 ∧ s = t then s else rd) 0 0, false)
    else (.fin (decide (x < 0)) x.natAbs k, false)

/-- The exact product, and whether the operation is invalid (0 × ∞). -/
def Val.mul (a b : Val) : Val × Bool :=
  match a, b with
  | .nan, _ => (.nan, false)
  | _, .nan => (.nan, false)
  | .inf s, .inf t => (.inf (s != t), false)
  | .inf s, .fin t n _ => if n = 0 then (.nan, true) else (.inf (s != t), false)
  | .fin s m _, .inf t => if m = 0 then (.nan, true) else (.inf (s != t), false)
  | .fin s m e, .fin t n f => (.fin (s != t) (m * n) (e + f), false)

/-- The exact a × b + c. -/
def Val.fma (rd : Bool) (a b c : Val) : Val × Bool :=
  let p := a.mul b
  let r := p.1.add rd c
  (r.1, p.2 || r.2)

/-- Order of two numbers, −0 below +0 where `zeros` is set; none when either is NaN. -/
def Val.lt (zeros : Bool) (a b : Val) : Option Bool :=
  match a, b with
  | .nan, _ => none
  | _, .nan => none
  | .inf s, .inf t => some (s && !t)
  | .inf s, _ => some s
  | _, .inf t => some (!t)
  | .fin s m e, .fin t n f =>
    let k := min e f
    let x := signedAt s m e k
    let y := signedAt t n f k
    if x = 0 ∧ y = 0 then some (zeros && s && !t) else some (decide (x < y))

/-- Minimum and maximum (R175): NaN when either operand is. -/
def Val.min (a b : Val) : Val :=
  match Val.lt true b a with
  | none => .nan
  | some r => if r then b else a
def Val.max (a b : Val) : Val :=
  match Val.lt true a b with
  | none => .nan
  | some r => if r then b else a

/-- The integer square root of `n` by bits: `k` bits still to decide. -/
def isqrtAux (n : Nat) : Nat → Nat → Nat
  | 0, r => r
  | k + 1, r => let c := r + 2 ^ k; if c * c ≤ n then isqrtAux n k c else isqrtAux n k r
def isqrt (n : Nat) : Nat := isqrtAux n (n.log2 / 2 + 1) 0

/-- A square root to 64 bits below a format's last, with a sticky last bit: it rounds as the exact root does. -/
def Val.sqrt (a : Val) : Val × Bool :=
  match a with
  | .nan => (.nan, false)
  | .inf s => if s then (.nan, true) else (.inf false, false)
  | .fin s m e =>
    if m = 0 then (.fin s 0 0, false)
    else if s then (.nan, true)
    else
      let m' := if e % 2 = 0 then m else 2 * m
      let e' := if e % 2 = 0 then e else e - 1
      let n := m' <<< 128
      let r := isqrt n
      let r' := 2 * r + (if r * r = n then 0 else 1)
      (.fin false r' (e' / 2 - 65), false)

/-! ### XA96 (R168) -/

/-- A value rounded to 80 significand bits by round-to-odd. -/
def Val.rto80 (v : Val) : Val :=
  match v with
  | .fin s m e =>
    if m = 0 then .fin false 0 0
    else if m.log2 < 80 then v
    else
      let sh := m.log2 - 79
      .fin s (roundShift .rto s m sh).1 (e + sh)
  | _ => v

/-- The XA96 encoding of a value whose significand fits in 80 bits (Table 6.5). -/
def Val.xa96 (v : Val) : Nat :=
  match v with
  | .nan => 0x7FFFC0000000000000000000
  | .inf s => (if s then 2 ^ 95 else 0) + 0x7FFF * 2 ^ 80 + 2 ^ 79
  | .fin s m e =>
    if m = 0 then 0
    else (if s then 2 ^ 95 else 0) + (topExp m e + 16383).toNat * 2 ^ 80 + m <<< (79 - m.log2)

/-- The value of an XA96 encoding (R168). -/
def Val.ofXa96 (w : Nat) : Val :=
  let s := decide (w / 2 ^ 95 % 2 = 1)
  let e : Nat := w / 2 ^ 80 % 2 ^ 15
  let m := w % 2 ^ 80
  if e = 0x7FFF then if m = 2 ^ 79 then .inf s else .nan
  else .fin s m ((if e = 0 then 1 else (e : Int)) - 16462)

end Sys2Proof.Machine
end

