-- ==== Sys2Proof/Machine/Approx.lean ====
section
/-!
DEFINITION. The approximate functions of R138 and 2^x: their exact values to far more bits than any format holds, by
fixed-point series, and the results that an error bound admits.
-/

namespace Sys2Proof.Machine

open Sys2Proof

/-- ln 2 at 320 fraction bits, and 2π at 512. -/
def ln2Fix : Nat :=
  1480553391661173448385607439722553250922680800745876974795605978609098082859138712941075737848984
def twoPiFix : Nat :=
  84243741786901272438893642969118776210511994626978509211189370176207611564552197839587770744495452692887542593832666970654585833251198323084707548407665199

/-- Σ z^n ÷ n! from term `n`, whose value is `t`, at 320 fraction bits. -/
def expSeries (z : Nat) : Nat → Nat → Nat → Nat
  | 0, _, _ => 0
  | k + 1, n, t => t + expSeries z k (n + 1) (t * z / 2 ^ 320 / (n + 1))

/-- 2^a to about 300 bits. Beyond ±256 the value is far outside FP32, and any value there rounds alike. -/
def Val.exp2 (a : Val) : Val :=
  match a with
  | .nan => .nan
  | .inf s => if s then .fin false 0 0 else .inf false
  | .fin s m e =>
    if m = 0 then .fin false 1 0
    else if 8 ≤ topExp m e then .fin false 1 (if s then -400 else 400)
    else
      let x := signedAt s m e (-320)
      let f := (x % 2 ^ 320).toNat
      .fin false (expSeries (f * ln2Fix / 2 ^ 320) 90 0 (2 ^ 320)) (x / 2 ^ 320 - 320)

/-- Σ t^(2n+1) ÷ (2n+1) at 320 fraction bits; `p` is the power reached. -/
def atanhSeries (t2 : Nat) : Nat → Nat → Nat → Nat
  | 0, _, _ => 0
  | k + 1, n, p => p / (2 * n + 1) + atanhSeries t2 k (n + 1) (p * t2 / 2 ^ 320)

/-- log2 (m × 2^e) for m > 0. -/
def log2Val (m : Nat) (e : Int) : Val :=
  let one : Nat := 2 ^ 320
  let x := m <<< (320 - m.log2)
  let t := (x - one) * one / (x + one)
  let ln := 2 * atanhSeries (t * t / one) 110 0 t
  let r : Int := topExp m e * one + ((ln * one / ln2Fix : Nat) : Int)
  .fin (decide (r < 0)) r.natAbs (-320)

/-- Σ ± r^k ÷ k! over k = n, n + 2, …, at 512 fraction bits; `t` is the term reached. -/
def trigSeries (r2 : Int) : Nat → Nat → Int → Int
  | 0, _, _ => 0
  | k + 1, n, t => t + trigSeries r2 k (n + 2) (-(t * r2 / 2 ^ 512 / ((n + 1) * (n + 2) : Nat)))

/-- An angle in radians brought to within ±π, at 512 fraction bits. -/
def reduceAngle (s : Bool) (m : Nat) (e : Int) : Int :=
  let r := signedAt s m e (-512) % (twoPiFix : Int)
  if 2 * r ≤ (twoPiFix : Int) then r else r - twoPiFix

def fixVal (x : Int) : Val := .fin (decide (x < 0)) x.natAbs (-512)
def sinVal (s : Bool) (m : Nat) (e : Int) : Val :=
  let r := reduceAngle s m e
  fixVal (trigSeries (r * r / 2 ^ 512) 90 1 r)
def cosVal (s : Bool) (m : Nat) (e : Int) : Val :=
  let r := reduceAngle s m e
  fixVal (trigSeries (r * r / 2 ^ 512) 90 0 (2 ^ 512))

/-- 1 ÷ (± m × 2^e) and 1 ÷ √(m × 2^e) to about 190 bits, for m > 0. -/
def rcpVal (s : Bool) (m : Nat) (e : Int) : Val := .fin s (2 ^ (200 + m.log2) / m) (-(200 + m.log2 : Nat) - e)
def rsqVal (m : Nat) (e : Int) : Val :=
  let m' := if e % 2 = 0 then m else 2 * m
  let e' := if e % 2 = 0 then e else e - 1
  .fin false (isqrt (2 ^ 400 / m')) (-(e' / 2) - 200)

/-! ### The results that a bound admits -/

/-- FP32 codes in the order of their values, −0 before +0. -/
def ordOf (c : Nat) : Int := if 2 ^ 31 ≤ c then -1 - ((c - 2 ^ 31 : Nat) : Int) else c
def ofOrd (i : Int) : Nat := if i < 0 then (-1 - i).toNat + 2 ^ 31 else i.toNat

/-- The unit in the last place of FP32 at a value. -/
def ulp32 (m : Nat) (e : Int) : Val := .fin false 1 (if m = 0 then -149 else max (topExp m e - 23) (-149))

/-- The codes from x − d to x + d, as the first and the last in order; an overflow of the upper or lower end under RNE
admits the infinity. -/
def codeRange (x d : Val) : Int × Int :=
  let dn := (x.add false d.neg).1
  let up := (x.add false d).1
  let lo := if (fp32.round .rne dn).2 / 2 % 2 = 1 then (fp32.round .rne dn).1 else (fp32.round .ru dn).1
  let hi := if (fp32.round .rne up).2 / 2 % 2 = 1 then (fp32.round .rne up).1 else (fp32.round .rd up).1
  (ordOf lo, ordOf hi)

/-- The result of an approximate function within `d` of x, and its flags by that result: which of the admitted codes it
is, the hardware fixes for each function and operand (R138). -/
def approxCode (fn : Nat) (a : W32) (x d : Val) : Nat × Nat :=
  let r := codeRange x d
  let c := ofOrd (r.1 + ((Config.approxPick fn a % (r.2 - r.1 + 1).toNat : Nat) : Int))
  let mag := c % 2 ^ 31
  let exact := fp32.decode c
  let same := Val.lt false exact x == some false && Val.lt false x exact == some false
  (c, (if mag = fp32.infCode then flOverflow else 0) + (if mag < 2 ^ 23 && !same then flUnderflow else 0))

def scaleUlps (m : Nat) (e : Int) (k : Nat) : Val :=
  match ulp32 m e with
  | .fin _ _ u => .fin false k u
  | v => v

/-- Within two units in the last place. -/
def withinUlps (fn : Nat) (a : W32) (x : Val) : Nat × Nat :=
  match x with
  | .fin _ m e => approxCode fn a x (scaleUlps m e 2)
  | v => fp32.round .rne v

/-- The results of FRCP, FRSQ, FLOG2, FSIN and FCOS at an infinity and, but for the last two, at a zero, which are exact in IEEE 754:
1 ÷ ±0 and 1 ÷ √±0 are infinite, 1 ÷ ±∞ and 1 ÷ √+∞ are 0, the logarithm of 0 is −∞ and that of +∞ is +∞; an angle of ±∞ has no
sine, and gives NaN. Invalid is set where R176 names it, so by FRSQ and FLOG2 of −∞ alone (DEDUCED, log entry 91). -/
def approxEdge (fn : Nat) (v : Val) : Nat × Nat :=
  let neg := v.sign
  let zero := v.isZero
  if fn = 0x045 then (fp32.signed neg (if zero then fp32.infCode else 0), 0)
  else if fn = 0x046 then
    if zero then (fp32.signed neg fp32.infCode, 0) else if neg then (fp32.nanCode, flInvalid) else (0, 0)
  else if fn = 0x049 then
    if zero then (fp32.signed true fp32.infCode, 0) else if neg then (fp32.nanCode, flInvalid) else (fp32.infCode, 0)
  else (fp32.nanCode, 0)

/-- FRCP, FRSQ, FLOG2, FSIN, FCOS (R138, R176), by opcode. -/
def approxFn (fn : Nat) (a : W32) : Nat × Nat :=
  match fp32.decode a.toNat with
  | .nan => (fp32.nanCode, 0)
  | .inf s => approxEdge fn (.inf s)
  | .fin s m e =>
    if fn = 0x04A ∨ fn = 0x04B then
      let x := if fn = 0x04A then sinVal s m e else cosVal s m e
      let near := decide (2 * (m <<< (e + 512).toNat) ≤ twoPiFix)
      if near then withinUlps fn a x else approxCode fn a x (.fin false 1 (-22))
    else if m = 0 then approxEdge fn (.fin s m e)
    else if s && (fn == 0x046 || fn == 0x049) then (fp32.nanCode, flInvalid)
    else if fn = 0x045 then withinUlps fn a (rcpVal s m e)
    else if fn = 0x046 then withinUlps fn a (rsqVal m e)
    else withinUlps fn a (log2Val m e)

/-- FEXP2 (R138): 2^a correctly rounded by RNE; it sets overflow and underflow by its result, and never inexact. -/
def fexp2 (a : Nat) : Nat × Nat :=
  let r := fp32.round .rne (fp32.decode a).exp2
  (r.1, r.2 % 8)

end Sys2Proof.Machine
end

