-- ==== Sys2Proof/Machine/Fabric.lean ====
section
/-!
DEFINITION. Routing of packets between modules (R305, R50), injection at the source and the tags of data requests
(R300, R301, R304).
-/

namespace Sys2Proof.Machine

open Sys2Proof

/-- Packet operations (Table 12.6). -/
def opRead : Nat := 0x01
def opWrite : Nat := 0x02
def opReadData : Nat := 0x03
def opWriteAck : Nat := 0x04
def opRefuse : Nat := 0x05
def opSignal : Nat := 0x10
def opSignalAck : Nat := 0x11
def opRegister : Nat := 0x12
def opWake : Nat := 0x13
def opCounterRead : Nat := 0x14
def opValue : Nat := 0x15
def opTimeSync : Nat := 0x20
def opTimeReply : Nat := 0x21
def opMgmt : Nat := 0x30

/-- The group-phase virtual channel of an operation's class (Table 12.4); time and management have one channel each. -/
def baseVc (op : Nat) : Nat :=
  if op = opTimeSync ∨ op = opTimeReply then 6
  else if op = opMgmt then 7
  else if op = opRead ∨ op = opWrite then 0
  else if op = opSignal ∨ op = opRegister ∨ op = opWake ∨ op = opCounterRead then 4
  else 2

/-- What a route decision answers (R305): `discard` for a packet that has left its group, a misroute. -/
inductive Route where
  | deliver
  | send (port vc : Nat)
  | discard
  | noRoute
deriving DecidableEq, Repr

/-- The first of an entry's ports that is ACTIVE; an entry's valid bit is bit 16 (Routes, 2.4). -/
def State.routeEntry (s : State) (e : W32) (vc : Nat) : Route :=
  if !e.getLsbD 16 then .noRoute
  else
    let a := bitsOf e 5 0
    let b := bitsOf e 13 8
    if s.portActive a then .send a vc else if s.portActive b then .send b vc else .noRoute

/-- The route of a packet to module `dst` on channel `vc`, by the tables given (R305). -/
def State.route (s : State) (groups members : SMap W32) (dst op vc : Nat) : Route :=
  let me := s.moduleId
  if dst = me then .deliver
  else if dst / 256 = me / 256 then s.routeEntry (SMap.get 0 members (dst % 256)) (baseVc op + 1)
  else if vc = baseVc op + 1 then .discard
  else s.routeEntry (SMap.get 0 groups (dst / 256)) (baseVc op)

/-- The route of a packet that this module injects, by the tables in force at the module. -/
def State.routeOut (s : State) (dst op : Nat) : Route :=
  s.route s.cfg.groupRoutes s.cfg.memberRoutes dst op (baseVc op)

/-- A packet that this module sends, born now (Table 12.5). -/
def State.mkPacket (s : State) (dst op tag addr len seq vc : Nat) (data : List Byte) : Packet :=
  { dst := BitVec.ofNat 18 dst, op := BitVec.ofNat 6 op, src := BitVec.ofNat 18 s.moduleId,
    tag := BitVec.ofNat 32 tag, born := BitVec.ofNat 32 s.gtb.toNat, addr := BitVec.ofNat 64 addr,
    len := BitVec.ofNat 32 len, seq := BitVec.ofNat 32 seq, vc := BitVec.ofNat 3 vc, data := data }

/-- A packet injected for this module: sent on its route, or `false` where no route reaches the target. -/
def State.inject (s : State) (dst op tag addr len seq : Nat) (data : List Byte) : Bool × State :=
  match s.routeOut dst op with
  | .send port vc => (true, s.sendPacket port (s.mkPacket dst op tag addr len seq vc data))
  | .deliver => (true, s)
  | .discard => (false, s)
  | .noRoute => (false, s)

/-- The next source tag that the model gives a packet, and its successor. A tag has bit 30 set and bit 31 clear, so that it
is no stream ID (log entry 13). -/
def State.freshTag (s : State) : Nat := 2 ^ 30 + s.nextTag
def State.takeTag (s : State) : State := { s with nextTag := (s.nextTag + 1) % 2 ^ 30 }

/-- A remote data request of a unit: READ or WRITE, with a tag of its own. It waits in `remotes` until its
response comes (R301); where no route exists it is refused at once with reason 1, NO_ROUTE. -/
def State.request (s : State) (u : Unit) (grp : Option Nat) (dst op addr len : Nat) (data : List Byte) :
    Nat × State :=
  let tag := s.freshTag
  let pk := s.mkPacket dst op tag addr len 0 (baseVc op) data
  let s := s.takeTag
  let s := match s.routeOut dst op with
    | .send port _ => s.countBridges (s.unitDie u) (port / 9) data.length
    | .deliver => s
    | .discard => s
    | .noRoute => s
  let r := s.inject dst op tag addr len 0 data
  let rec0 : Remote := { pk := pk, sent := s.gtb, tries := 0, unit := some u, grp := grp,
                         refused := if r.1 then none else some 1 }
  (tag, { r.2 with remotes := SMap.set none r.2.remotes tag (some rec0) })

/-- A signal-class packet that waits for its answer under `key`, and is resent until it comes (R301). -/
def State.ask (s : State) (key dst op tag addr len seq : Nat) (data : List Byte) : State :=
  let pk := s.mkPacket dst op tag addr len seq (baseVc op) data
  let r := s.inject dst op tag addr len seq data
  let rec0 : Remote := { pk := pk, sent := s.gtb, tries := 0, unit := none }
  { r.2 with remotes := SMap.set none r.2.remotes key (some rec0) }

/-- The key of a signal of a stream that waits for its acknowledgement, whose tag is the stream ID (Table 12.5). -/
def sigKey (stream seq : W32) : Nat := (seq.toNat + 1) * 2 ^ 32 + stream.toNat

/-- The tag of this module's registration at the owner of system counter `i`. -/
def registerTag (i : Nat) : Nat := 2 ^ 29 + i

/-- The remote read that a unit has outstanding or answered for an address. -/
def State.findRead (s : State) (u : Unit) (grp : Option Nat) (dst addr len : Nat) : Option (Nat × Remote) :=
  s.remotes.findSome? fun (tag, r) =>
    match r with
    | none => none
    | some r =>
      if r.unit = some u && r.grp = grp && r.pk.op.toNat == opRead && r.pk.dst.toNat == dst &&
          r.pk.addr.toNat == addr && r.pk.len.toNat == len then some (tag, r) else none

def State.dropRemote (s : State) (tag : Nat) : State := { s with remotes := SMap.set none s.remotes tag none }

/-- What a unit's remote read is at: not answered yet, refused, or answered with its data. -/
inductive RemoteRead where
  | waiting (tag : Nat)
  | refused (reason : Nat)
  | data (bytes : List Byte)

/-- A unit's remote read of at most 4,096 bytes: the first attempt sends READ, and a later one finds the
response (R300, R303). -/
def State.remoteRead (s : State) (u : Unit) (grp : Option Nat) (dst addr len : Nat) : RemoteRead × State :=
  match s.findRead u grp dst addr len with
  | some (tag, r) =>
    match r.resp, r.refused with
    | some d, _ =>
      let s := s.dropRemote tag
      let s := match unitCore u with
        | some l => s.addCount .CORE_CNT_LO (s.physOf l) 6 len
        | none => s
      (.data d, s)
    | none, some why => (.refused why, s.dropRemote tag)
    | none, none => (.waiting tag, s)
  | none =>
    let r := s.request u grp dst opRead addr len []
    match SMap.get none r.2.remotes r.1 with
    | some x =>
      match x.refused with
      | some why => (.refused why, r.2.dropRemote r.1)
      | none => (.waiting r.1, r.2)
    | none => (.waiting r.1, r.2)

end Sys2Proof.Machine
end

