-- ==== Sys2Proof/Machine/Signals.lean ====
section
/-!
DEFINITION. Counters, signals, waits and barrier slots as operations (11.1 to 11.5): handles, homes, the effect of
a signal at its home, delivery records, registrations, counter triggers and the completion of a phase.
-/

namespace Sys2Proof

/-- The code of a signal kind (Table 11.4). -/
def SigKind.code : SigKind → Nat
  | .add => 0
  | .raise => 1
  | .arrive => 2

end Sys2Proof

namespace Sys2Proof.Machine

open Sys2Proof

/-! ### Handles and homes -/

/-- Scope of a handle (Table 11.2). -/
def handleScope (h : Nat) : Nat := natBits h 23 22
/-- Index field of a handle, wide enough for every scope. -/
def handleIndex (h : Nat) : Nat := natBits h 21 0

/-- The index of a counter in counter space, as the number of its 8-byte word (Table 11.3), for a handle used on
logical core `l`. -/
def counterOf (l h : Nat) : Nat :=
  match handleScope h with
  | 0 => l * 256 + handleIndex h
  | 1 => 0x40000 + (l / 48) * 4096 + handleIndex h
  | 2 => 0x60000 + handleIndex h
  | _ => 0x80000 + handleIndex h

/-- The scope and index of a counter-space word, none where no counter lies there. -/
def counterScope (k : Nat) : Option (Nat × Nat) :=
  if k < 768 * 256 then some (0, k % 256)
  else if 0x40000 ≤ k ∧ k < 0x40000 + 16 * 4096 then some (1, (k - 0x40000) % 4096)
  else if 0x60000 ≤ k ∧ k < 0x60000 + 16384 then some (2, k - 0x60000)
  else if 0x80000 ≤ k ∧ k < 0x80000 + 4096 then some (3, k - 0x80000)
  else none

/-- The home of a counter (Table 11.1): Chimney node of a die, 0x10000 + logical core, 0x20000 + cluster. -/
def counterHome (k : Nat) : Nat :=
  match counterScope k with
  | some (0, _) => 0x10000 + k / 256
  | some (1, i) => 0x20000 + ((k - 0x40000) / 4096) * 6 + i % 6
  | some (2, i) => i / 4096
  | some (_, i) => i / 1024
  | none => 0

/-- The owner of system counter `i`, when its directory entry is valid (Table 11.21). -/
def State.sysOwner (s : State) (i : Nat) : Option Nat :=
  let w := s.reg .FCH_SYSDIR i
  if w.getLsbD 31 then some (bitsOf w 17 0) else none

/-- The module that owns counter `k`, when another module does (R271). -/
def State.ownerElsewhere (s : State) (k : Nat) : Option Nat :=
  match counterScope k with
  | some (3, i) =>
    match s.sysOwner i with
    | some m => if m = s.moduleId then none else some m
    | none => none
  | _ => none

/-- The die of a counter's home in this module (Table 11.1). -/
def counterDie (k : Nat) : Nat :=
  let h := counterHome k
  if h < 0x10000 then h else if h < 0x20000 then (h - 0x10000) / 192 else (h - 0x20000) / 24

/-- The Chimney node of a die is awake: its domain, the die uncore, is ON. Signals, waits and loads that need it stall until then
(R366). -/
def State.nodeAwake (s : State) (die : Nat) : Bool := s.domainState (16 + die) == pwOn

/-- No bit shown as zero is set in a handle, its index lies in its scope, and a system counter has a valid directory entry
(R272, Table 11.2). -/
def State.goodHandle (s : State) (h : Nat) : Bool :=
  let i := handleIndex h
  match handleScope h with
  | 0 => decide (i < 256)
  | 1 => decide (i < 4096)
  | 2 => decide (i < 16384)
  | _ => decide (i < 4096) && (s.sysOwner i).isSome

/-- A handle of a partition: no bit shown as zero is set, its index lies in the partition's range for its scope,
and a system counter's directory entry is valid (R272). -/
def State.validHandle (s : State) (p h : Nat) : Bool :=
  let i := handleIndex h
  match s.partCfg p with
  | none => false
  | some c =>
    match handleScope h with
    | 0 => decide (i < 256)
    | 1 => decide (c.rgnBase ≤ i) && decide (i < c.rgnBase + c.rgnCount) && decide (i < 4096)
    | 2 => decide (c.modBase ≤ i) && decide (i < c.modBase + c.modCount) && decide (i < 16384)
    | _ => decide (c.sysBase ≤ i) && decide (i < c.sysBase + c.sysCount) && decide (i < 4096) &&
        (s.sysOwner i).isSome

/-- A barrier slot handle of a partition (Table 11.2, R37). -/
def State.validSlot (s : State) (p h : Nat) : Bool :=
  match s.partCfg p with
  | none => false
  | some c => decide (handleScope h = 2) && decide (handleIndex h < 64) &&
      decide (c.barBase ≤ handleIndex h) && decide (handleIndex h < c.barBase + c.barCount)

/-- A counter of counter space is one that a partition addresses: its own cores', regions' and ranges (R37). -/
def State.ownsCounter (s : State) (p k : Nat) : Bool :=
  match counterScope k with
  | none => false
  | some (0, _) => s.partOf (k / 256) == some p
  | some (1, i) => s.inRegion p ((k - 0x40000) / 4096) && s.validHandle p (0x400000 + i)
  | some (2, i) => s.validHandle p (0x800000 + i)
  | some (_, i) => s.validHandle p (0xC00000 + i)

/-- The handle that names a counter of module or system scope, or the index alone for other scopes. -/
def handleOf (k : Nat) : Nat :=
  match counterScope k with
  | some (sc, i) => sc <<< 22 + i
  | none => 0

/-! ### Signals at their home -/

/-- The value of a counter that this module holds. -/
def State.value (s : State) (k : Nat) : W64 := (s.counter k).value

/-- The counter after an ADD or a RAISE (Table 11.4). The last signaller is noted when the counter changes. -/
def Counter.apply (c : Counter) (kind : SigKind) (x : W64) (src : W32) (t : W64) : Counter :=
  let v := c.value.toNat
  let sum := v + x.toNat
  let v' : W64 :=
    match kind with
    | .add => if sum < 2 ^ 64 then BitVec.ofNat 64 sum else BitVec.allOnes 64
    | .raise => if v < x.toNat then x else c.value
    | .arrive => c.value
  let sat := c.sat || (decide (kind = .add) && decide (2 ^ 64 ≤ sum))
  if v' = c.value then { c with sat := sat }
  else { c with value := v', sat := sat, lastSrc := src, lastTime := t }

/-- The registrations that value `v` satisfies are so from now on (R278): the value that satisfied each is kept for its wake. -/
def Counter.meet (c : Counter) (v : W64) : Counter :=
  { c with waiters := c.waiters.map fun w =>
      if w.met.isNone && decide (w.expected.toNat ≤ v.toNat) then { w with met := some v } else w }

/-- A trigger fires: its vector is sent and ARM clears (R316). -/
def State.fireTrigger (s : State) (fn vec : Nat) : State :=
  (s.setField .TRIG_CFG fn vec 31 31 0).msix fn vec

/-- A trigger may name its counter: a valid handle of module or system scope, in its function's partition for a virtual function,
and a vector that the function has for triggers (R272, R316, Table 12.13). -/
def State.triggerOk (s : State) (fn vec h : Nat) : Bool :=
  decide (2 ≤ handleScope h) &&
  (if fn = 0 then decide (4 ≤ vec) && s.goodHandle h
   else decide (8 ≤ vec) && decide (vec < 120) && s.validHandle (fn - 1) h)

/-- A trigger tested against a value of its counter (R316). -/
def State.testTriggerAt (s : State) (fn vec : Nat) (v : W64) : State :=
  let w := s.reg .TRIG_CFG fn vec
  if w.getLsbD 31 && s.triggerOk fn vec (bitsOf w 23 0) && decide (s.pair .TRIG_LO .TRIG_HI fn vec ≤ v.toNat) then
    s.fireTrigger fn vec
  else s

/-- The triggers that name a counter: register keys of armed TRIG_CFG words. -/
def State.triggersOn (s : State) (k : Nat) : List (Nat × Nat) :=
  (s.regs.filter fun e => e.1 / 2 ^ 24 == RegName.TRIG_CFG.ctorIdx && e.2.getLsbD 31 &&
      counterOf 0 (bitsOf e.2 23 0) == k).map fun e => (e.1 / 2 ^ 12 % 2 ^ 12, e.1 % 2 ^ 12)

/-- The home tests every trigger on a counter, as it does on every signal (R316). -/
def State.testTriggers (s : State) (k : Nat) (v : W64) : State :=
  (s.triggersOn k).foldl (fun s (t : Nat × Nat) => s.testTriggerAt t.1 t.2 v) s

/-- A counter's value reaches the waiters and triggers of this module. -/
def State.meetAll (s : State) (k : Nat) (v : W64) : State :=
  (s.setCounter k ((s.counter k).meet v)).testTriggers k v

/-- A signal applied to a counter that this module holds, at the time of its home's die (R357). -/
def State.bumpCounter (s : State) (k : Nat) (kind : SigKind) (x : W64) (src : W32) : State :=
  let c := (s.counter k).apply kind x src (s.gtb (counterDie k))
  (s.setCounter k c).meetAll k c.value

/-- A signal that no owner takes: both ends record it (R277). -/
def State.signalRefused (s : State) (h from? why : Nat) : State :=
  s.ashNow (s.srcChimney 0) 0x0C 0 0xFF 0 0xFFFF 0 h 1 (why + from? * 2 ^ 8)

/-- A signal of a source that belongs to no stream: the Stoker, the Chimney, a doorbell. It is applied at once at this module; a
system counter of another owner gets it under a tag of its own, with its source number (R275, R277, log entries 14, 28); one whose
directory entry is not valid has no owner, and refuses it (R277). -/
def State.signalNow (s : State) (src : W32) (k : Nat) (kind : SigKind) (x : W64) : State :=
  match s.ownerElsewhere k with
  | some m =>
    s.takeTag.ask s.freshTag m opSignal s.freshTag (handleOf k + kind.code <<< 24) 12 0 (leBytes 8 x.toNat ++ leBytes 4 src.toNat)
  | none =>
    match counterScope k with
    | some (3, i) => if (s.sysOwner i).isSome then s.bumpCounter k kind x src else s.signalRefused (handleOf k) s.moduleId 4
    | _ => s.bumpCounter k kind x src

/-- Delivery records held at a home (R276). -/
def State.recordsAt (s : State) (home : Nat) : Nat := (s.deliveries.filter fun d => d.home == home).length
/-- The number of delivery records of one home (R276). -/
def deliveryDepth : Nat := 4096

/-- A home has applied an ADD of a stream of this module, or of module `m`. -/
def State.delivered (s : State) (home : Nat) (stream seq : W32) (m : Option Nat) : Bool :=
  s.deliveries.any fun d => d.home == home && d.stream == stream && d.seq == seq && d.module == m

/-- The source stream hears that a signal is acknowledged: the signal leaves the stream's list and its
instruction's (R274, R275). -/
def State.ackStream (s : State) (stream seq : W32) : State :=
  let st := s.stream stream.toNat
  let s := s.setStream stream.toNat { st with sent := st.sent.filter fun g => g.msg.seq != seq }
  if stream.getLsbD 31 then s
  else
    s.modQueue (bitsOf stream 25 16) (bitsOf stream 3 0) fun q =>
      { q with entries := q.entries.map fun e => { e with unacked := e.unacked.filter (· != seq) } }

/-- The outcome of a signal at its home. -/
inductive SigOutcome where
  | applied | duplicate | held | refused
deriving DecidableEq, Repr

/-- What the home makes of a signal (R276, R277): an ADD already recorded is a duplicate; one that finds no free
record is held at its source, and so is a signal whose home's domain is not ON (R366); a system counter that this module does not own is refused. -/
def State.sigOutcome (s : State) (m : SigMsg) (from? : Option Nat := none) : SigOutcome :=
  match counterScope m.ctr with
  | none => .refused
  | some (sc, i) =>
    if sc = 3 && s.sysOwner i != some s.moduleId then .refused
    else if !s.nodeAwake (counterDie m.ctr) then .held
    else
      match m.kind, m.stream with
      | .add, some st =>
        if s.delivered (counterHome m.ctr) st m.seq from? then .duplicate
        else if deliveryDepth ≤ s.recordsAt (counterHome m.ctr) then .held
        else .applied
      | _, _ => .applied

/-- A signal applied at its home, with the record that an ADD leaves (R276). -/
def State.deliver (s : State) (m : SigMsg) (from? : Option Nat := none) : State :=
  let s := match m.kind, m.stream with
    | .add, some st =>
      { s with deliveries := s.deliveries ++
          [({ home := counterHome m.ctr, stream := st, seq := m.seq, module := from? } : Delivery)] }
    | _, _ => s
  s.bumpCounter m.ctr m.kind m.operand m.src

/-- A release of a stream at `seq` covers sequence number `x`. Sequence numbers of queues and control cores wrap, and are compared
within half their range; a block's stream is released as a whole, with its record (R276, R337). -/
def released (stream seq x : W32) : Bool := stream.getLsbD 31 || decide ((seq - x).toNat < 2 ^ 31)

/-- The records of a stream of this module, or of module `m`, that a release covers are discarded (R276). -/
def State.discardRecords (s : State) (m : Option Nat) (stream seq : W32) : State :=
  { s with deliveries := s.deliveries.filter fun d => !(d.module == m && d.stream == stream && released stream seq d.seq) }

/-- The kind field of the packet that carries a release to another module's homes (log entry 81). -/
def kindRelease : Nat := 3

/-- A stream released up to a sequence number: its homes discard the matching records, in this module and in every module that
holds some (R276). -/
def State.release (s : State) (stream seq : W32) : State :=
  let s := s.discardRecords none stream seq
  let st := s.stream stream.toNat
  let s := s.setStream stream.toNat { st with away := st.away.filter fun a => !released stream seq a.2 }
  (st.away.map (·.1)).eraseDups.foldl (fun s m =>
    s.takeTag.ask s.freshTag m opSignal s.freshTag (kindRelease <<< 24) 8 0 (leBytes 4 stream.toNat ++ leBytes 4 seq.toNat)) s

/-! ### Waits -/

/-- Registrations that one home holds (R278). -/
def waitDepth : Nat := 8192
/-- Registrations at a home: a counter that another module owns has its home there (R278). -/
def State.waitsAt (s : State) (home : Nat) : Nat :=
  (s.counters.map fun e =>
    if counterHome e.1 = home && (s.ownerElsewhere e.1).isNone then e.2.waiters.length else 0).foldl (· + ·) 0

/-- A wait registered at a counter, once for each waiter and value. -/
def State.addWaiter (s : State) (w : Wait) (k : Nat) : State :=
  let c := s.counter k
  if c.waiters.any fun y => decide (y.who = w.who) && y.expected == w.expected then s
  else s.setCounter k { c with waiters := c.waiters ++ [w] }

/-- The lesser of two values, one of which may be absent. -/
def lesser (m : Option W64) (x : W64) : Option W64 :=
  match m with
  | none => some x
  | some y => if x.toNat < y.toNat then some x else some y

/-- The source number of a waiter of this module (R283): an engine of its core, the grate scheduler for a grate queue. -/
def State.waiterSrc (s : State) : Waiter → W32
  | .cc l => s.srcCore l 0
  | .group l _ => s.srcCore l 1
  | .entry l q _ => if 4 ≤ q.val then s.srcSched (q.val - 4) else s.srcCore l (q.val + 1)
  | .module m => sourceNo m.toNat 0 0 7 15 7

/-- The source number under which a registration is listed (R283): another module's bears that of its first waiting unit. -/
def State.waitSrc (s : State) (w : Wait) : W32 :=
  match w.who with
  | .module _ => w.src
  | _ => s.waiterSrc w.who

/-- The lowest value that a waiter or an armed trigger of this module waits for at counter `k`: what the module registers at
another owner (R278, log entry 27). -/
def State.lowestWait (s : State) (k : Nat) : Option W64 :=
  let m := ((s.counter k).waiters.filter fun w => w.met.isNone).foldl (fun m w => lesser m w.expected) none
  (s.triggersOn k).foldl (fun m t => lesser m (BitVec.ofNat 64 (s.pair .TRIG_LO .TRIG_HI t.1 t.2))) m

/-- The wait with which this module stands at the owner of a system counter: REGISTER with the lowest waiter's value, and the
source number of its first waiting unit (R278, R283). -/
def State.registerOut (s : State) (k owner : Nat) : State :=
  match s.lowestWait k with
  | none => s
  | some x =>
    let tag := registerTag (handleIndex (handleOf k))
    let src := match (s.counter k).waiters.find? fun w => w.met.isNone with
      | some w => s.waitSrc w
      | none => s.srcChimney (counterDie k)
    s.ask tag owner opRegister tag (handleOf k) 12 0 (leBytes 8 x.toNat ++ leBytes 4 src.toNat)

/-- The trigger on a counter is tested on arming (R316): at its home here, or by a registration at another owner. -/
def State.testTrigger (s : State) (fn vec : Nat) : State :=
  let w := s.reg .TRIG_CFG fn vec
  let k := counterOf 0 (bitsOf w 23 0)
  match s.ownerElsewhere k with
  | none => s.testTriggerAt fn vec (s.value k)
  | some m => if w.getLsbD 31 && s.triggerOk fn vec (bitsOf w 23 0) then s.registerOut k m else s

/-- A wait not satisfied registers at its home; where no registration is free it asks again later (R278). -/
def State.registerWait (s : State) (w : Wait) (k : Nat) : State :=
  match s.ownerElsewhere k with
  | some m => (s.addWaiter w k).registerOut k m
  | none =>
    if s.waitsAt (counterHome k) < waitDepth then s.addWaiter w k
    else if s.retries.any fun r => r.1 == k && decide (r.2.who = w.who) && r.2.expected == w.expected then s
    else { s with retries := s.retries ++ [(k, w)] }

/-- The directory names an owner for system counter `k` (R289): the waits of this module stand at that owner from now on. -/
def State.ownerChanged (s : State) (k : Nat) : State :=
  let s := s.dropRemote (registerTag (handleIndex (handleOf k)))
  match s.ownerElsewhere k with
  | some m => s.registerOut k m
  | none => s.meetAll k (s.value k)

/-- The registrations and retries of a waiter removed. -/
def State.dropWaiter (s : State) (w : Waiter) : State :=
  let s := { s with retries := s.retries.filter fun r => r.2.who ≠ w }
  (s.counters.map (·.1)).foldl (fun s k =>
    let c := s.counter k
    s.setCounter k { c with waiters := c.waiters.filter fun x => x.who ≠ w }) s

/-- Where a waiter is registered: counter and registration, one that is satisfied before one that is not. -/
def State.waitOf (s : State) (w : Waiter) : Option (Nat × Wait) :=
  let at' (ok : Wait → Bool) : Option (Nat × Wait) :=
    s.counters.findSome? fun e => (e.2.waiters.find? fun x => decide (x.who = w) && ok x).map fun x => (e.1, x)
  match at' fun x => x.met.isSome with
  | some r => some r
  | none => at' fun _ => true

/-! ### Barrier slots -/

/-- The participant mask of a slot (Table 11.18). -/
def State.slotMask (s : State) (t : Nat) : BitVec 1024 :=
  (List.range 32).foldl (fun (m : BitVec 1024) w =>
    m ||| BitVec.ofNat 1024 ((s.reg .FCH_SLOT_MASK t w).toNat <<< (32 * w))) 0

/-- The slot of an arrival handle. -/
def State.slotEnabled (s : State) (t : Nat) : Bool := (s.reg .FCH_SLOT_CFG t).getLsbD 31
def State.slotGroup (s : State) (t : Nat) : Bool := (s.reg .FCH_SLOT_CFG t).getLsbD 30
def State.slotParent (s : State) (t : Nat) : Bool := (s.reg .FCH_SLOT_CFG t).getLsbD 29

/-- The bit that an arrival sets (R281), none where the slot refuses the arrival's kind or module. -/
def State.arrivalBit (s : State) (t : Nat) : Arrival → Option Nat
  | .core l => if s.slotGroup t then none else some l
  | .child m i =>
    if !s.slotGroup t then none
    else
      let e := s.reg .FCH_GROUP (s.field .FCH_SLOT_CFG t 0 11 0 + i.val)
      if e.getLsbD 31 && bitsOf e 17 0 == m.toNat then some i.val else none

/-- An arrival recorded or refused (Table 11.8), before the slot evaluates itself. -/
def State.arrive (s : State) (t : Nat) (a : Arrival) (p : W64) : State :=
  let b := s.barrier t
  let mask := s.slotMask t
  let refuse := (s.bumpField .FCH_SLOT_STATUS t 0 31 16 1).ashNow (s.srcChimney (t / 16)) 0x11 0 0xFF t 0xFFFF 0
    p.toNat 1
  match s.arrivalBit t a with
  | none => refuse
  | some k =>
    if !s.slotEnabled t || !mask.getLsbD k || decide (b.phase.toNat + 1 < p.toNat) then refuse
    else if p.toNat < b.phase.toNat then s
    else if p = b.phase then s.setBarrier t { b with cur := b.cur ||| BitVec.twoPow 1024 k }
    else s.setBarrier t { b with nxt := b.nxt ||| BitVec.twoPow 1024 k }

/-- The arrivals for the current phase cover the mask of an enabled slot whose mask is not empty (R282). -/
def State.phaseDone (s : State) (t : Nat) : Bool :=
  s.slotEnabled t && decide (s.slotMask t ≠ 0) && decide (s.slotMask t &&& ~~~(s.barrier t).cur = 0)

/-- The partition whose barrier slots include slot `t` (R37). -/
def State.slotPart (s : State) (t : Nat) : Option Nat :=
  (List.range 16).find? fun p => match s.partCfg p with
    | none => false
    | some c => decide (c.barBase ≤ t) && decide (t < c.barBase + c.barCount)

/-- The RAISE of a slot's completion counter (R282). A handle that is not valid under R272 raises nothing, and the refusal is
recorded (log entry 82). -/
def State.raiseComp (s : State) (t h : Nat) (v : W64) : State :=
  let ok := decide (2 ≤ handleScope h) && (match s.slotPart t with
    | some p => s.validHandle p h
    | none => s.goodHandle h)
  if h = 0 then s
  else if ok then s.signalNow (s.srcChimney (t / 16)) (counterOf 0 h) .raise v
  else s.signalRefused h s.moduleId 4

/-- A slot evaluates itself (R282): while the current phase is complete it passes to its parent, raises its
completion counter and advances. A parent slot of this module takes the arrival and evaluates itself in turn.
`fuel` bounds the phases that complete at one evaluation. -/
def State.evalSlot : Nat → Nat → State → State
  | 0, _, s => s
  | fuel + 1, t, s =>
    if !s.phaseDone t then s
    else
      let b := s.barrier t
      let pslot := s.field .FCH_SLOT_PARENT t 0 23 18
      let pmod := s.field .FCH_SLOT_PARENT t 0 17 0
      let index := s.field .FCH_SLOT_INDEX t 0 9 0
      let h := s.field .FCH_SLOT_COMP t 0 23 0
      let s1 :=
        if !s.slotParent t then s
        else if pmod = s.moduleId then
          s.arrive pslot (.child (BitVec.ofNat 18 pmod) (Fin.ofNat 1024 index)) b.phase
        else s.takeTag.ask s.freshTag pmod opSignal s.freshTag (0x2800000 + pslot) 8 index (leBytes 8 b.phase.toNat)
      let s2 := s1.raiseComp t h (b.phase + 1)
      let s3 := s2.setBarrier t { phase := b.phase + 1, cur := b.nxt, nxt := 0 }
      let s4 := if s.slotParent t && pmod == s.moduleId then State.evalSlot fuel pslot s3 else s3
      State.evalSlot fuel t s4

/-- Enough for every slot to complete both of its phases along a chain of parents. -/
def slotFuel : Nat := 130

def State.evaluate (s : State) (t : Nat) : State := State.evalSlot slotFuel t s

end Sys2Proof.Machine
end

