-- ==== Sys2Proof/Machine/Csr.lean ====
section
/-!
DEFINITION. Registers as agents see them: access rights (R382), the plain effect of a write (R9, R377, R379), the
value and the side effects of a read (R9, R380), and the values that status registers show of the state.
-/

namespace Sys2Proof.Machine

open Sys2Proof

/-! ### Agents and rights -/

/-- A number for an agent, under which its shadows are kept (R380). -/
def agentKey : Agent → Nat
  | .cc l => l
  | .pf0 => 1000
  | .vf p => 1001 + p
  | .stoker => 1100
  | .debug => 1101

/-- The partition that an agent acts for. -/
def State.agentPart (s : State) : Agent → Option Nat
  | .cc l => s.partOf l
  | .vf p => some p
  | _ => none

/-- A partition owns barrier slot `t` (R37). -/
def State.ownsSlot (s : State) (p t : Nat) : Bool :=
  match s.partCfg p with
  | none => false
  | some c => decide (c.barBase ≤ t) && decide (t < c.barBase + c.barCount)

/-- Registers that a virtual function's window opens to it (Table 12.11); MOD_LOSS_CFG too accepts its writes (R354). -/
def State.inWindow (s : State) (p : Nat) (r : RegRef) : Bool :=
  match r.name with
  | .STO_KS_ADDR_LO | .STO_KS_ADDR_HI | .STO_KS_LEN | .STO_KS_CTRL | .STO_KS_STATUS | .STO_KS_SEQ => r.i == p
  | .MOD_XLT_CTX_LO | .MOD_XLT_CTX_HI | .MOD_XLT_S2_LO | .MOD_XLT_S2_HI | .MOD_XLT_PIN_LO | .MOD_XLT_PIN_HI
  | .MOD_XLT_SWAP | .MOD_XLT_INV | .MOD_XLT_FR_LO | .MOD_XLT_FR_HI | .MOD_XLT_FR_CTRL | .MOD_XLT_FR_HEAD
  | .MOD_XLT_RESOLVE => r.i == p
  | .MOD_GOLD_CTRL | .MOD_GOLD_STATUS => r.i == p
  | .FCH_VIEW_WHERE | .FCH_VIEW_SEL | .FCH_VIEW_STATE | .FCH_VIEW_VALUE_LO | .FCH_VIEW_VALUE_HI
  | .FCH_VIEW_LAST_SRC | .FCH_VIEW_LAST_TIME_LO | .FCH_VIEW_LAST_TIME_HI | .FCH_VIEW_WAITER => true
  | .FCH_SLOT_CFG | .FCH_SLOT_COMP | .FCH_SLOT_PARENT | .FCH_SLOT_INDEX | .FCH_SLOT_MASK
  | .FCH_SLOT_PHASE_LO | .FCH_SLOT_PHASE_HI | .FCH_SLOT_STATUS => s.ownsSlot p r.i
  | .DB_CFG | .DB_RING_LO | .DB_RING_HI => r.i == p
  | .TRIG_CFG | .TRIG_LO | .TRIG_HI => r.i == p + 1 && decide (8 ≤ r.j) && decide (r.j < 120)
  | .MOD_LOSS_CFG => r.i == p
  | _ => false

/-- The register's description opens it to partition `p` (R382, and each register's chapter). -/
def State.openTo (s : State) (p : Nat) (r : RegRef) : Bool :=
  match r.name.place.writers with
  | .stoker => false
  | .pf => false
  | .part => r.i == p
  | .partj => r.j == p && s.inRegion p r.i
  | .core => s.partOfCluster (r.i / 9) == some p
  | .mailbox => r.i == p
  | .view => true
  | .slot => s.ownsSlot p r.i
  | .trig => false

/-- May the agent write the register (R382)? A write that may not is ignored. A host function reaches the module while its link is up
(R312, R318). -/
def State.mayWrite (s : State) (a : Agent) (r : RegRef) : Bool :=
  r.exists? &&
  match a with
  | .stoker => true
  | .debug => true
  | .pf0 => s.hostPort.isSome && !decide (r.name.place.writers = .stoker)
  | .vf p => s.hostPort.isSome && s.inWindow p r && (s.openTo p r || decide (r.name.place.writers = .trig))
  | .cc l =>
    match s.partOf l with
    | none => false
    | some p => s.openTo p r

/-! ### Writes -/

/-- The register's word replaced, with the pair's low word taking effect when its high word is written (R379). -/
def State.storeReg (s : State) (r : RegRef) (w : W32) : State :=
  let s := s.setReg r.name r.i r.j w
  match r.name.rwLow with
  | none => s
  | some lo =>
    { s with effLo := SMap.set 0 s.effLo ({ r with name := lo } : RegRef).key (s.reg lo r.i r.j) }

def State.regOf (s : State) (r : RegRef) : W32 := s.reg r.name r.i r.j

/-- A plain write of a register with no further effect: RW bits take the value, W1C bits clear, W1S bits set, and
values that the description says are ignored leave their field (R9). -/
def State.plainWrite (s : State) (r : RegRef) (v : W32) : State :=
  s.storeReg r (r.name.keepAllowed (s.regOf r) (r.name.written (s.regOf r) v))

/-- The forms in which a register is written (R378). -/
inductive WriteForm where
  | plain | setBits | clearBits | toggleBits
deriving DecidableEq, Repr

/-- The value that a write of form `f` gives a register's RW bits (R378). -/
def WriteForm.value (f : WriteForm) (old v : W32) : W32 :=
  match f with
  | .plain => v
  | .setBits => old ||| v
  | .clearBits => old &&& ~~~v
  | .toggleBits => old ^^^ v

/-- The word that a register write of form `f` hands to the register: an alias reaches RW fields only, and only a
register with such a field has aliases (R378). -/
def RegRef.operand (r : RegRef) (f : WriteForm) (old v : W32) : W32 :=
  match f with
  | .plain => v
  | _ => f.value old v &&& r.name.maskOf .rw

/-! ### What status registers show -/

/-- The number of groups resident on a core, and of those halted by a fault (Table 4.9b). -/
def VE.resident (v : VE) : Nat := (v.groups.filter fun e => e.2.any fun g => decide (g.status ≠ .ended)).length
def VE.haltedGroups (v : VE) : Nat :=
  (v.groups.filter fun e => match e.2 with
    | some g => (match g.status with | .halted _ => true | _ => false)
    | none => false).length
def VE.gridBits (v : VE) : Nat :=
  v.grids.foldl (fun m e => if e.2.isSome then m ||| (1 <<< e.1) else m) 0

/-- Instruction records that a core's queues hold (R333). -/
def Core.recordsHeld (c : Core) : Nat := c.queues.foldl (fun n e => n + e.2.entries.length) 0
/-- Free instruction records of a cluster (Table 13.11). -/
def State.freeRecords (s : State) (c : Nat) : Nat :=
  1536 - (List.range 8).foldl (fun n i => n + (s.core (8 * c + i)).recordsHeld) 0
/-- Block records in use, and free, in a cluster. -/
def Cluster.blocksHeld (x : Cluster) : Nat := (x.blocks.filter fun e => e.2.isSome).length
def State.freeBlocks (s : State) (c : Nat) : Nat := 256 - (s.cluster c).blocksHeld

/-- The number of bits set. -/
def popcount (n : Nat) : Nat → Nat
  | 0 => 0
  | k + 1 => popcount n k + (n >>> k) % 2

/-- Busy engines of a stack (Table 8.9). -/
def Stack.busyBits (k : Stack) : Nat :=
  k.engines.foldl (fun m e => if e.2.isSome then m ||| (1 <<< e.1) else m) 0

/-- The 64-bit value whose halves a status pair shows, when the pair is computed from the state. -/
def State.statusPair (s : State) (r : RegRef) : Option Nat :=
  match r.name with
  | .FCH_SLOT_PHASE_LO | .FCH_SLOT_PHASE_HI => some (s.barrier r.i).phase.toNat
  | .CORE_MU_BUBBLE_LO | .CORE_MU_BUBBLE_HI =>
    some (s.count .CORE_MU_BUBBLE_LO r.i 0)
  | .GRT_ITEMS_LO | .GRT_ITEMS_HI => some ((s.stack r.i).items % 2 ^ 48)
  | .CORE_CNT_LO | .CORE_CNT_HI => some (s.count .CORE_CNT_LO r.i r.j)
  | .DIE_CNT_LO | .DIE_CNT_HI => some (s.count .DIE_CNT_LO r.i r.j)
  | .STK_CNT_LO | .STK_CNT_HI => some (s.count .STK_CNT_LO r.i r.j)
  | .RNG_CNT_LO | .RNG_CNT_HI => some (s.count .RNG_CNT_LO r.i r.j)
  | .FLP_CNT_LO | .FLP_CNT_HI => some (s.count .FLP_CNT_LO r.i r.j)
  | _ => none

/-- The bank of the older live generation, whose pass is at the last position of the array (Table 7.10): of two, the one whose tag
comes just before the newest. -/
def MU.oldest (m : MU) : Option MuBank :=
  match m.bankA, m.bankB with
  | some a, some b => if a.gen = m.gen then some b else some a
  | some a, none => some a
  | none, b => b

/-- Generation, arrangement and Q that CORE_MU_STATUS shows: of the pass at the last position, or of the last pass when idle. -/
def MU.shown (m : MU) : Nat × Nat × Nat :=
  match m.oldest with
  | some b => (b.gen, b.arr, b.q)
  | none => (m.gen, m.lastArr, m.lastQ)

/-- The value a register shows, with no side effect: of the register file, or of the state it reports. -/
def State.view (s : State) (r : RegRef) : W32 :=
  match s.statusPair r with
  | some v => if r.name.lsHigh.isSome then BitVec.ofNat 32 v else BitVec.ofNat 32 (v >>> 32)
  | none =>
    let w := s.regOf r
    match r.name with
    | .CORE_VE_STATUS =>
      match s.logicalOf r.i with
      | none => w
      | some l =>
        let v := (s.core l).ve
        putBits (putBits (putBits (putBits w 27 24 v.gridBits) 13 8 v.haltedGroups) 5 0 v.resident) 31 31
          (if v.splitPending.isSome || v.resvPending.isSome then 1 else 0)
    | .CORE_MU_STATUS =>
      match s.logicalOf r.i with
      | none => w
      | some l =>
        let m := (s.core l).mu
        let b (x : Bool) : Nat := if x then 1 else 0
        BitVec.ofNat 32 (m.shown.1 % 8 * 2 ^ 29 + m.shown.2.1 % 4 * 2 ^ 27 + m.shown.2.2 % 16 * 2 ^ 23 +
          b m.loadStall * 2 ^ 22 + b m.drainStall * 2 ^ 21 + b m.feedStall * 2 ^ 20 +
          (b m.bankB.isSome * 2 + b m.bankA.isSome) * 2 ^ 18 + b (!m.runs.isEmpty) * 2 ^ 17)
    | .GRT_STATUS =>
      let k := s.stack r.i
      BitVec.ofNat 32 (k.active.length * 2 ^ 24 +
        (if s.field .GRT_ENGINES r.i 0 15 0 = 0xFFFF then 2 ^ 16 else 0) + k.busyBits)
    | .CLU_RS_STATUS => putBits (putBits w 24 16 (s.freeBlocks r.i)) 10 0 (s.freeRecords r.i)
    | .FCH_SLOT_STATUS => putBits w 10 0 (popcount (s.barrier r.i).cur.toNat 1024)
    | _ => w

/-! ### Reads -/

/-- The shadow of an agent for a high register (R380). -/
def State.shadow (s : State) (a : Agent) (r : RegRef) : W32 := SMap.get 0 s.shadows (agentKey a * 2 ^ 40 + r.key)
def State.setShadow (s : State) (a : Agent) (r : RegRef) (w : W32) : State :=
  { s with shadows := SMap.set 0 s.shadows (agentKey a * 2 ^ 40 + r.key) w }

/-- A 32-bit read by an agent (R9, R380): RC fields clear, a low word latches the agent's shadow of its high word,
and a high word of type LS reads the agent's shadow. -/
def State.readReg (s : State) (a : Agent) (r : RegRef) : W32 × State :=
  if r.name.maskOf .ls ≠ 0 then (s.shadow a r, s)
  else
    let v := s.view r
    let s' := match r.name.lsHigh with
      | none => s
      | some hi => s.setShadow a { r with name := hi } (s.view { r with name := hi })
    if r.name.maskOf .rc = 0 then (v, s')
    else (v, s'.setReg r.name r.i r.j (r.name.afterRead (s'.regOf r)))

/-- A read through an alias: the value without side effect (R378). -/
def State.peekReg (s : State) (a : Agent) (r : RegRef) : W32 :=
  if r.name.maskOf .ls ≠ 0 then s.shadow a r else s.view r

end Sys2Proof.Machine
end

