-- ==== Sys2Proof/Machine/CcBase.lean ====
section
/-!
DEFINITION. The control core's own operations: integer registers, CSRs, traps and interrupts (R60, R69), private
memory (Table 3.1) and the control cache (R70 to R75).
-/

namespace Sys2Proof.Machine

open Sys2Proof

def State.cc (s : State) (l : Nat) : CC := (s.core l).cc

/-! ### Registers and CSRs -/

/-- x0 reads as zero. -/
def CC.xr (c : CC) (r : Nat) : W64 := if r = 0 then 0 else SMap.get 0 c.x r
def CC.setX (c : CC) (r : Nat) (v : W64) : CC := if r = 0 then c else { c with x := SMap.set 0 c.x r v }

def csrMstatus : Nat := 0x300
def csrMie : Nat := 0x304
def csrMtvec : Nat := 0x305
def csrMepc : Nat := 0x341
def csrMcause : Nat := 0x342
def csrMtval : Nat := 0x343
def csrMip : Nat := 0x344

def CC.csr (c : CC) (n : Nat) : W64 := SMap.get 0 c.csrs n
def CC.setCsr (c : CC) (n : Nat) (v : W64) : CC := { c with csrs := SMap.set 0 c.csrs n v }

/-- minstret counts a retired instruction unless mcountinhibit stops it. -/
def CC.countInstr (c : CC) : CC :=
  if (c.csr 0x320).getLsbD 2 then c else c.setCsr 0xB02 (c.csr 0xB02 + 1)

/-- The core retires an instruction of `len` bytes that writes rd. -/
def CC.retire (c : CC) (rd : Nat) (v : W64) (len : Nat := 4) : CC :=
  { c.countInstr.setX rd v with pc := c.pc + BitVec.ofNat 64 len, stall := none }

/-- Bit `i` of a word set to `b`. -/
def putBit (w : W64) (i : Nat) (b : Bool) : W64 :=
  if b then w ||| BitVec.twoPow 64 i else w &&& ~~~(BitVec.twoPow 64 i)

/-- Taking a trap into machine mode, as the RISC-V privileged specification describes it (R60): mepc, mcause and
mtval are written, MPIE takes MIE, MIE clears, MPP reads machine mode, and the pc goes to mtvec, or for an
interrupt in vectored mode to its slot there. -/
def CC.trap (c : CC) (interrupt : Bool) (cause : Nat) (tval : W64) : CC :=
  let st := c.csr csrMstatus
  let st' := putBit (putBit (putBit (putBit st 7 (st.getLsbD 3)) 3 false) 11 true) 12 true
  let tv := c.csr csrMtvec
  let base : W64 := tv &&& ~~~(3 : W64)
  let target := if interrupt && tv.getLsbD 0 then base + BitVec.ofNat 64 (4 * cause) else base
  let c := (((c.setCsr csrMepc c.pc).setCsr csrMcause (putBit (BitVec.ofNat 64 cause) 63 interrupt)).setCsr csrMtval
    tval).setCsr csrMstatus st'
  { c with pc := target, stall := none, resv := c.resv }

/-- Exception causes of the privileged specification and of R60. -/
def excFetchMisaligned : Nat := 0
def excFetchFault : Nat := 1
def excIllegal : Nat := 2
def excBreakpoint : Nat := 3
def excLoadMisaligned : Nat := 4
def excLoadFault : Nat := 5
def excStoreMisaligned : Nat := 6
def excStoreFault : Nat := 7
def excEcallM : Nat := 11
def excAdmission : Nat := 24

/-- dcsr, whose bit 2 is STEP (R384), with the cause of the last entry to debug mode. -/
def csrDcsr : Nat := 0x7B0
def CC.inDebug (c : CC) (cause : Nat) (t : W64) : CC :=
  { c.setCsr csrDcsr ((c.csr csrDcsr &&& ~~~(0x1C3 : W64)) ||| BitVec.ofNat 64 (2 ^ 30 + cause * 64 + 3)) with
    halted := true, haltAt := t }

/-- A core that single-steps halts again after its instruction (R384). The pc of a halted core is its dpc. -/
def State.stepHalt (s : State) (l : Nat) : State :=
  s.modCC l fun c => if (c.csr csrDcsr).getLsbD 2 then c.inDebug 4 (s.gtb (l / 192)) else c

/-- A control core takes an exception. -/
def State.ccTrap (s : State) (l cause : Nat) (tval : W64) : State := (s.modCC l (·.trap false cause tval)).stepHalt l
def State.ccRetire (s : State) (l : Nat) (rd : Nat) (v : W64) (len : Nat := 4) : State :=
  (s.modCC l (·.retire rd v len)).stepHalt l

/-- A register of the debug module by DMI address (R384). -/
def State.dmGet (s : State) (a : Nat) : W32 := SMap.get 0 s.dm a
def State.dmSet (s : State) (a : Nat) (v : W32) : State := { s with dm := SMap.set 0 s.dm a v }

/-- cmderr of an abstract command (R386), in abstractcs. -/
def State.cmdErr (s : State) (e : Nat) : State := s.dmSet 0x16 (BitVec.ofNat 32 (e * 2 ^ 8))

/-- The data that an abstract command returns, in data0 and data1. -/
def State.cmdData (s : State) (v : W64) : State :=
  (((s.cmdErr 0).dmSet 4 (v.setWidth 32)).dmSet 5 ((v >>> 32).setWidth 32)).emit (.debug v)

/-- The key under which a unit's mode is kept (R367). A grate scheduler holds one for each partition. -/
def modeKey (p : Nat) : ModeUnit → Nat
  | .cc l => l
  | .ve l => 1024 + l
  | .mu l => 2048 + l
  | .de l => 3072 + l
  | .dist c => 4096 + c
  | .sched k => 8192 + 16 * k + p
/-- Applied epoch and mode word of a unit of partition `p` (R369). -/
def State.mode (s : State) (p : Nat) (u : ModeUnit) : Nat × W32 := SMap.get (0, 0) s.modes (modeKey p u)

/-- The control core is quiesced: it issues nothing (Table 14.7). -/
def State.quiesced (s : State) (l : Nat) : Bool := (s.mode 0 (.cc (Fin.ofNat 768 l))).2.getLsbD 0

/-- An image that the verifier accepted is loaded into the core's partition: nothing else runs there (R26). -/
def State.imaged (s : State) (l : Nat) : Bool :=
  match s.partOf l with
  | none => false
  | some p => (s.part p).image.isSome

/-- A control core executes: its partition has an image, it is not halted by the debugger, quiesced, stopped or lost, and no
instruction stalls it. -/
def State.ccRuns (s : State) (l : Nat) : Bool :=
  let c := s.core l
  s.imaged l && !c.cc.halted && !s.quiesced l && !c.cc.stopped && !s.fenced l && c.cc.stall.isNone

/-- A pending bit of mip. -/
def State.setMip (s : State) (l bit : Nat) (b : Bool) : State :=
  s.modCC l fun c => c.setCsr csrMip (putBit (c.csr csrMip) bit b)

/-- An interrupt is taken when it is pending and enabled (R60). -/
def CC.canTake (c : CC) (bit : Nat) : Bool :=
  (c.csr csrMip).getLsbD bit && (c.csr csrMie).getLsbD bit && (c.csr csrMstatus).getLsbD 3

/-! ### Private memory -/

def privBase : Nat := 0x40000000000
def imemBytes : Nat := 0x8000

/-- Private offsets that exist (Table 3.1): IMEM, DMEM, and the entries now locked (R73). -/
def State.privOk (s : State) (l off n : Nat) : Bool :=
  decide (off + n ≤ 0x8000) || (decide (0x10000 ≤ off) && decide (off + n ≤ 0x20000)) ||
  (decide (0x20000 ≤ off) && decide (off + n ≤ 0x20000 + 256 * s.field .CORE_CC_CFG (s.physOf l) 0 5 1))

/-- An address of the private range, as its offset. -/
def privOff (a : Nat) : Option Nat := if privBase ≤ a ∧ a < privBase + 0x21000 then some (a - privBase) else none

def Core.privBytes (c : Core) (off n : Nat) : List Byte := (List.range n).map fun k => SMap.get 0 c.priv (off + k)
def Core.privLoad (c : Core) (off n : Nat) : Nat := ofLe (c.privBytes off n)
def Core.privStore (c : Core) : Nat → List Byte → Core
  | _, [] => c
  | off, b :: bs => ({ c with priv := SMap.set 0 c.priv off b } : Core).privStore (off + 1) bs

/-! ### The control cache -/

/-- Entries locked on a core (R73), and whether its placement is the compatibility one. -/
def State.lockedEntries (s : State) (l : Nat) : Nat := s.field .CORE_CC_CFG (s.physOf l) 0 5 1
def State.compat (s : State) (l : Nat) : Bool := (s.reg .CORE_CC_CFG (s.physOf l)).getLsbD 0

/-- The compatibility set of a line (R72): a[10:8] xor a[13:11] xor a[16:14]. -/
def compatSet (line : Nat) : Nat := natBits line 2 0 ^^^ natBits line 5 3 ^^^ natBits line 8 6

/-- The cached lines that compete with a line for room, and how many may be held (R71, R72, R73). -/
def State.rivals (s : State) (l line : Nat) : List CLine × Nat :=
  let c := s.core l
  if s.compat l then
    (c.cache.filter fun x => compatSet x.line == compatSet line, 4 - s.lockedEntries l / 8)
  else (c.cache, 32 - s.lockedEntries l)

/-- Room made for a line: the least-recently-used rival leaves, a dirty one into the eviction buffer (R74). None
while that needs a place in a full buffer. -/
def State.makeRoom (s : State) (l line : Nat) : Option State :=
  let r := s.rivals l line
  if r.1.length < r.2 then some s
  else
    match r.1.getLast? with
    | none => none
    | some v =>
      if v.st = CState.D then
        if (s.core l).evict.length < 4 then
          some (s.modCore l fun c => { c.dropLine v.line with evict := c.evict ++ [{ v with st := .W }] })
        else none
      else some (s.modCore l fun c => c.dropLine v.line)

/-- A line placed in the cache as most recently used. -/
def State.placeLine (s : State) (l : Nat) (x : CLine) : State :=
  s.modCore l fun c => { c.dropLine x.line with cache := x :: (c.cache.filter fun y => y.line != x.line) }

/-- The cache's holding of a line as an access finds it: in the cache, or in the eviction buffer. -/
def State.ccHolds (s : State) (l line : Nat) : Bool :=
  ((s.core l).lineAt line).isSome || ((s.core l).evictAt line).isSome

/-- The bytes of a line. -/
def sliceBytes (d : BitVec 2048) (off n : Nat) : List Byte := ((leBytes 256 d.toNat).drop off).take n

/-- A load of `n` bytes that hits the cache or the eviction buffer (R74). -/
def State.ccHitLoad (s : State) (l a n : Nat) : Option (List Byte × State) :=
  let line := a / 256
  match (s.core l).evictAt line with
  | some w => some (sliceBytes w.data (a % 256) n, s)
  | none =>
    match (s.core l).lineAt line with
    | none => none
    | some x => some (sliceBytes x.data (a % 256) n, s.placeLine l x)

/-- Bytes of a line replaced. -/
def patchLine (d : BitVec 2048) (off : Nat) (bs : List Byte) : BitVec 2048 :=
  let old := leBytes 256 d.toNat
  lineData (old.take off ++ bs ++ old.drop (off + bs.length))

/-- A store that hits a line held alone: D stays, K becomes D, and a line of the eviction buffer returns to the
cache in D when there is room (Table 3.4, R74). None: the line must be owned first. -/
def State.ccHitStore (s : State) (l a : Nat) (bs : List Byte) : Option State :=
  let line := a / 256
  let wr (s : State) (d : BitVec 2048) : State :=
    (s.cancelResv a bs.length).placeLine l { line := line, st := .D, data := patchLine d (a % 256) bs }
  match (s.core l).evictAt line with
  | some w =>
    match (s.modCore l (·.dropEvict line)).makeRoom l line with
    | some s' => some (wr s' w.data)
    | none => none
  | none =>
    match (s.core l).lineAt line with
    | none => none
    | some x =>
      match x.st with
      | .D => some (wr s x.data)
      | .K => some (wr s x.data)
      | .S => none
      | .W => none

/-- The home's two 128-byte lines of a control-cache line read, and filled into their slices (R75, R223). -/
def State.readCcLine (s : State) (l line : Nat) : State :=
  let u : Unit := .cc (Fin.ofNat 768 l)
  (s.readHome u (line * 256) 128 false).readHome u (line * 256 + 128) 128 false

/-- A line fetched for a load (Table 3.4): holders are snooped; the reader takes K where the presence filter shows
no other holder, else S. None while no room can be made, or a domain that the line needs is not ON (R366). -/
def State.fetchShared (s : State) (l line : Nat) : Option State :=
  match if s.homesAsleep (line * 256) 256 then none else s.makeRoom l line with
  | none => none
  | some s =>
    let s := s.settle line
    let others := (s.holders line).filter (· != l)
    let s := others.foldl (fun s k => s.snoopRead k line) s
    let s := s.readCcLine l line
    let st : CState := if others.isEmpty then .K else .S
    some ((s.placeLine l { line := line, st := st, data := lineData (s.bytes (line * 256) 256) }).setHolders line
      (l :: others))

/-- A line owned for a store: a holder in D, K or W supplies its data, every other copy is invalid (Table 3.4). None as
for `fetchShared`. -/
def State.fetchOwned (s : State) (l line : Nat) : Option State :=
  match ((s.core l).lineAt line, if s.homesAsleep (line * 256) 256 then none else s.makeRoom l line) with
  | (some x, _) =>
    let others := (s.holders line).filter (· != l)
    let s := others.foldl (fun s k => s.dropFrom k line) s
    some ((s.placeLine l { x with st := .D }).setHolders line [l])
  | (none, none) => none
  | (none, some s) =>
    let others := (s.holders line).filter (· != l)
    let given := match SMap.get none s.inFlight line with
      | some (_, d) => some d
      | none => others.findSome? fun k => (s.core k).supplied line
    let s := { s with inFlight := SMap.set none s.inFlight line none }
    let s := others.foldl (fun s k => s.dropFrom k line) s
    let (d, s) := match given with
      | some d => (d, s)
      | none =>
        let s := s.readCcLine l line
        (lineData (s.bytes (line * 256) 256), s)
    some ((s.placeLine l { line := line, st := .D, data := d }).setHolders line [l])

/-- Every dirty line of a core's cache and eviction buffer written back, and every unlocked entry invalid (R96). -/
def State.flushCache (s : State) (l : Nat) : State :=
  let c := s.core l
  let s := (c.evict ++ c.cache.filter fun x => x.st = CState.D).foldl (fun s x => s.writeBack l x) s
  s.modCore l fun c => { c with cache := [], evict := [] }

end Sys2Proof.Machine
end

