-- ==== Sys2Proof/Machine/Desc.lean ====
section
/-!
DEFINITION. The engine descriptor (3.6): its header, wait slots and signal slots, the ranges that an operation body
names (Table 10.5, R105, R183, R206), and the pass parameters and formats of an MMA (Tables 6.2, 7.3 to 7.5).
-/

namespace Sys2Proof.Machine

open Sys2Proof

/-- The little-endian field of `n` bytes at byte `off`. -/
def Desc.fld (d : Desc) (off n : Nat) : Nat := bitsOf d (8 * (off + n) - 1) (8 * off)
def descOf (bs : List Byte) : Desc := BitVec.ofNat 1024 (ofLe bs)

/-! ### Header (Table 3.8) -/

def Desc.opcode (d : Desc) : Nat := d.fld 0 1
def Desc.engine (d : Desc) : Nat := bitsOf d 11 8
def Desc.nwait (d : Desc) : Nat := bitsOf d 13 12
def Desc.nsig (d : Desc) : Nat := bitsOf d 15 14
def Desc.spanTag (d : Desc) : Nat := d.fld 4 4

/-- Wait slot i: handle and expected value (R85). -/
def Desc.waitSlot (d : Desc) (i : Nat) : Nat × W64 := (d.fld (8 + 16 * i) 3, BitVec.ofNat 64 (d.fld (16 + 16 * i) 8))
def Desc.waitSlots (d : Desc) : List (Nat × W64) := (List.range (min d.nwait 2)).map d.waitSlot

def Desc.sigSlot (d : Desc) (i : Nat) : SigSlot :=
  { handle := d.fld (40 + 16 * i) 3, kind := d.fld (43 + 16 * i) 1,
    seq := BitVec.ofNat 32 (d.fld (44 + 16 * i) 4), operand := BitVec.ofNat 64 (d.fld (48 + 16 * i) 8) }
def Desc.sigSlots (d : Desc) : List SigSlot := (List.range (min d.nsig 2)).map d.sigSlot

/-- The descriptor with a field of four bytes replaced. -/
def Desc.put32 (d : Desc) (off : Nat) (w : W32) : Desc :=
  (d &&& ~~~(BitVec.ofNat 1024 ((2 ^ 32 - 1) <<< (8 * off)))) ||| BitVec.ofNat 1024 (w.toNat <<< (8 * off))

/-- The engine code that a queue selector takes (Table 3.8). -/
def engineOfQueue (q : Nat) : Nat := if q < 3 then q + 1 else 4

/-- The selector names a queue (Table 3.5). -/
def isQueue (q : Nat) : Bool := decide (q < 16) && decide (q ≠ 3)

/-- Slots of a queue (Table 3.5). -/
def queueDepth (q : Nat) : Nat := if q = 0 then 16 else if q < 3 then 64 else 32

/-! ### Ranges -/

/-- A range that a body names: byte offset of the address field, context, start, length, written. -/
structure BodyRange where
  off : Nat
  ctx : Nat
  start : Nat
  len : Nat
  wr : Bool
deriving DecidableEq, Repr

def rdRange (off ctx start len : Nat) : BodyRange := ⟨off, ctx, start, len, false⟩
def wrRange (off ctx start len : Nat) : BodyRange := ⟨off, ctx, start, len, true⟩

/-- Two ranges of one context share a byte; an empty range shares none. -/
def BodyRange.meets (a b : BodyRange) : Bool :=
  a.ctx == b.ctx && decide (a.len ≠ 0) && decide (b.len ≠ 0) && decide (a.start < b.start + b.len) && decide (b.start < a.start + a.len)

/-! ### The MMA body -/

def Desc.mmaM (d : Desc) : Nat := natBits (d.fld 118 6) 11 0 + 1
def Desc.mmaN (d : Desc) : Nat := natBits (d.fld 118 6) 27 12 + 1
def Desc.mmaK (d : Desc) : Nat := natBits (d.fld 118 6) 43 28 + 1
def Desc.cfg (d : Desc) : Nat := d.fld 124 4
def Desc.fmtA (d : Desc) : Nat := natBits d.cfg 3 0
def Desc.scA (d : Desc) : Bool := d.cfg.testBit 4
def Desc.tblA (d : Desc) : Nat := natBits d.cfg 8 5
def Desc.fmtB (d : Desc) : Nat := natBits d.cfg 12 9
def Desc.scB (d : Desc) : Bool := d.cfg.testBit 13
def Desc.tblB (d : Desc) : Nat := natBits d.cfg 17 14
def Desc.ofmt (d : Desc) : Nat := natBits d.cfg 19 18
def Desc.rndCode (d : Desc) : Nat := natBits d.cfg 22 20
def Desc.useStream (d : Desc) : Bool := d.cfg.testBit 23

/-- The rows of Table 6.2: element code and whether it is microscaled. -/
def mmaRow (fmt : Nat) (sc : Bool) : Bool :=
  match fmt with
  | 1 | 2 | 9 => !sc
  | 3 | 4 | 8 => true
  | 5 | 6 | 7 | 12 => sc
  | _ => false

/-- Element width in bits of a matrix operand format (R182). -/
def mmaWidth (fmt : Nat) : Nat :=
  match fmt with
  | 1 | 2 => 16
  | 5 | 6 => 6
  | 7 | 9 | 12 => 4
  | _ => 8

/-- Width class of a matrix operand format (Table 6.2): 0 4-bit, 1 8-bit and 6-bit, 2 16-bit. -/
def widthClass (fmt : Nat) : Nat :=
  match mmaWidth fmt with
  | 16 => 2
  | 4 => 0
  | _ => 1

/-- Bytes of an output element (R182). -/
def outBytes (ofmt : Nat) : Nat :=
  match ofmt with
  | 0 => 4
  | 1 | 2 => 2
  | _ => 16

/-- The ranges of an MMA (R183): read through A, B and the scales in use, written through D. -/
def Desc.mmaRanges (d : Desc) : List BodyRange :=
  let rb := d.mmaK * mmaWidth d.fmtA / 8
  [rdRange 72 255 (d.fld 72 8) ((d.mmaM - 1) * d.fld 112 2 * 16 + rb),
   rdRange 80 255 (d.fld 80 8) ((d.mmaN - 1) * d.fld 114 2 * 16 + d.mmaK * mmaWidth d.fmtB / 8)] ++
  (if d.scA then [rdRange 96 255 (d.fld 96 8) (d.mmaM * (d.mmaK / 32))] else []) ++
  (if d.scB then [rdRange 104 255 (d.fld 104 8) (d.mmaN * (d.mmaK / 32))] else []) ++
  [wrRange 88 255 (d.fld 88 8) ((d.mmaM - 1) * d.fld 116 2 * 16 + d.mmaN * outBytes d.ofmt)]

/-! ### DMA bodies -/

/-- An outer dimension of a COPY (Table 10.6): count, source stride and destination stride in bytes. -/
def Desc.dim (d : Desc) (k : Nat) : Nat × Nat × Nat :=
  let w := d.fld (88 + 8 * k) 8
  (natBits w 11 0 + 1, natBits w 37 12 * 16, natBits w 63 38 * 16)
/-- The outer dimensions in use, i1 first. -/
def Desc.dims (d : Desc) : List (Nat × Nat × Nat) :=
  (List.range (min (d.fld 94 1 - 1) 4)).map fun k => d.dim (k + 1)
def Desc.copyRows (d : Desc) : Nat := d.dims.foldl (fun n x => n * x.1) 1

/-- Operation width in bytes of a memory-side operation code (Table 9.6). -/
def opWidth (code : Nat) : Nat := if code = 3 ∨ code = 6 ∨ code = 7 then 8 else 4

def Desc.isDense (d : Desc) : Bool := d.opcode == 6 && (d.fld 115 1).testBit 2
/-- A GATHER, SCATTER or indexed REDUCE (R254). -/
def Desc.isIndexed (d : Desc) : Bool :=
  d.opcode == 2 || d.opcode == 3 || (d.opcode == 6 && !d.isDense)
def Desc.idxWidth (d : Desc) : Nat := if (d.fld 115 1).testBit 0 then 8 else 4

/-- The ranges that a DMA body names at admission (Table 10.5). -/
def Desc.deRanges (d : Desc) : List BodyRange :=
  match d.opcode with
  | 1 =>
    let len0 := d.fld 88 4
    [rdRange 72 (d.fld 92 1) (d.fld 72 8) (d.dims.foldl (fun n x => n + (x.1 - 1) * x.2.1) len0),
     wrRange 80 (d.fld 93 1) (d.fld 80 8) (d.dims.foldl (fun n x => n + (x.1 - 1) * x.2.2) len0)]
  | 2 =>
    [rdRange 80 (d.fld 113 1) (d.fld 80 8) (d.fld 96 4 * d.idxWidth),
     wrRange 88 (d.fld 114 1) (d.fld 88 8) (d.fld 96 4 * d.fld 100 4)]
  | 3 =>
    [rdRange 80 (d.fld 113 1) (d.fld 80 8) (d.fld 96 4 * d.idxWidth),
     rdRange 88 (d.fld 114 1) (d.fld 88 8) (d.fld 96 4 * d.fld 100 4)]
  | 4 =>
    let n := d.fld 96 4 * d.fld 100 1 * 8
    [rdRange 72 (d.fld 103 1) (d.fld 72 8) n, wrRange 80 (d.fld 104 1) (d.fld 80 8) n,
     wrRange 88 (d.fld 105 1) (d.fld 88 8) 256]
  | 5 => [wrRange 72 (d.fld 104 1) (d.fld 72 8) ((d.fld 92 4 - 1) * d.fld 96 8 + d.fld 88 4)]
  | 6 =>
    let data := rdRange 88 (d.fld 114 1) (d.fld 88 8) (d.fld 96 4 * d.fld 100 4)
    if d.isDense then
      let ext := (d.fld 96 4 - 1) * d.fld 104 8 + d.fld 100 4
      [data, rdRange 72 (d.fld 112 1) (d.fld 72 8) ext, wrRange 72 (d.fld 112 1) (d.fld 72 8) ext]
    else [rdRange 80 (d.fld 113 1) (d.fld 80 8) (d.fld 96 4 * d.idxWidth), data]
  | _ => []

/-! ### LAUNCH and ATTEND bodies -/

/-- A LAUNCH body: descriptor bytes 72 to 127. -/
def Desc.body (d : Desc) : BitVec 448 := BitVec.ofNat 448 (d.fld 72 56)

/-- A field of a LAUNCH body by its byte offset in the descriptor (Table 4.4). -/
def launchFld (b : BitVec 448) (off n : Nat) : Nat := bitsOf b (8 * (off - 72 + n) - 1) (8 * (off - 72))

def Desc.launchRanges (d : Desc) : List BodyRange :=
  [rdRange 72 255 (d.fld 72 8) (d.fld 80 4), rdRange 104 255 (d.fld 104 8) 256]

def Desc.attendRanges (d : Desc) : List BodyRange := [rdRange 72 255 (d.fld 72 8) (64 * d.fld 80 2)]

/-- The ranges that a descriptor of queue `q` names at admission. -/
def Desc.ranges (d : Desc) (q : Nat) : List BodyRange :=
  if d.opcode = 0 then []
  else
    match engineOfQueue q with
    | 1 => d.launchRanges
    | 2 => d.mmaRanges
    | 3 => d.deRanges
    | _ => d.attendRanges

end Sys2Proof.Machine
end

