-- ==== Sys2Proof/Machine/Formats.lean ====
section
/-!
DEFINITION. Elements of every format code (Tables 5.13, 6.1 to 6.4): their values, integer and P4 conversions (R167,
R173), scaled conversion and block scales (R141, R142).
-/

namespace Sys2Proof.Machine

open Sys2Proof

/-- Table 6.3. -/
def defaultP4 : List Byte :=
  [0x00, 0x30, 0x38, 0x3C, 0x40, 0x44, 0x48, 0x4C, 0x80, 0xB0, 0xB8, 0xBC, 0xC0, 0xC4, 0xC8, 0xCC]

/-- An entry of P4 table `t` of partition `p` (R46, R166); free where no record gives the table. -/
def State.p4Entry (s : State) (p t c : Nat) : Byte :=
  match SMap.get none s.cfg.p4 (16 * p + t) with
  | some w => BitVec.ofNat 8 (bitsOf w (8 * (c % 16) + 7) (8 * (c % 16)))
  | none => if t = 0 then defaultP4.getD (c % 16) 0 else Config.p4Open p t (c % 16)

/-- The value of an integer code of `n` bits in two's complement. -/
def intVal (n : Nat) (w : Nat) : Val :=
  let x := (BitVec.ofNat n w).toInt
  .fin (decide (x < 0)) x.natAbs 0

/-- The value of an element code; `tbl` is the P4 table. An MXINT8 or INT8 code is the integer q. -/
def elemVal (tbl : Nat → Byte) (fmt w : Nat) : Val :=
  match fmt with
  | 8 => intVal 8 w
  | 9 => intVal 4 w
  | 10 => intVal 32 w
  | 11 => .fin false (w % 2 ^ 32) 0
  | 12 => e4m3.decode (tbl (w % 16)).toNat
  | _ =>
    match fmtOf fmt with
    | some t => t.decode (w % 2 ^ t.bits)
    | none => .nan

/-- Bits between positions of a format in a register (R140), and bits of its code. -/
def slotBits (fmt : Nat) : Nat :=
  match fmt with
  | 0 | 10 | 11 => 32
  | 1 | 2 => 16
  | 7 | 9 | 12 => 4
  | _ => 8
def codeBits (fmt : Nat) : Nat := if fmt = 5 ∨ fmt = 6 then 6 else slotBits fmt

/-- A value rounded to an integer between two bounds (R173). -/
def toIntCode (mode : Rnd) (lo hi : Int) (v : Val) : Int × Nat :=
  match v with
  | .nan => (0, flInvalid)
  | .inf s => (if s then lo else hi, flInvalid)
  | .fin s m e =>
    let r := roundAt mode s m e 0
    let i : Int := if s then -(r.1 : Int) else r.1
    if i < lo then (lo, flInvalid) else if hi < i then (hi, flInvalid) else (i, if r.2 then flInexact else 0)

/-- Bounds of an integer format (R162). -/
def intBounds (fmt : Nat) : Int × Int :=
  match fmt with
  | 8 => (-128, 127)
  | 9 => (-8, 7)
  | 10 => (-2147483648, 2147483647)
  | _ => (0, 4294967295)

/-- The codes of a P4 table that are numbers, with their values. -/
def p4Values (tbl : Nat → Byte) : List (Nat × Val) :=
  ((List.range 16).map fun c => (c, e4m3.decode (tbl c).toNat)).filter fun x => !x.2.isNan

/-- The code with the least key, the lowest among equals. -/
def leastBy (key : Val → Val) (l : List (Nat × Val)) : Option (Nat × Val) :=
  l.foldl (fun m x =>
    match m with
    | none => some x
    | some y => if Val.lt false (key x.2) (key y.2) == some true then some x else some y) none

/-- Conversion into P4 (R167). -/
def toP4 (tbl : Nat → Byte) (v : Val) : Nat × Nat :=
  let vs := p4Values tbl
  let big := (leastBy Val.neg vs).getD (0, .nan)
  let small := (leastBy id vs).getD (0, .nan)
  match v with
  | .nan => (0, flInvalid)
  | .inf s => (if s then small.1 else big.1, flOverflow + flInexact)
  | .fin _ _ _ =>
    let best := (leastBy (fun e => (v.add false e.neg).1.abs) vs).getD (0, .nan)
    let differs := Val.lt false v best.2 == some true || Val.lt false best.2 v == some true
    let beyond := Val.lt false big.2 v == some true || Val.lt false v small.2 == some true
    (best.1, (if differs then flInexact else 0) + (if beyond then flOverflow else 0))

/-- A value converted to an element code, with the flags it sets (R170 to R173). -/
def toElem (tbl : Nat → Byte) (fmt : Nat) (mode : Rnd) (v : Val) : Nat × Nat :=
  if fmt = 12 then toP4 tbl v
  else
    match fmtOf fmt with
    | some t => t.round mode v
    | none =>
      let b := intBounds fmt
      let r := toIntCode mode b.1 b.2 v
      (r.1 % 2 ^ codeBits fmt |>.toNat, r.2)

/-- The conversion of CVTS after scaling by an E8M0 code `c` (R142, R173): results beyond the largest value saturate
to it. -/
def toScaled (tbl : Nat → Byte) (fmt : Nat) (mode : Rnd) (c : Nat) (v : Val) : Nat × Nat :=
  if c = 255 then
    match fmtOf fmt with
    | some t => if t.ieee || t.topNan then (t.nanCode, 0) else (0, flInvalid)
    | none => (0, flInvalid)
  else
    let x := v.scale (127 - (c : Int))
    if fmt = 12 then toP4 tbl x
    else
      match fmtOf fmt with
      | some t =>
        let r := t.round mode x
        let isInf := match x with | .inf _ => true | _ => false
        if r.2 / flOverflow % 2 = 1 || isInf then (t.signed x.sign t.maxCode, flOverflow + flInexact) else r
      | none =>
        match x.scale 6 with
        | .nan => (0, flInvalid)
        | y =>
          let r := toIntCode mode (-128) 127 y
          (r.1 % 256 |>.toNat, if r.2 / flInvalid % 2 = 1 then flOverflow + flInexact else r.2)

/-- emax of MXSCALE by element format (R141). -/
def emaxOf (fmt : Nat) : Int :=
  match fmt with
  | 3 => 8
  | 4 => 15
  | 5 => 4
  | 6 => 2
  | 7 => 2
  | _ => 0

/-- The E8M0 code of a block of values (R141). -/
def blockScale (fmt : Nat) (vs : List Val) : Nat × Nat :=
  if vs.any fun v => match v with | .fin _ _ _ => false | _ => true then (0xFF, flInvalid)
  else
    let amax := vs.foldl (fun m v => Val.max m v.abs) (.fin false 0 0)
    match amax with
    | .fin _ m e =>
      if m = 0 then (0, 0)
      else
        let x := topExp m e - emaxOf fmt
        ((max (-127) (min 127 x) + 127).toNat, 0)
    | _ => (0xFF, flInvalid)

end Sys2Proof.Machine
end

