-- ==== Sys2Proof/Machine/Rv64.lean ====
section
/-!
DEFINITION. The RV64IMAC instructions of the control core that touch only its own registers (R59): the expansion of
compressed instructions, immediates, the arithmetic operations, branches, and the machine-mode CSRs with mfpflags
(R179) and mmode (14.6).
-/

namespace Sys2Proof.Machine

open Sys2Proof

/-! ### Instruction fields -/

def rdOf (w : W32) : Nat := bitsOf w 11 7
def rs1Of (w : W32) : Nat := bitsOf w 19 15
def rs2Of (w : W32) : Nat := bitsOf w 24 20
def f3Of (w : W32) : Nat := bitsOf w 14 12
def f7Of (w : W32) : Nat := bitsOf w 31 25

/-- A number of `n` bits, sign-extended to 64. -/
def sext (n v : Nat) : W64 := (BitVec.ofNat n v).signExtend 64

def immI (w : W32) : W64 := sext 12 (bitsOf w 31 20)
def immS (w : W32) : W64 := sext 12 (bitsOf w 31 25 * 32 + bitsOf w 11 7)
def immB (w : W32) : W64 :=
  sext 13 (bitsOf w 31 31 * 4096 + bitsOf w 7 7 * 2048 + bitsOf w 30 25 * 32 + bitsOf w 11 8 * 2)
def immU (w : W32) : W64 := sext 32 (bitsOf w 31 12 * 4096)
def immJ (w : W32) : W64 :=
  sext 21 (bitsOf w 31 31 * 2 ^ 20 + bitsOf w 19 12 * 4096 + bitsOf w 20 20 * 2048 + bitsOf w 30 21 * 2)

/-! ### Compressed instructions, as the words they stand for -/

def encR (f7 rs2 rs1 f3 rd op : Nat) : W32 :=
  BitVec.ofNat 32 (f7 * 2 ^ 25 + rs2 * 2 ^ 20 + rs1 * 2 ^ 15 + f3 * 2 ^ 12 + rd * 128 + op)
def encI (imm rs1 f3 rd op : Nat) : W32 :=
  BitVec.ofNat 32 (imm % 4096 * 2 ^ 20 + rs1 * 2 ^ 15 + f3 * 2 ^ 12 + rd * 128 + op)
def encS (imm rs2 rs1 f3 op : Nat) : W32 :=
  BitVec.ofNat 32 (natBits imm 11 5 * 2 ^ 25 + rs2 * 2 ^ 20 + rs1 * 2 ^ 15 + f3 * 2 ^ 12 + natBits imm 4 0 * 128 + op)
def encB (imm rs2 rs1 f3 : Nat) : W32 :=
  BitVec.ofNat 32 (natBits imm 12 12 * 2 ^ 31 + natBits imm 10 5 * 2 ^ 25 + rs2 * 2 ^ 20 + rs1 * 2 ^ 15 + f3 * 2 ^ 12 +
    natBits imm 4 1 * 256 + natBits imm 11 11 * 128 + 0x63)
def encU (imm20 rd op : Nat) : W32 := BitVec.ofNat 32 (imm20 % 2 ^ 20 * 4096 + rd * 128 + op)
def encJ (imm rd : Nat) : W32 :=
  BitVec.ofNat 32 (natBits imm 20 20 * 2 ^ 31 + natBits imm 10 1 * 2 ^ 21 + natBits imm 11 11 * 2 ^ 20 +
    natBits imm 19 12 * 4096 + rd * 128 + 0x6F)

/-- A six-bit immediate of quadrant 1, sign-extended to 12 bits. -/
def cImm6 (c : Nat) : Nat := natBits c 6 2 + (if c.testBit 12 then 4064 else 0)

/-- Quadrant 0. -/
def expand0 (c : Nat) : Option W32 :=
  let rd' := natBits c 4 2 + 8
  let rs' := natBits c 9 7 + 8
  let w := natBits c 12 10 * 8 + natBits c 6 6 * 4 + natBits c 5 5 * 64
  let d := natBits c 12 10 * 8 + natBits c 6 5 * 64
  match natBits c 15 13 with
  | 0 =>
    let imm := natBits c 12 11 * 16 + natBits c 10 7 * 64 + natBits c 6 6 * 4 + natBits c 5 5 * 8
    if imm = 0 then none else some (encI imm 2 0 rd' 0x13)
  | 2 => some (encI w rs' 2 rd' 0x03)
  | 3 => some (encI d rs' 3 rd' 0x03)
  | 6 => some (encS w rd' rs' 2 0x23)
  | 7 => some (encS d rd' rs' 3 0x23)
  | _ => none

/-- The arithmetic instructions of quadrant 1. -/
def expandAlu (c : Nat) : Option W32 :=
  let r := natBits c 9 7 + 8
  let q := natBits c 4 2 + 8
  let sh := natBits c 12 12 * 32 + natBits c 6 2
  match natBits c 11 10 with
  | 0 => some (encI sh r 5 r 0x13)
  | 1 => some (encI (1024 + sh) r 5 r 0x13)
  | 2 => some (encI (cImm6 c) r 7 r 0x13)
  | _ =>
    match natBits c 12 12, natBits c 6 5 with
    | 0, 0 => some (encR 0x20 q r 0 r 0x33)
    | 0, 1 => some (encR 0 q r 4 r 0x33)
    | 0, 2 => some (encR 0 q r 6 r 0x33)
    | 0, _ => some (encR 0 q r 7 r 0x33)
    | _, 0 => some (encR 0x20 q r 0 r 0x3B)
    | _, 1 => some (encR 0 q r 0 r 0x3B)
    | _, _ => none

/-- Quadrant 1. -/
def expand1 (c : Nat) : Option W32 :=
  let rd := natBits c 11 7
  let j := natBits c 12 12 * 2048 + natBits c 11 11 * 16 + natBits c 10 9 * 256 + natBits c 8 8 * 1024 +
    natBits c 7 7 * 64 + natBits c 6 6 * 128 + natBits c 5 3 * 2 + natBits c 2 2 * 32
  let b := natBits c 12 12 * 256 + natBits c 11 10 * 8 + natBits c 6 5 * 64 + natBits c 4 3 * 2 + natBits c 2 2 * 32
  let j' := if c.testBit 12 then j + 0x1FF000 else j
  let b' := if c.testBit 12 then b + 0x1E00 else b
  match natBits c 15 13 with
  | 0 => some (encI (cImm6 c) rd 0 rd 0x13)
  | 1 => if rd = 0 then none else some (encI (cImm6 c) rd 0 rd 0x1B)
  | 2 => some (encI (cImm6 c) 0 0 rd 0x13)
  | 3 =>
    if rd = 2 then
      let imm := natBits c 6 6 * 16 + natBits c 5 5 * 64 + natBits c 4 3 * 128 + natBits c 2 2 * 32 +
        (if c.testBit 12 then 0xE00 else 0)
      if imm = 0 then none else some (encI imm 2 0 2 0x13)
    else
      let imm := natBits c 6 2 + (if c.testBit 12 then 0xFFFE0 else 0)
      if imm = 0 then none else some (encU imm rd 0x37)
  | 4 => expandAlu c
  | 5 => some (encJ j' 0)
  | 6 => some (encB b' 0 (natBits c 9 7 + 8) 0)
  | _ => some (encB b' 0 (natBits c 9 7 + 8) 1)

/-- Quadrant 2. -/
def expand2 (c : Nat) : Option W32 :=
  let rd := natBits c 11 7
  let rs2 := natBits c 6 2
  match natBits c 15 13 with
  | 0 => some (encI (natBits c 12 12 * 32 + rs2) rd 1 rd 0x13)
  | 2 =>
    if rd = 0 then none
    else some (encI (natBits c 12 12 * 32 + natBits c 6 4 * 4 + natBits c 3 2 * 64) 2 2 rd 0x03)
  | 3 =>
    if rd = 0 then none
    else some (encI (natBits c 12 12 * 32 + natBits c 6 5 * 8 + natBits c 4 2 * 64) 2 3 rd 0x03)
  | 4 =>
    if c.testBit 12 then
      if rs2 = 0 then (if rd = 0 then some 0x00100073 else some (encI 0 rd 0 1 0x67))
      else some (encR 0 rs2 rd 0 rd 0x33)
    else
      if rs2 = 0 then (if rd = 0 then none else some (encI 0 rd 0 0 0x67))
      else some (encR 0 rs2 0 0 rd 0x33)
  | 6 => some (encS (natBits c 12 9 * 4 + natBits c 8 7 * 64) rs2 2 2 0x23)
  | 7 => some (encS (natBits c 12 10 * 8 + natBits c 9 7 * 64) rs2 2 3 0x23)
  | _ => none

/-- The instruction that a word holds, with its length in bytes: a word whose low two bits are not 3 holds a
compressed instruction in its low half. None where the low half is a reserved compressed encoding. -/
def expand (w : W32) : Option (W32 × Nat) :=
  let c := bitsOf w 15 0
  match c % 4 with
  | 3 => some (w, 4)
  | 0 => (expand0 c).map (·, 2)
  | 1 => (expand1 c).map (·, 2)
  | _ => (expand2 c).map (·, 2)

/-! ### Arithmetic -/

def lowWord (v : W64) : W64 := (v.setWidth 32).signExtend 64

/-- The operations of OP and OP-IMM by funct3; `alt` is bit 30. Shifts take six bits. -/
def aluOp (f3 : Nat) (alt : Bool) (a b : W64) : W64 :=
  let sh := b.toNat % 64
  match f3 with
  | 0 => if alt then a - b else a + b
  | 1 => a <<< sh
  | 2 => if a.slt b then 1 else 0
  | 3 => if a.ult b then 1 else 0
  | 4 => a ^^^ b
  | 5 => if alt then a.sshiftRight sh else a >>> sh
  | 6 => a ||| b
  | _ => a &&& b

/-- The operations of OP-32 and OP-IMM-32, none for a funct3 that they lack. Shifts take five bits. -/
def aluOpW (f3 : Nat) (alt : Bool) (a b : W64) : Option W64 :=
  let sh := b.toNat % 32
  match f3 with
  | 0 => some (lowWord (if alt then a - b else a + b))
  | 1 => some (lowWord (a <<< sh))
  | 5 =>
    let x : W32 := a.setWidth 32
    some ((if alt then x.sshiftRight sh else x >>> sh).signExtend 64)
  | _ => none

/-- Signed division toward zero, with RISC-V's results for a zero divisor and for overflow. -/
def divS {n : Nat} (a b : BitVec n) : BitVec n := if b = 0 then BitVec.allOnes n else BitVec.ofInt n (a.toInt.tdiv b.toInt)
def remS {n : Nat} (a b : BitVec n) : BitVec n := if b = 0 then a else BitVec.ofInt n (a.toInt.tmod b.toInt)
def divU {n : Nat} (a b : BitVec n) : BitVec n := if b = 0 then BitVec.allOnes n else a / b
def remU {n : Nat} (a b : BitVec n) : BitVec n := if b = 0 then a else a % b

/-- The M extension by funct3. -/
def mulOp (f3 : Nat) (a b : W64) : W64 :=
  match f3 with
  | 0 => a * b
  | 1 => BitVec.ofInt 64 ((a.toInt * b.toInt).fdiv (2 ^ 64))
  | 2 => BitVec.ofInt 64 ((a.toInt * (b.toNat : Int)).fdiv (2 ^ 64))
  | 3 => BitVec.ofNat 64 (a.toNat * b.toNat / 2 ^ 64)
  | 4 => divS a b
  | 5 => divU a b
  | 6 => remS a b
  | _ => remU a b

def mulOpW (f3 : Nat) (a b : W64) : Option W64 :=
  let x : W32 := a.setWidth 32
  let y : W32 := b.setWidth 32
  match f3 with
  | 0 => some ((x * y).signExtend 64)
  | 4 => some ((divS x y).signExtend 64)
  | 5 => some ((divU x y).signExtend 64)
  | 6 => some ((remS x y).signExtend 64)
  | 7 => some ((remU x y).signExtend 64)
  | _ => none

/-- The value that a computing instruction gives rd, none where the word is no such instruction. -/
def computed (c : CC) (w : W32) : Option W64 :=
  let a := c.xr (rs1Of w)
  let b := c.xr (rs2Of w)
  let f3 := f3Of w
  let f7 := f7Of w
  match bitsOf w 6 0 with
  | 0x37 => some (immU w)
  | 0x17 => some (c.pc + immU w)
  | 0x13 =>
    match f3 with
    | 1 => if f7 / 2 = 0 then some (aluOp 1 false a (immI w)) else none
    | 5 => if f7 / 2 = 0 ∨ f7 / 2 = 16 then some (aluOp 5 (decide (f7 / 2 = 16)) a (immI w)) else none
    | _ => some (aluOp f3 false a (immI w))
  | 0x1B =>
    match f3 with
    | 1 => if f7 = 0 then aluOpW 1 false a (immI w) else none
    | 5 => if f7 = 0 ∨ f7 = 32 then aluOpW 5 (decide (f7 = 32)) a (immI w) else none
    | 0 => aluOpW 0 false a (immI w)
    | _ => none
  | 0x33 =>
    match f7 with
    | 0 => some (aluOp f3 false a b)
    | 1 => some (mulOp f3 a b)
    | 32 => if f3 = 0 ∨ f3 = 5 then some (aluOp f3 true a b) else none
    | _ => none
  | 0x3B =>
    match f7 with
    | 0 => aluOpW f3 false a b
    | 1 => mulOpW f3 a b
    | 32 => aluOpW (if f3 = 0 ∨ f3 = 5 then f3 else 2) true a b
    | _ => none
  | _ => none

/-- Whether a branch is taken, none for a reserved funct3. -/
def branchTaken (f3 : Nat) (a b : W64) : Option Bool :=
  match f3 with
  | 0 => some (a == b)
  | 1 => some (a != b)
  | 4 => some (a.slt b)
  | 5 => some (!a.slt b)
  | 6 => some (a.ult b)
  | 7 => some (!a.ult b)
  | _ => none

/-! ### Machine-mode CSRs -/

/-- The storage key of a trigger's CSR, selected by tselect (R384). -/
def trigKey (c : CC) (n : Nat) : Nat := 0x10000 * ((c.csr 0x7A0).toNat % 4 + 1) + n

/-- CSRs that exist for a control core; the debug CSRs for a debugger only (log entries 16, 17). -/
def csrExists (dbg : Bool) (n : Nat) : Bool :=
  [0x300, 0x301, 0x304, 0x305, 0x320, 0x340, 0x341, 0x342, 0x343, 0x344, 0x7A0, 0x7A1, 0x7A2, 0x7A3, 0x7A4, 0x7C0,
   0x7C1, 0xB00, 0xB02, 0xC01, 0xF11, 0xF12, 0xF13, 0xF14, 0xF15, 0xFC0, 0xFC1].contains n ||
  (decide (0x323 ≤ n) && decide (n ≤ 0x33F)) || (decide (0xB03 ≤ n) && decide (n ≤ 0xB1F)) ||
  (dbg && decide (0x7B0 ≤ n) && decide (n ≤ 0x7B3))

/-- misa: RV64 with A, C, I, M and a non-standard extension (log entry 16). -/
def misaValue : W64 := 0x8000000000801105

/-- The value of a CSR. mcycle counts cycles, which the model does not have, so it reads a free value. -/
def State.csrValue (s : State) (l n : Nat) : W64 :=
  let c := s.cc l
  match n with
  | 0x300 => c.csr n ||| 0x1800
  | 0x301 => misaValue
  | 0x7A1 => SMap.get 0 c.csrs (trigKey c n)
  | 0x7A2 => SMap.get 0 c.csrs (trigKey c n)
  | 0x7A3 => SMap.get 0 c.csrs (trigKey c n)
  | 0x7A4 => BitVec.ofNat 64 (2 ^ 6 + 2 ^ 3)
  | 0x7C0 => (s.reg .CORE_FP_FLAGS (s.physOf l)).setWidth 64
  | 0x7C1 => c.mtimecmp
  | 0x7B1 => c.pc
  | 0xB00 => s.freeWord
  | 0xC01 => s.gtb (l / 192)
  | 0xF11 => 0
  | 0xF12 => 0
  | 0xF13 => 0
  | 0xF14 => BitVec.ofNat 64 l
  | 0xF15 => 0
  | 0xFC0 => (s.reg .CORE_FP_FLAGS (s.physOf l)).setWidth 64
  | 0xFC1 =>
    let m := s.mode 0 (.cc (Fin.ofNat 768 l))
    BitVec.ofNat 64 (m.1 % 2 ^ 32 * 2 ^ 32 + m.2.toNat)
  | _ => c.csr n

/-- Interrupts that mie and mip hold: timer, admission fault, mailbox (R60). -/
def irqMask : W64 := 0x30080

/-- A CSR written with a whole value: WARL fields keep to what the control core has (log entry 16); a bit of
mfpflags can only be cleared (R179). Bits 16 and 17 of mip stay pending until software writes mip: the spec names no other event
that clears them (DESIGN CHOICE, log entry 83). -/
def State.csrPut (s : State) (l n : Nat) (v : W64) : State :=
  let set (k : Nat) (v : W64) : State := s.modCC l (·.setCsr k v)
  match n with
  | 0x300 => set n (v &&& 0x88)
  | 0x304 => set n (v &&& irqMask)
  | 0x305 => set n (v &&& ~~~(2 : W64))
  | 0x320 => set n (v &&& 5)
  | 0x340 => set n v
  | 0x341 => set n (v &&& ~~~(1 : W64))
  | 0x342 => set n v
  | 0x343 => set n v
  | 0x344 => set n (((s.cc l).csr n &&& 0x80) ||| (v &&& 0x30000))
  | 0x7A0 => set n (v &&& 3)
  | 0x7A1 => s.modCC l fun c => c.setCsr (trigKey c n) v
  | 0x7A2 => s.modCC l fun c => c.setCsr (trigKey c n) v
  | 0x7A3 => s.modCC l fun c => c.setCsr (trigKey c n) v
  | 0x7B0 => set n v
  | 0x7B1 => s.modCC l fun c => { c with pc := v &&& ~~~(1 : W64) }
  | 0x7B2 => set n v
  | 0x7B3 => set n v
  | 0x7C0 =>
    let k := s.physOf l
    s.setReg .CORE_FP_FLAGS k 0 (s.reg .CORE_FP_FLAGS k &&& v.setWidth 32)
  | 0x7C1 =>
    s.modCC l fun c =>
      ({ c with mtimecmp := v }).setCsr csrMip (putBit (c.csr csrMip) 7 (decide (v.toNat ≤ (s.gtb (l / 192)).toNat)))
  | 0xB02 => set n v
  | _ => s

/-- The new value that a CSR instruction writes: CSRRW, CSRRS, CSRRC by funct3. -/
def csrNew (f3 : Nat) (old v : W64) : W64 :=
  match f3 % 4 with
  | 1 => v
  | 2 => old ||| v
  | _ => old &&& ~~~v

/-- Whether a CSR instruction writes: CSRRS and CSRRC with x0 or immediate 0 do not. -/
def csrWrites (f3 rs1 : Nat) : Bool := decide (f3 % 4 = 1) || decide (rs1 ≠ 0)

/-- A CSR instruction of funct3 `f3` on CSR `n`, none where it is illegal: no such CSR, or a write of a read-only
number. -/
def State.csrInstr (s : State) (l f3 n rd rs1 len : Nat) : Option State :=
  if !csrExists false n || (csrWrites f3 rs1 && decide (3 ≤ n / 1024)) then none
  else
    let c := s.cc l
    let v : W64 := if f3 < 4 then c.xr rs1 else BitVec.ofNat 64 rs1
    let old := s.csrValue l n
    let s := if n = 0xB00 then s.nextFree else s
    let s := if csrWrites f3 rs1 then s.csrPut l n (csrNew f3 old v) else s
    some (s.ccRetire l rd old len)

/-- MRET (privileged specification): MIE takes MPIE, MPIE sets, and the pc takes mepc. -/
def CC.mret (c : CC) : CC :=
  let st := c.csr csrMstatus
  let c := c.setCsr csrMstatus (putBit (putBit st 3 (st.getLsbD 7)) 7 true)
  { c with pc := c.csr csrMepc }

end Sys2Proof.Machine
end

