-- ==== Sys2Proof/Machine/Admission.lean ====
section
/-!
DEFINITION. Admission (3.7): the checks of Tables 3.11 and 3.14 with those of R105, R183, R207 and R253 to R263, the
span cache (R91), and a queue's acceptance of a descriptor (R64, R86, R333).
-/

namespace Sys2Proof.Machine

open Sys2Proof

/-- A failing field: its byte offset and the reason (Table 3.14). -/
abbrev Fail := Nat × Nat

/-- A failure at `off` with reason `r`, unless the check holds. -/
def chk (ok : Bool) (off r : Nat) : List Fail := if ok then [] else [(off, r)]

/-- The failure that is reported: the lowest byte offset, then the lowest reason (R92). -/
def firstFail (l : List Fail) : Option Fail :=
  l.foldl (fun m f =>
    match m with
    | none => some f
    | some g => if f.1 < g.1 || (f.1 == g.1 && decide (f.2 < g.2)) then some f else some g) none

/-! ### Spans and arenas (R91) -/

def State.spanBase (s : State) (l : Nat) : Nat := s.pair .CORE_SPAN_BASE_LO .CORE_SPAN_BASE_HI (s.physOf l)
def State.spanCount (s : State) (l : Nat) : Nat := (s.reg .CORE_SPAN_COUNT (s.physOf l)).toNat

/-- An uncorrectable error stands in the granules of a range: a loss without copy (R351). -/
def State.isLost (s : State) (a n : Nat) : Bool :=
  decide (n ≠ 0) && (span (granuleOf a) (granuleOf (a + n - 1))).any fun g => s.lost.contains g

/-- A span entry read from the partition's span table, if it can be read. -/
def State.readSpan (s : State) (l p t : Nat) : Option ((W64 × W64) × State) :=
  match s.pinnedLocal p (s.spanBase l + 2048 + 32 * t) 16 with
  | none => none
  | some ps =>
    if ps.any fun x => !s.isMemoryRange x.1 x.2 || s.isLost x.1 x.2 then none
    else
      let r := s.readPieces (.cc (Fin.ofNat 768 l)) ps
      some ((BitVec.ofNat 64 (fieldLe r.1 0 8), BitVec.ofNat 64 (fieldLe r.1 8 8)), r.2)

/-- The masks of span `t` as admission finds them: in its cache of sixteen entries, or in memory. None where SPAN is
not below CORE_SPAN_COUNT or the entry cannot be read, which is reason 11. A full cache gives up the entry used least recently
(DESIGN CHOICE, log entry 84). -/
def State.spanMasks (s : State) (l p t : Nat) : Option (W64 × W64) × State :=
  if s.spanCount l ≤ t then (none, s)
  else
    let keep (s : State) (m : W64 × W64) : State :=
      s.modCore l fun c => { c with spanCache := ((t, m) :: c.spanCache.filter fun e => e.1 != t).take 16 }
    match (s.core l).spanCache.find? fun e => e.1 == t with
    | some (_, m) => (some m, keep s m)
    | none =>
      match s.readSpan l p t with
      | none => (none, s)
      | some (m, s') => (some m, keep s' m)

/-- A range lies within one arena of a mask, in the space of its context (R91, R253). -/
def inArenas (as : List Arena) (mask : W64) (ctx start len : Nat) : Bool :=
  decide (len = 0) || as.zipIdx.any fun (a, k) =>
    mask.getLsbD k && (if ctx = 255 then !a.virt else a.virt && a.ctx == ctx) &&
    decide (a.base ≤ start) && decide (start + len ≤ a.base + a.len)

/-- The arena checks of one named range: reason 6 outside every arena of the span, reason 7 where a written range
lies in no output arena. -/
def arenaFails (as : List Arena) (m : W64 × W64) (r : BodyRange) : List Fail :=
  if inArenas as (m.1 ||| m.2) r.ctx r.start r.len then
    chk (!r.wr || inArenas as m.2 r.ctx r.start r.len) r.off 7
  else [(r.off, 6)]

/-! ### Fields common to every descriptor (R84 to R86) -/

/-- The first non-zero byte of a range of bytes fails with reason 3. -/
def zeroBytes (d : Desc) (lo hi : Nat) : List Fail :=
  match (List.range (hi - lo)).find? fun k => d.fld (lo + k) 1 != 0 with
  | none => []
  | some k => [(lo + k, 3)]

/-- Opcodes defined for an engine (R105, R182, R252, 8.4). -/
def opcodeOk (engine op : Nat) : Bool := if engine = 3 then decide (op ≤ 6) else decide (op ≤ 1)

/-- A signal's target is one that the partition may signal: a counter, or a barrier slot for an ARRIVE. -/
def State.targetOk (s : State) (p kind h : Nat) : Bool := if kind = 2 then s.validSlot p h else s.validHandle p h

/-- The checks of header, wait slots and signal slots (Table 3.14). Two points are the model's (DESIGN CHOICE, log entry 85): reason
2 judges the opcode for the engine of the queue that is pushed to, and reason 3 names the field's first byte where the field is
reserved inside a used slot, but the first non-zero byte of an unused slot. -/
def State.headerFails (s : State) (p q : Nat) (d : Desc) : List Fail :=
  chk (opcodeOk (engineOfQueue q) d.opcode) 0 2 ++
  chk (decide (d.engine = engineOfQueue q)) 1 1 ++
  chk (decide (d.nwait ≠ 3) && decide (d.nsig ≠ 3)) 1 3 ++
  chk (decide (bitsOf d 31 18 = 0)) 2 3 ++
  ((List.range (min d.nwait 2)).flatMap fun i =>
    chk (s.validHandle p (d.waitSlot i).1) (8 + 16 * i) 4 ++ chk (decide (d.fld (11 + 16 * i) 5 = 0)) (11 + 16 * i) 3) ++
  ((List.range (min d.nsig 2)).flatMap fun i =>
    let g := d.sigSlot i
    chk (decide (3 ≤ g.kind) || s.targetOk p g.kind g.handle) (40 + 16 * i) 4 ++
    chk (decide (g.kind < 3)) (43 + 16 * i) 3 ++ chk (decide (g.seq = 0)) (44 + 16 * i) 3) ++
  zeroBytes d (8 + 16 * min d.nwait 2) 40 ++ zeroBytes d (40 + 16 * min d.nsig 2) 72

/-! ### LAUNCH (R105) -/

/-- Local memory that blocks of a core may use: the split in force less the stream-queue reserve (R123, R319). -/
def State.blockLm (s : State) (l : Nat) : Nat := s.lmSize l - 4096 * s.field .CORE_SQ_RESV (s.physOf l) 0 6 0

def State.launchFails (s : State) (l p : Nat) (d : Desc) : List Fail :=
  let x := d.fld 84 4
  let y := d.fld 88 4
  let z := d.fld 92 4
  let mode := d.fld 99 1
  chk (decide (d.fld 72 8 % 8 = 0)) 72 8 ++ chk (decide (d.fld 80 4 % 8 = 0)) 80 8 ++
  chk (decide (x ≠ 0)) 84 8 ++ chk (decide (y ≠ 0)) 88 8 ++ chk (decide (z ≠ 0)) 92 8 ++
  chk (decide (x * y * z ≤ 2 ^ 31)) 84 8 ++
  chk (decide (1 ≤ d.fld 96 1) && decide (d.fld 96 1 ≤ 32)) 96 8 ++
  chk (decide (1 ≤ d.fld 97 1)) 97 8 ++ chk (decide (16 ≤ d.fld 98 1)) 98 8 ++
  chk (decide (natBits mode 6 2 = 0)) 99 3 ++
  chk (!mode.testBit 7 || (s.reg .CLU_DIST_CFG (l / 8)).getLsbD (natBits mode 1 0)) 99 8 ++
  chk (decide (d.fld 100 4 % 256 = 0) && decide (d.fld 100 4 ≤ s.blockLm l)) 100 8 ++
  zeroBytes d 112 128 ++
  (d.launchRanges.flatMap fun r =>
    chk (decide (r.len = 0) || (s.pinnedPieces p r.start r.len).isSome) r.off 5)

/-! ### MMA (R183) -/

/-- The pieces of an MU operand range: the scratchpad aperture and the core's own window directly, other addresses
through the pinned map; none where the range fails (R182, R183, R251). -/
def State.muPieces (s : State) (l p a n : Nat) : Option (List (Nat × Nat)) :=
  match windowOf a with
  | some (k, off) => if k = l && decide (off + n ≤ s.lmSize l) then some [(a, n)] else none
  | none => s.pinnedLocal p a n

/-- The P4 table that a partition names, if it has one: table 0 holds the E2M1 values unless replaced (R166). -/
def State.hasP4 (s : State) (p t : Nat) : Bool := t == 0 || (SMap.get none s.cfg.p4 (16 * p + t)).isSome

def State.mmaFails (s : State) (l p : Nat) (d : Desc) : List Fail :=
  let row (f : Nat) : Nat := d.mmaK * mmaWidth f / 8
  let wr := d.mmaRanges.filter (·.wr)
  chk (decide (natBits (d.fld 118 6) 47 44 = 0)) 118 3 ++
  chk (decide (natBits d.cfg 31 24 = 0) && decide (d.rndCode ≤ 4)) 124 3 ++
  chk (mmaRow d.fmtA d.scA && d.fmtA == d.fmtB && d.scA == d.scB && (d.fmtA != 12 || d.tblA == d.tblB) &&
    (d.fmtA == 12 || d.tblA == 0) && (d.fmtB == 12 || d.tblB == 0)) 124 9 ++
  chk ((d.fmtA != 12 || s.hasP4 p d.tblA) && (d.fmtB != 12 || s.hasP4 p d.tblB)) 124 10 ++
  chk (decide (d.mmaK % 32 = 0)) 118 8 ++
  chk (decide (row d.fmtA ≤ d.fld 112 2 * 16)) 112 8 ++
  chk (decide (row d.fmtB ≤ d.fld 114 2 * 16)) 114 8 ++
  chk (decide (d.mmaN * outBytes d.ofmt ≤ d.fld 116 2 * 16)) 116 8 ++
  chk (decide (d.fld 72 8 % 16 = 0)) 72 8 ++ chk (decide (d.fld 80 8 % 16 = 0)) 80 8 ++
  chk (decide (d.fld 88 8 % 16 = 0)) 88 8 ++
  chk (wr.all fun w => d.mmaRanges.all fun r => r.wr || !w.meets r) 88 8 ++
  (d.mmaRanges.flatMap fun r =>
    chk (match s.muPieces l p r.start r.len with
      | none => false
      | some ps => !(d.useStream && (r.off == 80 || r.off == 104)) || ps.all fun x => decide (x.1 + x.2 ≤ nearEnd))
      r.off 5)

/-! ### DMA (R239, R253 to R263) -/

def Desc.copyFails (d : Desc) : List Fail :=
  let nd := d.fld 94 1
  chk (decide (d.fld 95 1 = 0)) 95 3 ++ chk (decide (1 ≤ nd) && decide (nd ≤ 5)) 94 8 ++
  ((List.range 4).flatMap fun k => chk (decide (k + 1 < nd) || decide (d.fld (96 + 8 * k) 8 = 0)) (96 + 8 * k) 8) ++
  chk (decide (d.fld 88 4 ≠ 0) && decide (d.copyRows * d.fld 88 4 ≤ 2 ^ 40)) 88 8

def Desc.indexedFails (d : Desc) : List Fail :=
  let fl := d.fld 115 1
  let op := d.fld 116 1
  let w := opWidth (natBits op 3 0)
  chk (decide (natBits fl 7 3 = 0)) 115 3 ++ chk (decide (d.fld 117 3 = 0)) 117 3 ++
  chk (decide (d.fld 124 4 = 0)) 124 3 ++
  chk (decide (1 ≤ d.fld 96 4) && decide (d.fld 96 4 ≤ 2 ^ 24)) 96 8 ++
  chk (decide (1 ≤ d.fld 100 4) && decide (d.fld 100 4 ≤ 2 ^ 20)) 100 8 ++
  chk (decide (d.fld 120 4 = 0) || !fl.testBit 1) 120 8 ++
  (if d.opcode = 6 then
    chk (decide (natBits op 7 5 = 0)) 116 3 ++ chk (decide (natBits op 3 0 ≤ 9)) 116 8 ++
    chk (decide (d.fld 72 8 % w = 0)) 72 8 ++ chk (decide (d.fld 88 8 % w = 0)) 88 8 ++
    chk (decide (d.fld 100 4 % w = 0)) 100 8 ++ chk (decide (d.fld 104 8 % w = 0)) 104 8
  else chk (!fl.testBit 2) 115 8 ++ chk (decide (op = 0)) 116 8) ++
  (if d.isDense then chk (decide (d.fld 80 8 = 0)) 80 8 else chk (decide (d.fld 80 8 % d.idxWidth = 0)) 80 8)

def State.bucketFails (s : State) (p : Nat) (d : Desc) : List Fail :=
  let rs := d.fld 100 1
  zeroBytes d 106 128 ++ chk (decide (d.fld 72 8 % 8 = 0)) 72 8 ++ chk (decide (d.fld 80 8 % 8 = 0)) 80 8 ++
  chk (decide (d.fld 88 8 % 8 = 0)) 88 8 ++ chk (decide (d.fld 96 4 ≤ 2 ^ 24)) 96 8 ++
  chk (decide (1 ≤ rs) && decide (rs ≤ 8)) 100 8 ++ chk (decide (4 * d.fld 101 1 + 4 ≤ 8 * rs)) 101 8 ++
  chk (decide (d.fld 102 1 < 16) && (SMap.get none s.cfg.bucket (16 * p + d.fld 102 1)).isSome) 102 10

def Desc.fillFails (d : Desc) : List Fail :=
  zeroBytes d 105 128 ++ chk (decide (d.fld 88 4 ≠ 0) && decide (d.fld 88 4 * d.fld 92 4 ≤ 2 ^ 40)) 88 8 ++
  chk (decide (1 ≤ d.fld 92 4) && decide (d.fld 92 4 ≤ 2 ^ 24)) 92 8 ++ chk (decide (d.fld 96 8 % 16 = 0)) 96 8

def State.deFails (s : State) (p : Nat) (d : Desc) : List Fail :=
  (match d.opcode with
    | 1 => d.copyFails
    | 4 => s.bucketFails p d
    | 5 => d.fillFails
    | _ => d.indexedFails) ++
  (d.deRanges.flatMap fun r =>
    chk (r.ctx == 255 || decide (r.len = 0) || decide (r.start + r.len ≤ 2 ^ 56)) r.off 8) ++
  ((d.deRanges.filter (·.wr)).flatMap fun w =>
    chk (d.deRanges.all fun r => r.wr || r.off == w.off || !w.meets r) w.off 8)

/-! ### ATTEND (R207) -/

def State.attendFails (s : State) (p : Nat) (d : Desc) : List Fail :=
  let pool := SMap.get none s.cfg.pool p
  chk (decide (d.fld 72 8 % 64 = 0)) 72 8 ++
  chk (decide (1 ≤ d.fld 80 2) && decide (d.fld 80 2 ≤ 64)) 80 8 ++
  chk (decide (1 ≤ d.fld 82 1) && decide (d.fld 82 1 ≤ 16)) 82 8 ++
  chk (decide (1 ≤ d.fld 83 1) && decide (d.fld 83 1 ≤ 16)) 83 8 ++
  chk (decide (natBits (d.fld 84 1) 7 4 ≤ 3) && decide (natBits (d.fld 84 1) 3 0 ≤ 3)) 84 8 ++
  chk (decide (natBits (d.fld 85 1) 7 2 = 0)) 85 3 ++
  chk pool.isSome 85 10 ++
  chk (match pool with
    | none => true
    | some k => k.page == natBits (d.fld 85 1) 1 0) 85 8 ++
  chk (decide (d.fld 86 1 ≤ 8)) 86 8 ++
  chk (decide (natBits (d.fld 88 4) 30 23 ≠ 255)) 88 8 ++
  chk (decide (d.fld 92 3 = 0) || s.validHandle p (d.fld 92 3)) 92 4 ++
  chk (decide (d.fld 96 4 = 0)) 96 3 ++
  zeroBytes d 87 88 ++ zeroBytes d 95 96 ++ zeroBytes d 100 128 ++
  (d.attendRanges.flatMap fun r => chk (decide (r.len = 0) || (s.pinnedLocal p r.start r.len).isSome) r.off 5)

/-! ### The check as a whole -/

/-- The checks of an operation body: none for a NOP, whose body is ignored (R87), or for another engine's code. -/
def State.bodyFails (s : State) (l p q : Nat) (d : Desc) : List Fail :=
  if d.opcode = 0 || d.engine != engineOfQueue q || !opcodeOk (engineOfQueue q) d.opcode then []
  else
    match engineOfQueue q with
    | 1 => s.launchFails l p d
    | 2 => s.mmaFails l p d
    | 3 => s.deFails p d
    | _ => s.attendFails p d

/-- Every failing field of a descriptor that core `l` of partition `p` offers to queue `q`, and the state after
admission has read the span entry. -/
def State.admissionFails (s : State) (l p q : Nat) (d : Desc) : List Fail × State :=
  let m := s.spanMasks l p d.spanTag
  let spanPart :=
    match m.1 with
    | none => [(4, 11)]
    | some masks =>
      if d.engine != engineOfQueue q || !opcodeOk (engineOfQueue q) d.opcode then []
      else (d.ranges q).flatMap (arenaFails (s.core l).arenas masks)
  (s.headerFails p q d ++ s.bodyFails l p q d ++ spanPart, m.2)

/-! ### Acceptance -/

/-- Records beyond its guaranteed 128 that a core holds (R333). -/
def Core.extraRecords (c : Core) : Nat := c.recordsHeld - 128

/-- Shared records that the cores of a cluster hold. -/
def State.sharedHeld (s : State) (c : Nat) : Nat :=
  (List.range 8).foldl (fun n i => n + (s.core (c * 8 + i)).extraRecords) 0

/-- The pushes of a core that wait: its control core's QPUSH, and MQPUSHes of its groups. -/
def Core.pushesWaiting (c : Core) : Nat :=
  (match c.cc.stall with
    | some (.qpush _ _ _) => 1
    | _ => 0) +
  (c.ve.groups.filter fun e => match e.2 with
    | some g => (match g.status with
      | .mqStall _ _ => true
      | _ => false)
    | none => false).length

/-- The requests for a shared record that stand, by their core, in the order in which they were made (R333): no more of a core
than it has pushes waiting, and none of a core that has records of its own free. -/
def State.recordQueue (s : State) (c : Nat) : List Nat :=
  (s.cluster c).recordWait.foldl (fun acc l =>
    if 128 ≤ (s.core l).recordsHeld ∧ (acc.filter (· == l)).length < (s.core l).pushesWaiting then acc ++ [l] else acc) []

/-- The requests of a cluster that no longer stand are forgotten. -/
def State.tidyRecords (s : State) (c : Nat) : State := s.modCluster c fun x => { x with recordWait := s.recordQueue c }

/-- A free instruction record for a core: of its own 128, or of the 512 that its cluster's cores share, which go to cores in the
order of their requests (R333). -/
def State.recordFree (s : State) (l : Nat) : Bool :=
  decide ((s.core l).recordsHeld < 128) ||
  decide (s.sharedHeld (l / 8) + ((s.recordQueue (l / 8)).takeWhile (· != l)).length < 512)

/-- A push that waits and finds no record asks for a shared one, once (R333). -/
def State.askRecord (s : State) (l : Nat) : State :=
  if s.recordFree l then s
  else
    let s := s.tidyRecords (l / 8)
    s.modCluster (l / 8) fun x =>
      if (x.recordWait.filter (· == l)).length < (s.core l).pushesWaiting then { x with recordWait := x.recordWait ++ [l] } else x

/-- The oldest request of a core is answered. -/
def State.endAsk (s : State) (l : Nat) : State := s.modCluster (l / 8) fun x => { x with recordWait := x.recordWait.erase l }

/-- A queue has a free slot and the record store a free record (R64, R333). -/
def State.canAccept (s : State) (l q : Nat) : Bool :=
  decide ((s.queue l q).entries.length < queueDepth q) && s.recordFree l

/-- The descriptor with its signal sequences stamped: an ATTEND's event first, then the used slots in order (R86,
R207); and the queue's signal sequence after it. -/
def stampSeqs (q : Nat) (seq : W32) (d : Desc) : Desc × W32 :=
  let ev := decide (4 ≤ q) && d.opcode == 1 && d.fld 92 3 != 0
  let r := if ev then (d.put32 96 (seq + 1), seq + 1) else (d, seq)
  (List.range (min d.nsig 2)).foldl (fun (r : Desc × W32) i => (r.1.put32 (44 + 16 * i) (r.2 + 1), r.2 + 1)) r

/-- The descriptor enters the queue as its newest entry (R64 step 5, R334). -/
def State.enqueue (s : State) (l q : Nat) (mode : Nat × W32) (d : Desc) : State :=
  s.modQueue l q fun x =>
    let r := stampSeqs q x.sigSeq d
    { x with accepted := x.accepted + 1, sigSeq := r.2,
             entries := x.entries ++ [({ acc := x.accepted + 1, desc := r.1, mode := mode } : QEntry)] }

/-- An admission fault is recorded in CORE_ADM_STATUS and CORE_ADM_ADDR; while VALID is set only OVERFLOW rises
(R92, R93, Table 3.13). -/
def State.recordAdmission (s : State) (l : Nat) (origin group q : Nat) (f : Fail) (addr : Nat) : State :=
  let k := s.physOf l
  if (s.reg .CORE_ADM_STATUS k).getLsbD 31 then s.bumpField .CORE_ADM_STATUS k 0 23 20 1
  else
    ((s.setReg .CORE_ADM_STATUS k 0 (BitVec.ofNat 32 (2 ^ 31 + origin * 2 ^ 30 + group * 2 ^ 24 + q * 2 ^ 16 +
      f.1 * 2 ^ 8 + f.2))).setReg .CORE_ADM_ADDR_LO k 0 (BitVec.ofNat 32 addr)).setReg .CORE_ADM_ADDR_HI k 0
      (BitVec.ofNat 32 (addr >>> 32))

/-- What admission answers. -/
inductive Admitted where
  | accepted (count : Nat) (s : State)
  | failed (f : Fail) (s : State)

/-- The cycles that a push waited for a slot or a record (Table 15.12), which a model without cycles does not know: a free number
(log entry 22). -/
def State.countStall (s : State) (l : Nat) : State :=
  (s.addCount .CORE_CNT_LO (s.physOf l) 8 (Config.freeNat s.freeCtr)).nextFree

/-- Admission of a descriptor by core `l` into queue `q` (R64 step 5, R90). A core of no partition addresses
nothing, so its handles and spans all fail. -/
def State.offerDesc (s : State) (l q : Nat) (mode : Nat × W32) (d : Desc) : Admitted :=
  let r := ((s.countStall l).endAsk l).admissionFails l ((s.partOf l).getD 16) q d
  match firstFail r.1 with
  | some f => .failed f r.2
  | none => .accepted ((s.queue l q).accepted + 1) (r.2.enqueue l q mode d)

end Sys2Proof.Machine
end

