-- ==== Sys2Proof/Machine/Trace.lean ====
section
/-!
DEFINITION. Trace records (R396, R397, R401).
-/

namespace Sys2Proof.Machine

open Sys2Proof

/-- TRACE of a mode word (Table 14.7). -/
def traceBit (m : W32) : Bool := m.getLsbD 11

/-- What a trace record says of its event (Table 15.10), and the unit that writes it. -/
structure TraceEv where
  unit : Unit
  src : W32
  kind : Nat
  epoch : Nat
  sel : Nat := 0xFF
  op : Nat := 0
  acc : Nat := 0
  span : Nat := 0
  arg : Nat := 0

def TraceEv.bytes (t : TraceEv) (time : W64) : List Byte :=
  leBytes 8 time.toNat ++ leBytes 4 t.src.toNat ++ leBytes 1 t.kind ++ leBytes 1 (t.epoch % 4) ++ leBytes 1 t.sel ++
    leBytes 1 t.op ++ leBytes 4 t.acc ++ leBytes 4 t.span ++ leBytes 8 t.arg

/-- A trace record of partition `p`: written to the partition's ring, or dropped and counted where the ring is full or
lies outside the pinned map, or the observation budget does not cover it (R397, R401). -/
def State.trace (s : State) (p : Nat) (t : TraceEv) : State :=
  let size := 2 ^ s.field .MOD_TRC_CTRL p 0 29 25
  let tail := s.field .MOD_TRC_CTRL p 0 24 0
  let head := s.field .MOD_TRC_HEAD p 0 24 0
  let drop := s.bumpField .MOD_TRC_DROPS p 0 31 0 1
  if (tail + 2 ^ 25 - head) % 2 ^ 25 = size ∨ s.obsBudget < 32 then drop
  else
    match s.pinnedLocal p (s.pair .MOD_TRC_BASE_LO .MOD_TRC_BASE_HI p + 32 * (tail % size)) 32 with
    | none => drop
    | some ps =>
      if ps.all fun x => s.isMemoryRange x.1 x.2 then
        let s := { s with obsBudget := s.obsBudget - 32 }
        (s.writePieces t.unit ps (t.bytes (s.gtb (s.unitDie t.unit)))).setField .MOD_TRC_CTRL p 0 24 0 ((tail + 1) % 2 ^ 25)
      else drop

/-- A trace record of a unit whose applied mode word has TRACE set (R396). -/
def State.traceUnit (s : State) (p : Option Nat) (mode : Nat × W32) (t : TraceEv) : State :=
  match p with
  | none => s
  | some p => if traceBit mode.2 then s.trace p { t with epoch := mode.1 } else s

/-- The unit that runs the instructions of a queue (R367). -/
def queueUnit (l : CoreId) (q : Nat) : ModeUnit :=
  match q with
  | 0 => .ve l
  | 1 => .mu l
  | 2 => .de l
  | _ => .sched (Fin.ofNat 12 (q - 4))

/-- The unit that accesses memory for the instructions of a queue (R15). -/
def queueWriter (l : CoreId) (q : Nat) : Unit :=
  match q with
  | 0 => .ve l
  | 1 => .mu l
  | 2 => .de l
  | _ => .grate (Fin.ofNat 12 (q - 4)) l

/-- The source number of the engine that runs the instructions of a queue. -/
def State.queueSrc (s : State) (l q : Nat) : W32 := if q < 4 then s.srcCore l (engineOfSel q) else s.srcSched (q - 4)

/-- A trace record of an instruction of a queue (Table 15.11, kinds 1 to 3). A grate command runs under the mode of
the epoch it was pushed in (R370). -/
def State.traceInstr (s : State) (l : CoreId) (q : Nat) (e : QEntry) (kind arg : Nat) : State :=
  s.traceUnit (s.partOf l) (if q < 4 then s.mode 0 (queueUnit l q) else e.mode)
    { unit := queueWriter l q, src := s.queueSrc l q, kind := kind, epoch := 0, sel := q, op := e.desc.opcode, acc := e.acc,
      span := e.desc.spanTag, arg := arg }

/-- The trace record of a satisfied CWAIT of a control core or of a group (Table 15.11, kind 5). -/
def State.traceWait (s : State) (l : CoreId) (group : Bool) (v : W64) : State :=
  let u : ModeUnit := if group then .ve l else .cc l
  s.traceUnit (s.partOf l) (s.mode 0 u)
    { unit := if group then .ve l else .cc l, src := s.srcCore l (if group then 1 else 0), kind := 5, epoch := 0, arg := v.toNat }

end Sys2Proof.Machine
end

