-- ==== Sys2Proof/Machine/ControlCore.lean ====
section
/-!
DEFINITION. The commands of the control core that use no address (03): QPUSH and its admission, QSTAT, CWAIT, CSIG,
GTB, interrupts, mfpflags; and those of the control cache: fills, snoops, write-backs and requests at a home.
-/

namespace Sys2Proof.Machine

open Sys2Proof

/-- The word at a core's pc: it fetches from IMEM only (R62). -/
def State.fetchWord (s : State) (l : Nat) : W32 :=
  BitVec.ofNat 32 ((s.core l).privLoad ((s.cc l).pc.toNat - privBase) 4)

/-- The bytes of an instruction by its first two bits. -/
def wordLen (w : W32) : Nat := if bitsOf w 1 0 = 3 then 4 else 2

/-- The instruction at the pc lies in IMEM. -/
def State.fetchOk (s : State) (l : Nat) : Bool :=
  let pc := (s.cc l).pc.toNat
  decide (privBase ≤ pc) && decide (pc + wordLen (s.fetchWord l) ≤ privBase + imemBytes)

/-- The length of the instruction at the pc, when it is instruction `w`, itself or in its compressed form (R26, R62). -/
def State.fetches (s : State) (l : Nat) (w : W32) : Option Nat :=
  match expand (s.fetchWord l) with
  | some (x, n) => if x = w then some n else none
  | none => none

/-- The length of the instruction at the pc, when `w` is its word as it stands. -/
def State.fetchesRaw (s : State) (l : Nat) (w : W32) : Option Nat :=
  let x := s.fetchWord l
  let n := wordLen x
  if bitsOf x (8 * n - 1) 0 = bitsOf w (8 * n - 1) 0 then some n else none

/-- A control core issues the instruction at its pc, of `len?` bytes: nothing while it is halted, stopped, lost or stalled, or where
the command's instruction is not the one at the pc; an instruction access fault where its pc lies outside IMEM (R62). -/
def State.ccIssue (s : State) (l : Nat) (len? : Option Nat) (k : Nat → State → State) : Res :=
  if !s.ccRuns l then .next s
  else if !s.fetchOk l then .next (s.ccTrap l excFetchFault (s.cc l).pc)
  else
    match len? with
    | none => .next s
    | some n => .next (k n s)

/-- The word of an Xclq instruction (R63). -/
def xclqEnc (f7 rs2 rs1 f3 rd : Nat) : W32 := encR f7 rs2 rs1 f3 rd 0x0B
def xclqWord (f7 rs2 rs1 f3 rd : Nat) : W64 := (xclqEnc f7 rs2 rs1 f3 rd).setWidth 64

/-- An Xclq word that is a legal instruction (R63, Table 3.3). -/
def xclqLegal (w : W32) : Bool :=
  match f3Of w with
  | 0 | 1 | 2 | 4 => f7Of w == 0
  | 3 => decide (f7Of w ≤ 2)
  | _ => false

/-! ### Xclq -/

/-- QPUSH as it issues (R64 steps 1 and 2, R79): it then waits in `stall` for a slot, a record and its stores. -/
def State.qpush (s : State) (l : Nat) (rd rs1 rs2 : XReg) (f7 : Nat) : State :=
  let c := s.cc l
  let a := (c.xr rs1).toNat
  let sel := (c.xr rs2).toNat
  if f7 ≠ 0 ∨ !isQueue sel then s.ccTrap l excIllegal (xclqWord f7 rs2 rs1 0 rd)
  else if a % 128 ≠ 0 then s.ccTrap l excLoadMisaligned (c.xr rs1)
  else if ¬(privBase + 0x10000 ≤ a ∧ a < privBase + 0x20000) then s.ccTrap l excLoadFault (c.xr rs1)
  else ((s.tidyRecords (l / 8)).modCC l fun c => { c with stall := some (.qpush rd a sel) }).askRecord l

/-- QPUSH (R64). -/
def execQpush (l : CoreId) (rd rs1 rs2 : XReg) (f7 : BitVec 7) (s : State) : Res :=
  s.ccIssue l (s.fetches l (xclqEnc f7.toNat rs2 rs1 0 rd)) fun _ s => s.qpush l rd rs1 rs2 f7.toNat

/-- QPUSH_ADMISSION (R64 steps 2 to 5, R92): the stalled QPUSH finds a slot, a record and no pending store; its copy
is admitted and retires in the same step, or the core takes exception 24. -/
def execQpushAdmission (l : CoreId) (s : State) : Res :=
  let c := s.core l
  match c.cc.stall with
  | some (.qpush rd a sel) =>
    if c.cc.halted || c.cc.stopped || s.fenced l || s.quiesced l || !c.cc.stores.isEmpty then .next s
    else if !s.canAccept l sel then .next (s.askRecord l)
    else
      let d := descOf (c.privBytes (a - privBase) 128)
      match s.offerDesc l sel (s.mode 0 (.cc l)) d with
      | .accepted n s' => .next (s'.ccRetire l rd (BitVec.ofNat 64 n))
      | .failed f s' =>
        .next ((s'.recordAdmission l 0 0 sel f a).ccTrap l excAdmission (BitVec.ofNat 64 a))
  | _ => .next s

/-- A waiter's wait is satisfied (R85, R278): by the counter's value at its home here; by the wake of its home for a system
counter that another module owns. -/
def State.waitMet (s : State) (who : Waiter) (k : Nat) (x : W64) : Bool :=
  match s.ownerElsewhere k with
  | none => decide (x.toNat ≤ (s.value k).toNat)
  | some _ => (s.counter k).waiters.any fun w => decide (w.who = who) && w.expected == x && w.met.isSome

/-- The waiter that an instruction of a queue is. -/
def entryWaiter (l q acc : Nat) : Waiter := .entry (Fin.ofNat 768 l) (Fin.ofNat 16 q) acc

/-- An instruction's wait slots are all satisfied (R85). -/
def State.waitsMet (s : State) (l q : Nat) (e : QEntry) : Bool :=
  e.desc.waitSlots.all fun w => s.waitMet (entryWaiter l q e.acc) (counterOf l w.1) w.2

/-- The start of an instruction traced (Table 15.11, kind 1), and its registrations over. -/
def State.traceStart (s : State) (l : CoreId) (q : Nat) (e : QEntry) : State :=
  (s.traceInstr l q e 1 (e.desc.waitSlots.foldl (fun n w => n * 2 ^ 32 + w.2.toNat % 2 ^ 32) 0 % 2 ^ 64)).dropWaiter
    (entryWaiter l q e.acc)

/-- The oldest entry of a queue that has not started. -/
def Queue.oldestPending (q : Queue) : Option QEntry := q.entries.find? fun e => e.st = .pending

/-- The engine of a queue is stopped by a damper stop or a loss without copy (R351, R389). -/
def State.engineStopped (s : State) (l q : Nat) : Bool :=
  let c := s.core l
  s.lossHalted l ||
  match q with
  | 0 => c.ve.stopped
  | 1 => c.mu.stopped
  | 2 => c.deStopped
  | _ => (s.stack (q - 4)).stopped

/-- A damper stop is stopping, stopped or resuming (Table 15.16). -/
def State.damperActive (s : State) : Bool :=
  let st := s.field .MOD_DAMP_STATUS 0 0 31 29
  decide (2 ≤ st) && decide (st ≤ 4)

/-- The engine of a queue is stopped, or drains after a breakpoint on its control core or for a damper stop (Table 3.6). -/
def State.engineHalted (s : State) (l q : Nat) : Bool := (s.core l).cc.halted || s.engineStopped l q || s.damperActive

def Queue.countState (q : Queue) (st : QState) : Nat := (q.entries.filter fun e => e.st = st).length

/-- The queue status word (Table 3.6). -/
def State.queueStatus (s : State) (l q : Nat) : W64 :=
  let x := s.queue l q
  let b (v : Bool) : Nat := if v then 1 else 0
  let blocked := match x.oldestPending with
    | none => false
    | some e => !s.waitsMet l q e
  let paused := x.entries.any fun e => e.st = .running && e.paused
  BitVec.ofNat 64 (x.accepted % 2 ^ 24 * 2 ^ 40 + b (s.engineHalted l q) * 2 ^ 34 + b paused * 2 ^ 33 +
    b blocked * 2 ^ 32 + x.countState .complete % 256 * 2 ^ 24 +
    (x.countState .running + x.countState .taken) % 256 * 2 ^ 16 + x.countState .pending % 256 * 2 ^ 8 +
    (queueDepth q - x.entries.length) % 256)

def State.qstat (s : State) (l : Nat) (rd rs1 : XReg) (f7 : Nat) : State :=
  let sel := ((s.cc l).xr rs1).toNat
  if f7 ≠ 0 ∨ !isQueue sel then s.ccTrap l excIllegal (xclqWord f7 0 rs1 1 rd)
  else s.ccRetire l rd (s.queueStatus l sel)

/-- QSTAT (R65). -/
def execQstat (l : CoreId) (rd rs1 : XReg) (f7 : BitVec 7) (s : State) : Res :=
  s.ccIssue l (s.fetches l (xclqEnc f7.toNat 0 rs1 1 rd)) fun _ s => s.qstat l rd rs1 f7.toNat

/-- A handle is one that core `l`'s partition may use. -/
def State.coreHandle (s : State) (l h : Nat) : Bool :=
  match s.partOf l with
  | none => false
  | some p => s.validHandle p h

def State.cwait (s : State) (l : CoreId) (rd rs1 rs2 : XReg) (f7 : Nat) : State :=
  let c := s.cc l
  let h := (c.xr rs1).toNat % 2 ^ 24
  let x := c.xr rs2
  if f7 ≠ 0 then s.ccTrap l excIllegal (xclqWord f7 rs2 rs1 2 rd)
  else if !s.coreHandle l h then s.ccTrap l excLoadFault (c.xr rs1)
  else
    let k := counterOf l h
    if s.waitMet (.cc l) k x then (s.ccRetire l rd (s.value k)).traceWait l false (s.value k)
    else (s.modCC l fun c => { c with stall := some (.cwait rd k x) }).registerWait { who := .cc l, expected := x } k

/-- CWAIT (R66): completes at once when the counter is there, else it stalls and registers at the counter's home; for a system
counter that another module owns it always asks there (R278). -/
def execCwait (l : CoreId) (rd rs1 rs2 : XReg) (f7 : BitVec 7) (s : State) : Res :=
  s.ccIssue l (s.fetches l (xclqEnc f7.toNat rs2 rs1 2 rd)) fun _ s => s.cwait l rd rs1 rs2 f7.toNat

/-- The stream of a control core, and of a queue (Table 11.5). -/
def ccStream (l : Nat) : W32 := BitVec.ofNat 32 (l * 2 ^ 16 + 3)
def queueStream (l q : Nat) : W32 := BitVec.ofNat 32 (l * 2 ^ 16 + q)

/-- Signal kind by its code. -/
def kindOf (k : Nat) : SigKind := if k = 0 then .add else if k = 1 then .raise else .arrive

/-- Homes of other modules, four Chimney nodes each, are numbered from here on. -/
def awayBase : Nat := 2 ^ 20

/-- The home that a signal goes to (R275): for a system counter owned elsewhere, the Chimney node of its owner. -/
def State.sigHome (s : State) (k : Nat) : Nat :=
  match s.ownerElsewhere k with
  | some m => awayBase + m * 4 + counterHome k
  | none => counterHome k

/-- The other module that a home lies in. -/
def homeModule (home : Nat) : Option Nat := if awayBase ≤ home then some ((home - awayBase) / 4) else none

/-- The core whose engine owns a stream (Table 11.5). -/
def streamCore (st : W32) : CoreId := Fin.ofNat 768 (bitsOf st 25 16)

/-- The source number that a stream's signals bear as they leave: of the engine, by the slot it runs in then (R22). -/
def State.streamSrc (s : State) (st : W32) : W32 :=
  let l := (streamCore st).val
  if st.getLsbD 31 then s.srcCore l 1
  else
    match bitsOf st 3 0 with
    | 3 => s.srcCore l 0
    | q => s.queueSrc l q

/-- A signal of core `l` made ready for its stream. -/
def State.mkSig (s : State) (l : Nat) (stream seq : W32) (handle kind : Nat) (x : W64) : Sig :=
  let src := s.streamSrc stream
  if kind = 2 then
    { home := handleIndex handle / 16, slot := handleIndex handle, core := l,
      msg := { ctr := 0, kind := .arrive, stream := some stream, seq := seq, src := src, operand := x } }
  else
    { home := s.sigHome (counterOf l handle), core := l,
      msg := { ctr := counterOf l handle, kind := kindOf kind, stream := some stream, seq := seq, src := src, operand := x } }

/-- A signal joins its stream as the newest not yet sent (R275). -/
def State.queueSignal (s : State) (stream : W32) (g : Sig) : State :=
  let st := s.stream stream.toNat
  s.setStream stream.toNat { st with unsent := st.unsent ++ [g] }

def State.csig (s : State) (l : Nat) (rd rs1 rs2 : XReg) (f7 : Nat) : State :=
  let c := s.cc l
  let h := (c.xr rs1).toNat % 2 ^ 24
  let ok := match s.partOf l with
    | none => false
    | some p => s.targetOk p f7 h
  if 2 < f7 then s.ccTrap l excIllegal (xclqWord f7 rs2 rs1 3 rd)
  else if !ok then s.ccTrap l excStoreFault (c.xr rs1)
  else
    s.modCC l fun c => { c with stall := some (.csig rd h f7 (c.xr rs2)) }

/-- The signal of the CSIG that a control core is in, with the sequence number that it will bear (R67). -/
def State.csigReady (s : State) (l : Nat) : Option (XReg × Sig) :=
  match (s.cc l).stall with
  | some (.csig rd h kind x) => some (rd, s.mkSig l (ccStream l) ((s.cc l).sigSeq + 1) h kind x)
  | _ => none

/-- The CSIG's signal leaves: it is stamped, sent, and the instruction retires, in one step (R67, R336). -/
def State.csigLeave (s : State) (l : Nat) (rd : XReg) (g : Sig) : State :=
  let st := s.stream (ccStream l).toNat
  ((s.modCC l fun c => { c with sigSeq := g.msg.seq }).setStream (ccStream l).toNat { st with sent := st.sent ++ [g] }).ccRetire l rd
    (g.msg.seq.setWidth 64)

/-- CSIG (R67): the control core waits in it until the signal has left, which SIGNAL_SEND does once the stores before it are
visible. -/
def execCsig (l : CoreId) (rd rs1 rs2 : XReg) (f7 : BitVec 7) (s : State) : Res :=
  s.ccIssue l (s.fetches l (xclqEnc f7.toNat rs2 rs1 3 rd)) fun _ s => s.csig l rd rs1 rs2 f7.toNat

def State.gtbInstr (s : State) (l : Nat) (rd : XReg) (f7 : Nat) : State :=
  if f7 ≠ 0 then s.ccTrap l excIllegal (xclqWord f7 0 0 4 rd) else s.ccRetire l rd (s.gtb (l / 192))

/-- GTB (R68): the copy of the core's die (R357). -/
def execGtb (l : CoreId) (rd : XReg) (f7 : BitVec 7) (s : State) : Res :=
  s.ccIssue l (s.fetches l (xclqEnc f7.toNat 0 0 4 rd)) fun _ s => s.gtbInstr l rd f7.toNat

/-- MFPFLAGS_CLEAR (R179): CSRRC or CSRRCI on CSR 0x7C0. -/
def execMfpflagsClear (l : CoreId) (rd : XReg) (immForm : Bool) (src : BitVec 5) (s : State) : Res :=
  let f3 := if immForm then 7 else 3
  s.ccIssue l (s.fetches l (encI 0x7C0 src.toNat f3 rd 0x73)) fun n s => (s.csrInstr l f3 0x7C0 rd src.toNat n).getD s

/-! ### Interrupts -/

def irqBit : CcIrq → Nat
  | .timer => 7
  | .mqpushAdmission => 16
  | .stokerMailbox => 17

/-- What a stalled instruction of a control core waits for is forgotten: the instruction executes again (R69). -/
def State.undoStall (s : State) (l : CoreId) : State :=
  ((s.dropWaiter (.cc l)).modCC l fun c => { c with stall := none }).tidyRecords (l / 8)

/-- CC_INTERRUPT (R60, R69): a pending and enabled interrupt is taken between instructions; a stalled QPUSH or CWAIT is
undone and named by mepc. A stalled load, CSIG or CSR access is finished first. -/
def execCcInterrupt (l : CoreId) (irq : CcIrq) (s : State) : Res :=
  let c := s.core l
  let waits := match c.cc.stall with
    | some (.load _ _ _ _) => true
    | some (.csig _ _ _ _) => true
    | _ => false
  if !s.imaged l || c.cc.halted || c.cc.stopped || s.fenced l || s.quiesced l || waits || !c.cc.canTake (irqBit irq) then .next s
  else .next ((s.undoStall l).modCC l (·.trap true (irqBit irq) 0))

/-- MTIMECMP_MATCH (R60): the timer interrupt is pending once the GTB has reached mtimecmp. -/
def execMtimecmpMatch (l : CoreId) (s : State) : Res :=
  if (s.cc l).mtimecmp.toNat ≤ (s.gtb (l / 192)).toNat then .next (s.setMip l 7 true) else .next s

/-! ### The control cache -/

/-- The value that a load of funct3 gives rd. -/
def loadValue (f3 : Nat) (bs : List Byte) : W64 :=
  let v := ofLe bs
  match f3 with
  | 0 => sext 8 v
  | 1 => sext 16 v
  | 2 => sext 32 v
  | _ => BitVec.ofNat 64 v

/-- CC_LINE_FILL (R71, R74, R75): the line of the oldest pending store is owned and the store performed; with none
pending, the line of the stalled load is filled and the load completes. Nothing while no room can be made. -/
def execCcLineFill (l : CoreId) (s : State) : Res :=
  let c := s.cc l
  match c.stores with
  | st :: rest =>
    let line := st.addr / 256
    let owned := match s.ccHitStore l st.addr (leBytes st.width st.data.toNat) with
      | some s' => some s'
      | none =>
        match s.fetchOwned l line with
        | none => none
        | some s' => s'.ccHitStore l st.addr (leBytes st.width st.data.toNat)
    match owned with
    | none => .next s
    | some s' => .next (s'.modCC l fun c => { c with stores := rest })
  | [] =>
    match c.stall with
    | some (.load rd a f3 len) =>
      if decide (counterBase ≤ a) then .next s
      else
        let line := a / 256
        let filled := if s.ccHolds l line then some s else s.fetchShared l line
        match filled with
        | none => .next s
        | some s' =>
          match s'.ccHitLoad l a (2 ^ (f3.toNat % 4)) with
          | none => .next s
          | some (bs, s'') => .next (s''.ccRetire l rd (loadValue f3.toNat bs) len)
    | _ => .next s

/-- READ_SNOOP (Table 3.4). -/
def execReadSnoop (l : CoreId) (line : Nat) (s : State) : Res := .next (s.snoopRead l line)

/-- OWNERSHIP_SNOOP (Table 3.4): a holder in D, K or W supplies the data, which is then on its way to the requester; the
line is given up, and a write-back in progress is abandoned. -/
def execOwnershipSnoop (l : CoreId) (line : Nat) (s : State) : Res :=
  let s' := s.dropFrom l line
  match (s.core l).supplied line with
  | none => .next s'
  | some d => .next { s' with inFlight := SMap.set none s'.inFlight line (some (l.val, d)) }

/-- WRITEBACK_DONE (R74): the oldest line of the eviction buffer is written to its home and its entry frees. -/
def execWritebackDone (l : CoreId) (s : State) : Res :=
  match (s.core l).evict with
  | [] => .next s
  | w :: _ => if s.homesAsleep (w.line * 256) 256 then .next s else .next ((s.writeBack l w).modCore l (·.dropEvict w.line))

/-- HOME_REQUEST (R76, R77, R222, R223): a home serves a unit's read or write of memory, once its domains are ON (R366). -/
def execHomeRequest (u : Unit) (op : HomeOp) (s : State) : Res :=
  match op with
  | .read a n stream =>
    if !s.isMemoryRange a n then .fault .noSuchAddress
    else if s.homesAsleep a n then .next s else .next (s.readMem u a n stream).2
  | .write a bs =>
    if !s.isMemoryRange a bs.length then .fault .noSuchAddress
    else if s.homesAsleep a bs.length then .next s else .next (s.writeMem u a bs)

end Sys2Proof.Machine
end

