-- ==== Sys2Proof/Machine/Grids.lean ====
section
/-!
DEFINITION. Grids and blocks (4.2, 4.3, 4.6, 4.8): the start of a LAUNCH, launch rings and distributors, placement of
blocks, their end, the split of local memory, group faults and the ending of a grid.
-/

namespace Sys2Proof.Machine

open Sys2Proof

/-! ### Blocks, groups, grids -/

def State.block (s : State) (c r : Nat) : Option Block := SMap.get none (s.cluster c).blocks r
def State.setBlock (s : State) (c r : Nat) (b : Option Block) : State :=
  s.modCluster c fun x => { x with blocks := SMap.set none x.blocks r b }
def State.modBlock (s : State) (c r : Nat) (f : Block → Block) : State :=
  match s.block c r with
  | none => s
  | some b => s.setBlock c r (some (f b))

def State.group (s : State) (l g : Nat) : Option Group := SMap.get none (s.core l).ve.groups g
def State.setGroup (s : State) (l g : Nat) (x : Option Group) : State :=
  s.modVE l fun v => { v with groups := SMap.set none v.groups g x }
def State.modGroup (s : State) (l g : Nat) (f : Group → Group) : State :=
  match s.group l g with
  | none => s
  | some x => s.setGroup l g (some (f x))

def State.grid (s : State) (l k : Nat) : Option Grid := SMap.get none (s.core l).ve.grids k
def State.setGrid (s : State) (l k : Nat) (x : Option Grid) : State :=
  s.modVE l fun v => { v with grids := SMap.set none v.grids k x }
def State.modGrid (s : State) (l k : Nat) (f : Grid → Grid) : State :=
  match s.grid l k with
  | none => s
  | some x => s.setGrid l k (some (f x))

/-- Numbers below `n` at which `p` holds, lowest first. -/
def below (n : Nat) (p : Nat → Bool) : List Nat := (List.range n).filter p

/-- The block stream of a record (Table 11.5, R335). -/
def blockStream (l gen r : Nat) : W32 := BitVec.ofNat 32 (2 ^ 31 + l * 2 ^ 16 + (gen % 256) * 256 + r)

/-- The stream of a group for its atomics (R340): its block's stream, with the group in bits [30:26]. -/
def groupStream (l gen r gi : Nat) : W32 := blockStream l gen r ||| BitVec.ofNat 32 (gi % 32 * 2 ^ 26)
/-- The block stream of a group's stream. -/
def blockOfStream (st : W32) : W32 := st &&& 0x83FFFFFF

/-- Group-registers that a group of a kernel takes (R101). -/
def regsOf (body : BitVec 448) : Nat := (launchFld body 97 1 + 1) / 2 * 2
def groupsOf (body : BitVec 448) : Nat := launchFld body 96 1
def localOf (body : BitVec 448) : Nat := launchFld body 100 4
def blocksOf (body : BitVec 448) : Nat := launchFld body 84 4 * launchFld body 88 4 * launchFld body 92 4

/-! ### Faults of groups (R125, Tables 4.9c, 4.9d, 4.11) -/

/-- An ash-log record of an event for which Table 13.9 names no kind and no severity: both are free values. -/
def State.ashOpen (s : State) (src : W32) (part lcore : Nat) (span : W32) (detail : Nat) : State :=
  (s.nextFree.nextFree).ashNow src (Config.freeNat s.freeCtr % 2 ^ 16) (Config.freeNat (s.freeCtr + 1) % 4) part 0 lcore
    span 0 0 detail

/-- A VE fault recorded in CORE_VE_FAULT, in the ash log, and by the partition's vector (R125). -/
def State.recordVeFault (s : State) (l slot group lane code addr : Nat) (span : W32) : State :=
  let k := s.physOf l
  let s :=
    if (s.reg .CORE_VE_FAULT k).getLsbD 31 then s.bumpField .CORE_VE_FAULT k 0 7 4 1
    else
      ((s.setReg .CORE_VE_FAULT k 0 (BitVec.ofNat 32 (2 ^ 31 + slot * 2 ^ 26 + group * 2 ^ 20 + lane * 2 ^ 15 + code))).setReg
        .CORE_VE_FAULT_ADDR_LO k 0 (BitVec.ofNat 32 addr)).setReg .CORE_VE_FAULT_ADDR_HI k 0 (BitVec.ofNat 32 (addr >>> 32))
  let s := s.ashOpen (s.srcCore l 1) ((s.partOf l).getD 0xFF) l span code
  match s.partOf l with
  | some p => s.msixVf p 1
  | none => s

/-! ### The end of blocks -/

/-- An ended block whose writes, remote writes and signals are done (R337). -/
def State.blockDone (s : State) (r : Nat) (b : Block) : Bool :=
  let st := s.stream (blockStream b.core b.gen r).toNat
  decide (b.st = .ended) && decide (b.remoteWrites = 0) && st.unsent.isEmpty && st.sent.isEmpty

/-- A block record is released: its stream and its operation records with it, and GEN advances (R276, R335, R340). -/
def State.freeBlock (s : State) (c r : Nat) (b : Block) : State :=
  let id := blockStream b.core b.gen r
  let s := s.release id 0
  let s := { s with
    opRecords := s.opRecords.filter fun o => match o with
      | .reduceMark _ _ _ _ _ => true
      | .atomicMark _ st _ _ => blockOfStream st != id
      | .result _ st _ _ _ => blockOfStream st != id }
  (s.setBlock c r none).modCluster c fun x => { x with gens := SMap.set 0 x.gens r ((SMap.get 0 x.gens r + 1) % 256) }

/-- Every block record of a cluster that can be released is released. -/
def State.sweepBlocks (s : State) (c : Nat) : State :=
  ((s.cluster c).blocks.map (·.1)).foldl (fun s r =>
    match s.block c r with
    | none => s
    | some b => if s.blockDone r b then s.freeBlock c r b else s) s

/-- A LAUNCH is over: its instruction is done and its grid slot frees (R109). -/
def State.gridOver (s : State) (l k : Nat) (g : Grid) : State :=
  ((s.setGrid l k none).modEntry l 0 g.acc fun e => { e with done := true }).setReg .CORE_VE_KILL (s.physOf l) 0
    (putBits (s.reg .CORE_VE_KILL (s.physOf l)) k k 0)

/-- The identity of a grid: its publisher and slot there, and its launch ring and entry count, or for a local-mode grid the
accepted count of its LAUNCH (R109, R110). -/
structure GridId where
  pub : Nat
  slot : Nat
  ring : Option Nat
  num : Nat
deriving DecidableEq, Repr

def Grid.id (g : Grid) : GridId := ⟨g.publisher, g.pslot, g.ring, if g.ring.isNone then g.acc else g.entry.getD (2 ^ 32)⟩
def Block.gridId (b : Block) : GridId := ⟨b.publisher, b.pslot, b.ring, b.grid⟩

/-- The grid at its publisher, while its slot there holds it. -/
def State.gridOf (s : State) (i : GridId) : Option Grid :=
  match s.grid i.pub i.slot with
  | some g => if g.id = i then some g else none
  | none => none

/-- One block of a grid has ended, counted at its publisher; the last one completes the grid (R109). A killed grid
completes by GRID_KILL_COMPLETE, and counts nothing once its slot is free. -/
def State.reportEnded (s : State) (i : GridId) : State :=
  match s.gridOf i with
  | none => s
  | some g =>
    let g' := { g with ended := g.ended + 1 }
    if g'.ended = g'.total && !g'.killed then s.gridOver i.pub i.slot g' else s.setGrid i.pub i.slot (some g')

/-- Blocks of a cluster that are resident on core `l` in grid slot `k`. -/
def State.residentIn (s : State) (l k : Nat) : List (Nat × Block) :=
  (s.cluster (l / 8)).blocks.filterMap fun e =>
    match e.2 with
    | some b => if b.core = l && b.slot = k && decide (b.st = .resident) then some (e.1, b) else none
    | none => none

/-- A core that runs blocks of a grid it did not publish gives its grid slot back when none is resident (R109). -/
def State.returnSlot (s : State) (l k : Nat) : State :=
  match s.grid l k with
  | none => s
  | some g => if (g.publisher = l ∧ g.pslot = k) ∨ (s.residentIn l k).length ≠ 0 then s else s.setGrid l k none

/-- A block ends (R103): its record notes it, the slots and registers of all its groups are free, the publisher counts it. -/
def State.endBlock (s : State) (c r : Nat) (b : Block) : State :=
  let s := b.groups.foldl (fun s g => s.setGroup b.core g none) s
  let s := s.setBlock c r (some { b with st := .ended, groups := [] })
  let s := s.traceUnit (s.partOf b.core) (s.mode 0 (.ve (Fin.ofNat 768 b.core)))
    { unit := .ve (Fin.ofNat 768 b.core), src := s.srcCore b.core 1, kind := 7, epoch := 0, span := b.span.toNat, arg := b.index }
  ((s.reportEnded b.gridId).returnSlot b.core b.slot).sweepBlocks c

/-- A group has ended. -/
def State.groupEnded (s : State) (l g : Nat) : Bool :=
  match s.group l g with
  | none => true
  | some x => decide (x.status = .ended)

/-- A group ends: it keeps its slot and registers until the last group of its block has ended, which ends the block (R103). -/
def State.dropGroup (s : State) (l g : Nat) : State :=
  match s.group l g with
  | none => s
  | some x =>
    let c := l / 8
    let s := (s.setGroup l g (some { x with status := .ended })).dropWaiter (.group (Fin.ofNat 768 l) (Fin.ofNat 48 g))
    match s.block c x.block with
    | none => s.setGroup l g none
    | some b =>
      let b' := { b with arrived := b.arrived.filter (· != g) }
      if b'.groups.all (s.groupEnded l) then s.endBlock c x.block b' else s.setBlock c x.block (some b')

/-! ### Starting a LAUNCH (R106 to R108) -/

def State.freeSlot (s : State) (l : Nat) : Option Nat := (below 4 fun k => (s.grid l k).isNone).head?

/-- The oldest unstarted LAUNCH of a core starts in a free grid slot (R106); `none` where it cannot start yet. -/
def State.startLaunch (s : State) (l : CoreId) : Option State :=
  match (s.queue l 0).oldestPending with
  | none => none
  | some e =>
    if e.desc.opcode ≠ 1 || e.void || !s.waitsMet l 0 e || s.engineStopped l 0 || s.fenced l then none
    else
      match s.freeSlot l with
      | none => none
      | some k =>
        let mode := e.desc.fld 99 1
        let g : Grid :=
          { acc := e.acc, publisher := l, pslot := k, ring := if mode.testBit 7 then some (mode % 4) else none,
            body := e.desc.body, span := BitVec.ofNat 32 e.desc.spanTag, total := blocksOf e.desc.body }
        let s := (s.modEntry l 0 e.acc fun x => { x with st := .running, slot := some k }).setGrid l k (some g)
        let s := s.traceStart l 0 e
        if g.ring.isNone && decide (s.blockLm l < localOf g.body) then some ((s.recordVeFault l k 0 0 8 (localOf g.body) g.span).setGrid l k (some { g with killed := true }))
        else some s

/-- LAUNCH (R106). -/
def execLaunch (l : CoreId) (s : State) : Res := .next ((s.startLaunch l).getD s)

/-! ### Launch rings (R108, R110, Tables 4.5, 4.6) -/

/-- The partition address of a launch ring's header, as cluster `c` holds it. -/
def State.ringAddr (s : State) (c r : Nat) : Nat := s.pair .CLU_DIST_RING_LO .CLU_DIST_RING_HI c r

/-- Bytes of partition memory read through the pinned map by a distributor or a publisher; none outside it. -/
def State.partRead (s : State) (u : Unit) (p a n : Nat) : Option (List Byte × State) :=
  match s.pinnedLocal p a n with
  | none => none
  | some ps => if ps.all fun x => s.isMemoryRange x.1 x.2 then some (s.readPieces u ps) else none
def State.partWrite (s : State) (u : Unit) (p a : Nat) (bs : List Byte) : State :=
  match s.pinnedLocal p a bs.length with
  | none => s
  | some ps => if ps.all fun x => s.isMemoryRange x.1 x.2 then s.writePieces u ps bs else s

/-- Address of entry `i` of a ring of `size` entries. -/
def ringEntry (base size i : Nat) : Nat := base + 128 + 64 * (i % size)

/-- Does an uncompleted grid of the partition hold entry count `i` of ring `r`? -/
def State.entryHeld (s : State) (p r i : Nat) : Bool :=
  (s.coresOf p).any fun l => (below 4 fun k =>
    match s.grid l k with
    | none => false
    | some g => decide (g.publisher = l) && decide (g.ring = some r) && decide (g.entry = some i)).length != 0

/-- GRID_ENTRY_APPEND (R108): the grid entry of a started ring-mode LAUNCH is appended once the launch ring has a free
entry. -/
def execGridEntryAppend (l : CoreId) (slot : Fin 4) (s : State) : Res :=
  match s.grid l slot, s.partOf l with
  | some g, some p =>
    match g.ring, g.entry with
    | some r, none =>
      if g.publisher ≠ l || g.killed then .next s
      else
        let base := s.ringAddr (l / 8) r
        match s.partRead (.ve l) p base 16 with
        | none => .next s
        | some (h, s1) =>
          let head := fieldLe h 4 4
          let tail := fieldLe h 8 4
          let size := fieldLe h 12 4
          let old := (tail + 2 ^ 32 - size) % 2 ^ 32
          if size = 0 || decide (size ≤ (tail + 2 ^ 32 - head) % 2 ^ 32) || s1.entryHeld p r old then .next s
          else
            let e := leBytes 56 g.body.toNat ++ leBytes 2 l ++ leBytes 1 slot ++ leBytes 5 0
            let s2 := (s1.partWrite (.ve l) p (ringEntry base size tail) e).partWrite (.ve l) p (base + 8) (leBytes 4 (tail + 1))
            .next (s2.setGrid l slot (some { g with entry := some tail }))
    | _, _ => .next s
  | _, _ => .next s

/-- Logical cores of a cluster that are active: on a working slot. -/
def State.activeCores (s : State) (c : Nat) : List Nat :=
  ((List.range 8).map (8 * c + ·)).filter fun l => !s.fenced l

def State.freeBlockRecord (s : State) (c : Nat) : Option Nat := (below 256 fun r => (s.block c r).isNone).head?

/-- The rings that a distributor pulls from, from the one whose turn is next (Table 4.9f). -/
def State.ringTurns (s : State) (c : Nat) : List Nat :=
  ((List.range 4).map fun k => ((s.cluster c).nextRing + k) % 4).filter fun r => (s.reg .CLU_DIST_CFG c).getLsbD r

/-- One claim at the head of a ring for record `r` (R110): none where the ring is empty. The compare-and-swap is one step. A block
of a killed grid is counted as ended and never run. -/
def State.claim (s : State) (c : ClusterId) (p r ring : Nat) : Option State :=
  let base := s.ringAddr c ring
  match s.partRead (.dist c) p base 16 with
  | none => none
  | some (h, s1) =>
    let b := fieldLe h 0 4
    let e := fieldLe h 4 4
    let tail := fieldLe h 8 4
    let size := fieldLe h 12 4
    if e = tail || size = 0 then none
    else
      match s1.partRead (.dist c) p (ringEntry base size e) 64 with
      | none => none
      | some (g, s2) =>
        let body : BitVec 448 := BitVec.ofNat 448 (fieldLe g 0 56)
        let new := if b + 1 < blocksOf body then e * 2 ^ 32 + b + 1 else (e + 1) % 2 ^ 32 * 2 ^ 32
        let s3 := s2.partWrite (.dist c) p base (leBytes 8 new)
        let id : GridId := ⟨fieldLe g 56 2, fieldLe g 58 1, some ring, e⟩
        if fieldLe g 59 1 = 1 then some (s3.reportEnded id)
        else
          let rec' : Block :=
            { core := 8 * c, slot := 0, st := .pulled, index := b, publisher := id.pub, pslot := id.slot, ring := some ring, grid := e,
              gen := SMap.get 0 (s3.cluster c).gens r, lmSize := localOf body, body := body,
              span := ((s3.gridOf id).map (·.span)).getD 0 }
          some ((s3.setBlock c r (some rec')).modCluster c fun x =>
            { x with pulled := x.pulled ++ [r], nextRing := (ring + 1) % 4 })

/-- DIST_CLAIM (R110, R111, R23, Table 4.9f): a distributor with credit claims one block, at the next of its rings that holds one. -/
def execDistClaim (c : ClusterId) (ring : Fin 4) (s : State) : Res :=
  match s.partOfCluster c, s.freeBlockRecord c with
  | some p, some r =>
    if (s.cluster c).stopped || decide (8 * (s.activeCores c).length ≤ (s.cluster c).pulled.length) then .next s
    else if (s.ringTurns c).find? (fun x => (s.claim c p r x).isSome) = some ring.val then .next ((s.claim c p r ring).getD s)
    else .next s
  | _, _ => .next s

/-! ### Placement (R97, R101, R103, R104) -/

/-- Free group numbers of a scheduler of a core. -/
def State.freeGroups (s : State) (l j : Nat) : List Nat := below 48 fun g => g % 4 == j && (s.group l g).isNone

/-- Group-registers in use in a bank of a core. -/
def State.bankUsed (s : State) (l j : Nat) : Nat :=
  (below 48 fun g => g % 4 == j).foldl (fun n g =>
    match s.group l g with
    | none => n
    | some x =>
      match s.block (l / 8) x.block with
      | none => n
      | some b => n + regsOf b.body) 0

/-- Groups of a block of `b` groups on scheduler `j` (R97). -/
def groupsOn (b j : Nat) : Nat := (b + 3 - j) / 4

/-- Local-memory allocations of a core: (base, size). -/
def State.allocs (s : State) (l : Nat) : List (Nat × Nat) :=
  (s.cluster (l / 8)).blocks.filterMap fun e =>
    match e.2 with
    | some b => if b.core = l && decide (b.st = .resident) && decide (b.lmSize ≠ 0) then some (b.lmBase, b.lmSize) else none
    | none => none

/-- The lowest free address at which an allocation of `n` bytes fits (R104). -/
def State.findLm (s : State) (l n : Nat) : Option Nat :=
  let as := s.allocs l
  let cands := (0 :: as.map fun a => (a.1 + a.2 + 255) / 256 * 256).filter fun x =>
    decide (x + n ≤ s.blockLm l) && as.all fun a => decide (a.1 + a.2 ≤ x) || decide (x + n ≤ a.1)
  cands.foldl (fun m x =>
    match m with
    | none => some x
    | some y => some (min x y)) none

/-- The grid slot in which core `l` runs blocks of a grid: the grid's own, one already taken for it, or a free one (R109). -/
def State.slotFor (s : State) (l : Nat) (i : GridId) : Option Nat :=
  match (below 4 fun k =>
    match s.grid l k with
    | none => false
    | some g => decide (g.id = i)).head? with
  | some k => some k
  | none => s.freeSlot l

/-- A block of the grid fits core `l` now (R103). -/
def State.fits (s : State) (l : Nat) (i : GridId) (body : BitVec 448) : Bool :=
  let v := (s.core l).ve
  !v.stopped && !s.fenced l && v.splitPending.isNone && v.resvPending.isNone &&
  (List.range 4).all (fun j => decide (groupsOn (groupsOf body) j ≤ (s.freeGroups l j).length) &&
    decide (s.bankUsed l j + groupsOn (groupsOf body) j * regsOf body ≤ 512)) &&
  (s.findLm l (localOf body)).isSome && (s.slotFor l i).isSome

/-- The uniform registers of a group at its start (Table 5.3). -/
def launchRegs (body : BitVec 448) (index gi lmBase : Nat) : SMap W64 :=
  let x := launchFld body 84 4
  let y := launchFld body 88 4
  let vals := [index, index % x, index / x % y, index / (x * y), gi, groupsOf body, lmBase, launchFld body 104 8]
  vals.zipIdx.foldl (fun m (v, i) => SMap.set 0 m i (BitVec.ofNat 64 v)) []

/-- Groups `i` and up of a block receive numbers on their schedulers. Which free number a group receives is the VE's
choice (R97): a free value. -/
def State.startGroups (s : State) (l r : Nat) (b : Block) : Nat → Nat → List Nat → State × List Nat
  | 0, _, gs => (s, gs)
  | n + 1, i, gs =>
    let free := s.freeGroups l (i % 4)
    let g := free.getD (s.freeBelow free.length) 0
    let x : Group := { block := r, gi := i, u := launchRegs b.body b.index i b.lmBase }
    (s.nextFree.setGroup l g (some x)).startGroups l r b n (i + 1) (gs ++ [g])

/-- Push counts of a core's eight outbound stream queues, as a block record holds them (R335). -/
def State.pushCounts (s : State) (l : Nat) : List Nat :=
  (List.range 8).map fun q => (SMap.get ({} : StreamQ) (s.core l).sq q).pushes

/-- A block of the grid has started on core `l`, as its publisher notes. -/
def State.begun (s : State) (i : GridId) (l : Nat) : Bool := (s.gridOf i).any fun g => g.begunOn.contains l

/-- A block starts on core `l` as record `r` (R103): its groups start together; the L1 is invalidated where it is the
grid's first block on the core (R122). -/
def State.placeBlock (s : State) (l r : Nat) (b : Block) : State :=
  match s.slotFor l b.gridId, s.findLm l b.lmSize with
  | some k, some base =>
    let b := { b with core := l, slot := k, st := .resident, lmBase := base, pushBase := s.pushCounts l }
    let own : Grid := (s.grid l k).getD
      { acc := b.grid, publisher := b.publisher, pslot := b.pslot, ring := b.ring, entry := some b.grid, body := b.body, span := b.span,
        total := 0 }
    let s := if s.begun b.gridId l then s else s.modVE l fun v => { v with l1 := [] }
    let s := s.setGrid l k (some own)
    let s := match s.gridOf b.gridId with
      | some g => if g.begunOn.contains l then s else s.setGrid b.publisher b.pslot (some { g with begunOn := g.begunOn ++ [l] })
      | none => s
    let r' := (s.setBlock (l / 8) r (some b)).startGroups l r b (groupsOf b.body) 0 []
    let s := r'.1.setBlock (l / 8) r (some { b with groups := r'.2 })
    s.traceUnit (s.partOf l) (s.mode 0 (.ve (Fin.ofNat 768 l)))
      { unit := .ve (Fin.ofNat 768 l), src := s.srcCore l 1, kind := 6, epoch := 0, span := b.span.toNat, arg := b.index + groupsOf b.body * 2 ^ 32 }
  | _, _ => s

/-- The core on which the distributor starts a pulled block: with room, fewest resident groups, lowest ID (R111). -/
def State.pickCore (s : State) (c : Nat) (b : Block) : Option Nat :=
  ((s.activeCores c).filter fun l => s.fits l b.gridId b.body).foldl (fun m l =>
    match m with
    | none => some l
    | some k => if (s.core l).ve.resident < (s.core k).ve.resident then some l else some k) none

/-- A local-mode grid of the core whose next block fits now. -/
def State.localReady (s : State) (l k : Nat) : Option Grid :=
  match s.grid l k with
  | none => none
  | some g =>
    if g.publisher = l && g.pslot = k && g.ring.isNone && !g.killed && decide (g.next < g.total) && s.fits l g.id g.body &&
        (s.freeBlockRecord (l / 8)).isSome then some g else none

/-- The block at the head of a cluster's pulled blocks. -/
def State.headPulled (s : State) (c : Nat) : Option (Nat × Block) :=
  match (s.cluster c).pulled with
  | [] => none
  | r :: _ => (s.block c r).map fun b => (r, b)

/-- A pulled block waits and would start on core `l` now. -/
def State.pulledReady (s : State) (l : Nat) : Bool :=
  match s.headPulled (l / 8) with
  | none => false
  | some (_, b) => s.pickCore (l / 8) b == some l

/-- The grid is killed, or over. -/
def State.gridDead (s : State) (i : GridId) : Bool :=
  match s.gridOf i with
  | none => true
  | some g => g.killed

/-- A pulled block leaves the distributor without having run. -/
def State.dropPulled (s : State) (c r : Nat) (b : Block) : State :=
  let s := (s.setBlock c r (some { b with st := .ended })).modCluster c fun x => { x with pulled := x.pulled.filter (· != r) }
  (s.reportEnded b.gridId).sweepBlocks c

/-- Every group of a grid, on any core of the partition, stops and is released; pulled blocks of it never run. -/
def State.stopGrid (s : State) (p : Nat) (i : GridId) : State :=
  (s.clustersOf p).foldl (fun s c =>
    ((s.cluster c).blocks.map (·.1)).foldl (fun s r =>
      match s.block c r with
      | none => s
      | some b =>
        if b.gridId = i then
          match b.st with
          | .resident => b.groups.foldl (fun s g => s.dropGroup b.core g) s
          | .pulled => s.dropPulled c r b
          | .ended => s
        else s) s) s

/-- The kill of the grid that core `l` published in slot `k` (R126 steps 1 and 2). The span's output arenas hold unpredictable
values after it: the model leaves there what the grid's stores and atomics wrote so far (DESIGN CHOICE, log entry 88). -/
def State.killGrid (s : State) (l k : Nat) : State :=
  match s.grid l k, s.partOf l with
  | some g, some p =>
    if g.publisher ≠ l || g.pslot ≠ k then s
    else
      let s := s.setGrid l k (some { g with killed := true })
      let s := match g.ring, g.entry with
        | some r, some e =>
          let base := s.ringAddr (l / 8) r
          match s.partRead (.ve (Fin.ofNat 768 l)) p (base + 12) 4 with
          | some (h, s1) => if ofLe h = 0 then s1 else s1.partWrite (.ve (Fin.ofNat 768 l)) p (ringEntry base (ofLe h) e + 59) [1]
          | none => s
        | _, _ => s
      s.stopGrid p g.id
  | _, _ => s

/-- A grid that cannot fit the local memory in force is ended: fault code 8 on its publisher, and the kill of R126
(R123). -/
def State.endTooBig (s : State) (l k : Nat) (g : Grid) : State :=
  (s.recordVeFault l k 0 0 8 (localOf g.body) g.span).killGrid l k

/-- BLOCK_START (R103, R107, R111): the next block of a local-mode grid, or the first pulled block, starts on a core
with room. Where both kinds could start on one core they alternate; of the first two the local one goes first, since `distTurn`
starts false (DESIGN CHOICE, log entry 87). -/
def execBlockStart (b : BlockSrc) (s : State) : Res :=
  match b with
  | .locally l k =>
    match s.localReady l k, s.freeBlockRecord (l / 8) with
    | some g, some r =>
      if (s.core l).ve.distTurn && s.pulledReady l then .next s
      else
        let rec' : Block :=
          { core := l, slot := k, st := .resident, index := g.next, publisher := l, pslot := k, grid := g.acc,
            gen := SMap.get 0 (s.cluster (l / 8)).gens r, lmSize := localOf g.body, body := g.body, span := g.span }
        let s := (s.setGrid l k (some { g with next := g.next + 1 })).placeBlock l r rec'
        .next (s.modVE l fun v => { v with distTurn := true })
    | _, _ => .next s
  | .pulled c =>
    match s.headPulled c with
    | none => .next s
    | some (r, b) =>
      if s.gridDead b.gridId then .next (s.dropPulled c r b)
      else if (s.activeCores c).all fun l => decide (s.blockLm l < b.lmSize) then
        match s.gridOf b.gridId with
        | none => .next s
        | some g => .next ((s.endTooBig b.publisher b.pslot g).dropPulled c r b)
      else
        match s.pickCore c b with
        | none => .next s
        | some l =>
          if !(s.core l).ve.distTurn && (List.range 4).any fun k => (s.localReady l k).isSome then .next s
          else
            let s := s.modCluster c fun x => { x with pulled := x.pulled.filter (· != r) }
            .next ((s.placeBlock l r b).modVE l fun v => { v with distTurn := false })

/-! ### Ending a grid (R126) -/

/-- A write of CORE_VE_KILL: a bit of a slot whose grid this core published sets and kills that grid. -/
def State.veKillWrite (s : State) (k : Nat) (v : W32) : State :=
  match s.logicalOf k with
  | none => s
  | some l =>
    (List.range 4).foldl (fun s b =>
      match s.grid l b with
      | none => s
      | some g =>
        if v.getLsbD b && g.publisher == l && g.pslot == b && !g.killed then
          (s.setField .CORE_VE_KILL k 0 b b 1).killGrid l b
        else s) s

/-- VE_KILL (R126). -/
def execVeKill (a : Agent) (k : PhysId) (v : W32) (s : State) : Res :=
  if s.mayWrite a { name := .CORE_VE_KILL, i := k } then .next (s.veKillWrite k v) else .next s

/-- GRID_KILL_COMPLETE (R126 step 3): no group of a killed grid remains, its LAUNCH completes and KILLED sets. -/
def execGridKillComplete (l : CoreId) (slot : Fin 4) (s : State) : Res :=
  match s.grid l slot, s.partOf l with
  | some g, some p =>
    if !g.killed || g.publisher ≠ l || g.pslot ≠ slot then .next s
    else if (s.clustersOf p).any fun c => (s.cluster c).blocks.any fun e =>
        match e.2 with
        | some b => decide (b.gridId = g.id) && decide (b.st ≠ .ended)
        | none => false then .next s
    else .next ((s.gridOver l slot g).setField .CORE_VE_STATUS (s.physOf l) 0 30 30 1)
  | _, _ => .next s

/-! ### The split of local memory (R122, R123) -/

/-- A range of memory takes unpredictable contents: every byte a free value. -/
def State.scramble (s : State) (a n : Nat) : State :=
  (List.range n).foldl (fun s k => (s.poke (a + k) (s.freeWord.setWidth 8)).nextFree) s

/-- Grids of core `l` started in local mode, and pulled blocks of its cluster, that no longer fit are ended with fault
code 8 (R123). -/
def State.endUnfit (s : State) (l : Nat) : State :=
  let s := (List.range 4).foldl (fun s k =>
    match s.grid l k with
    | none => s
    | some g =>
      if g.publisher = l && g.pslot = k && g.ring.isNone && !g.killed && decide (s.blockLm l < localOf g.body) then
        s.endTooBig l k g
      else s) s
  let c := l / 8
  (s.cluster c).pulled.foldl (fun s r =>
    match s.block c r with
    | none => s
    | some b =>
      if (s.activeCores c).all fun k => decide (s.blockLm k < b.lmSize) then
        match s.gridOf b.gridId with
        | none => s
        | some g => (if g.killed then s else s.endTooBig b.publisher b.pslot g).dropPulled c r b
      else s) s

/-- A change of split or of reserve takes effect on a core with no resident group: it invalidates the L1, and a change of split
leaves local memory unpredictable. A value that is written again changes nothing. -/
def State.applySplit (s : State) (l : Nat) (lm resv : Option Nat) : State :=
  let k := s.physOf l
  let split := lm.any fun v => v != s.field .CORE_VE_CFG k 0 7 4
  let moved := split || resv.any fun v => v != s.field .CORE_SQ_RESV k 0 6 0
  let s := match lm with
    | some v => s.setField .CORE_VE_CFG k 0 7 4 v
    | none => s
  let s := match resv with
    | some v => s.setField .CORE_SQ_RESV k 0 6 0 v
    | none => s
  let s := if split then s.scramble (localAddr l 0) (s.lmSize l) else s
  (s.modVE l fun v => { v with splitPending := none, resvPending := none, l1 := if moved then [] else v.l1 }).endUnfit l

/-- A write that changes the split or the reserve of physical core `k`: at once with no group resident, else pending
until the resident groups have ended. -/
def State.splitWrite (s : State) (k : Nat) (lm resv : Option Nat) : State :=
  match s.logicalOf k with
  | none =>
    let s := match lm with
      | some v => s.setField .CORE_VE_CFG k 0 7 4 v
      | none => s
    match resv with
    | some v => s.setField .CORE_SQ_RESV k 0 6 0 v
    | none => s
  | some l =>
    let v := (s.core l).ve
    if v.resident = 0 then s.applySplit l (lm.orElse fun _ => v.splitPending) (resv.orElse fun _ => v.resvPending)
    else
      s.modVE l fun v =>
        { v with splitPending := lm.orElse fun _ => v.splitPending, resvPending := resv.orElse fun _ => v.resvPending }

/-- A write of CORE_VE_CFG (Table 4.9a): other values of LMSIZE than 2 to 8 are ignored. -/
def State.veCfgWrite (s : State) (k : Nat) (v : W32) : State :=
  let n := bitsOf v 7 4
  if 2 ≤ n ∧ n ≤ 8 then s.splitWrite k (some n) none else s

/-- VE_CFG_WRITE (R123). -/
def execVeCfgWrite (a : Agent) (k : PhysId) (v : W32) (s : State) : Res :=
  if s.mayWrite a { name := .CORE_VE_CFG, i := k } then .next (s.veCfgWrite k v) else .next s

/-- SPLIT_APPLY (R123): a pending change takes effect once every resident group has ended. -/
def execSplitApply (l : CoreId) (s : State) : Res :=
  let v := (s.core l).ve
  if v.resident ≠ 0 || (v.splitPending.isNone && v.resvPending.isNone) then .next s
  else .next (s.applySplit l v.splitPending v.resvPending)

/-! ### The L1 group cache (R121) -/

/-- Lines that the L1 holds: 8 ways, by set. -/
def State.l1Sets (s : State) (l : Nat) : Nat := (8 * 65536 - s.lmSize l) / 1024

/-- A line placed in the L1, the least recently used of its set leaving. -/
def State.l1Place (s : State) (l : Nat) (x : L1Line) : State :=
  let sets := s.l1Sets l
  if sets = 0 then s
  else
    s.modVE l fun v =>
      let rest := v.l1.filter fun y => y.line != x.line
      let mates := rest.filter fun y => y.line % sets == x.line % sets
      let keep := if mates.length < 8 then rest
        else match mates.getLast? with
          | some z => rest.filter fun y => y.line != z.line
          | none => rest
      { v with l1 := x :: keep }

/-- A piece of a translated range lies in this module, and its home's domains are not ON (R366). -/
def State.piecesAsleep (s : State) (ps : List (Nat × Nat)) : Bool :=
  ps.any fun x => (s.remoteOf x.1).isNone && s.homesAsleep x.1 x.2

/-- Pieces of a translated range read by a vector engine: memory of this module at its home, and another module's by READ
packets, whose data arrive later. `grp` is the group that waits. -/
def State.vePieces (s : State) (l : CoreId) (grp : Option Nat) : List (Nat × Nat) → RemoteRead × State
  | [] => (.data [], s)
  | (t, n) :: rest =>
    let r : RemoteRead × State :=
      match s.remoteOf t with
      | some m => s.remoteRead (.ve l) grp m (t % 2 ^ 42) n
      | none => if s.isMemoryRange t n then (.data (s.readMem (.ve l) t n).1, (s.readMem (.ve l) t n).2) else (.refused 3, s)
    match r.1 with
    | .data bs =>
      let q := r.2.vePieces l grp rest
      match q.1 with
      | .data cs => (.data (bs ++ cs), q.2)
      | other => (other, q.2)
    | other => (other, r.2)

/-- Keys of `Group.fills`: a line that has come, and a line that another module refused. -/
def lineKey (line : Nat) : Nat := 2 ^ 81 + line
def refusedKey (line : Nat) : Nat := 2 ^ 82 + line

/-- A miss is over: the groups that wait for the line go on, with what came. -/
def State.wakeMiss (s : State) (l line key : Nat) (bs : List Byte) : State :=
  let s := s.modVE l fun v => { v with misses := v.misses.filter (· != line) }
  (List.range 48).foldl (fun s g => s.modGroup l g fun x =>
    if x.status = .missed line then { x with status := .ready, fills := SMap.set [] x.fills key bs } else x) s

/-- L1_FILL (R121): an outstanding miss returns from the memory system and is allocated; loads that wait for it go on. A
line of another module waits for its READ_DATA, and a refusal reaches the load (R303). -/
def execL1Fill (l : CoreId) (line : Nat) (s : State) : Res :=
  let v := (s.core l).ve
  match s.partOf l with
  | none => .next s
  | some p =>
    if !v.misses.contains line then .next s
    else
      match s.pinnedPieces p (line * 128) 128 with
      | none => .next (s.wakeMiss l line (refusedKey line) [1])
      | some ps =>
        let r := if s.piecesAsleep ps then (.waiting 0, s) else s.vePieces l none ps
        match r.1 with
        | .data bs =>
          .next ((r.2.wakeMiss l line (lineKey line) bs).l1Place l { line := line, data := BitVec.ofNat 1024 (ofLe bs) })
        | .waiting _ => .next r.2
        | .refused _ => .next (r.2.wakeMiss l line (refusedKey line) [1])

end Sys2Proof.Machine
end

