-- ==== Sys2Proof/Machine/ThreadWord.lean ====
section
/-!
DEFINITION. Thread instruction words (5.1 to 5.3): the encoding of Tables 5.1 and 5.2, and what the verifier requires of
a word (R129, R130, R133, R135, R140, R172). A word that fails here never reaches a vector engine (R158).
-/

namespace Sys2Proof

/-- The first 64-bit word of an instruction (Tables 5.1 and 5.2). LIT is set exactly when BCLS is 3 (R129). -/
def TWord.encode (op : BitVec 10) (w : TWord) : W64 :=
  op ++ BitVec.ofBool w.gneg ++ w.guard ++ w.dst ++ w.srcA ++ w.srcB ++ w.srcC ++ BitVec.ofBool w.ud ++
    BitVec.ofBool w.ua ++ w.bcls ++ BitVec.ofBool w.uc ++ w.opx ++ BitVec.ofBool (w.bcls == 3) ++ BitVec.ofBool w.yld

/-- An instruction's words: the literal follows when BCLS is 3 (R128). -/
def TWord.words (op : BitVec 10) (w : TWord) : List W64 :=
  if w.bcls = 3 then [w.encode op, w.lit] else [w.encode op]

/-- The opcode and fields that a word spells, with the literal that follows it. -/
def TWord.decode (x lit : W64) : Option (BitVec 10 × TWord) :=
  let b : BitVec 2 := x.extractLsb' 14 2
  if x.getLsbD 1 != (b == 3) then none
  else
    some (x.extractLsb' 54 10,
      { gneg := x.getLsbD 53, guard := x.extractLsb' 50 3, dst := x.extractLsb' 42 8, srcA := x.extractLsb' 34 8,
        srcB := x.extractLsb' 26 8, srcC := x.extractLsb' 18 8, ud := x.getLsbD 17, ua := x.getLsbD 16, bcls := b,
        uc := x.getLsbD 13, opx := x.extractLsb' 2 11, yld := x.getLsbD 0, lit := if b = 3 then lit else 0 })

/-- Bits [hi:lo] of OPX. -/
def TWord.opxBits (w : TWord) (hi lo : Nat) : Nat := bitsOf w.opx hi lo
/-- W64 (R130). -/
def TWord.wide (w : TWord) : Bool := w.opx.getLsbD 10
/-- Bytes that the instruction takes in the kernel's code (R128). -/
def TWord.bytes (w : TWord) : Nat := if w.bcls = 3 then 16 else 8

end Sys2Proof

namespace Sys2Proof.Machine

open Sys2Proof

/-! ### Operand codes (R100, R130) -/

/-- How wide an operand is. -/
inductive OpSize where
  | word | long | quad
deriving DecidableEq, Repr

/-- A uniform register code. -/
def uniCode (c : BitVec 8) : Bool := decide (c.toNat < 64) || c == 255
/-- A vector register code of a kernel with `n` registers. -/
def vecCode (n : Nat) (sz : OpSize) (c : BitVec 8) : Bool :=
  match sz with
  | .word => decide (c.toNat < n) || c == 255
  | .long => (decide (c.toNat % 2 = 0) && decide (c.toNat + 1 < n)) || c == 255
  | .quad => decide (c.toNat % 4 = 0) && decide (c.toNat + 3 < n)

/-- What an opcode takes as a source. -/
inductive SrcKind where
  /-- unused: its field and class bits are zero (R129). -/
  | unused
  | reg (sz : OpSize)
  /-- a uniform source by definition; for source B an immediate or a literal too. -/
  | uniform
  /-- a vector register by definition. -/
  | vector (sz : OpSize)
  /-- the first of `k` vector registers. -/
  | run (k : Nat)
  /-- a predicate named by the low three bits. -/
  | pred
  | immediate
  | literal
deriving DecidableEq, Repr

/-- What an opcode takes as its destination. `ud` says whether UD may, must or must not be set. -/
inductive DstKind where
  | none
  | pred
  | reg (sz : OpSize)
  | vector (sz : OpSize)
  | uniform
  /-- a uniform register when UD is set, else nothing. -/
  | observe
  | run (k : Nat)
deriving DecidableEq, Repr

/-- What R135 requires of an opcode's word. -/
structure TForm where
  opx : Bool
  d : DstKind := .none
  a : SrcKind := .unused
  b : SrcKind := .unused
  c : SrcKind := .unused
deriving DecidableEq, Repr

def srcAOk (n : Nat) (w : TWord) : SrcKind → Bool
  | .unused => w.srcA == 0 && !w.ua
  | .reg sz => if w.ua then uniCode w.srcA && sz != .quad else vecCode n sz w.srcA
  | .uniform => w.ua && uniCode w.srcA
  | .vector sz => !w.ua && vecCode n sz w.srcA
  | .run k => !w.ua && decide (w.srcA.toNat + k ≤ n)
  | .pred => true
  | .immediate => false
  | .literal => false

def srcBOk (n : Nat) (w : TWord) : SrcKind → Bool
  | .unused => w.srcB == 0 && w.bcls == 0
  | .reg sz =>
    match w.bcls.toNat with
    | 0 => vecCode n sz w.srcB
    | 1 => uniCode w.srcB && sz != .quad
    | _ => sz != .quad
  | .uniform => w.bcls != 0 && (w.bcls != 1 || uniCode w.srcB)
  | .vector sz => w.bcls == 0 && vecCode n sz w.srcB
  | .run k => w.bcls == 0 && decide (w.srcB.toNat + k ≤ n)
  | .pred => true
  | .immediate => w.bcls == 2
  | .literal => w.bcls == 3

def srcCOk (n : Nat) (w : TWord) : SrcKind → Bool
  | .unused => w.srcC == 0 && !w.uc
  | .reg sz => if w.uc then uniCode w.srcC && sz != .quad else vecCode n sz w.srcC
  | .uniform => w.uc && uniCode w.srcC
  | .vector sz => !w.uc && vecCode n sz w.srcC
  | .run k => !w.uc && decide (w.srcC.toNat + k ≤ n)
  | .pred => true
  | .immediate => false
  | .literal => false

/-- A source is a vector register. -/
def takesVector (cls : Bool) : SrcKind → Bool
  | .reg _ => cls
  | _ => false

def dstOk (n : Nat) (w : TWord) (f : TForm) : Bool :=
  let noVector := !takesVector (!w.ua) f.a && !takesVector (w.bcls == 0) f.b && !takesVector (!w.uc) f.c
  match f.d with
  | .none => !w.ud
  | .pred => !w.ud
  | .reg sz => if w.ud then uniCode w.dst && sz != .quad && noVector else vecCode n sz w.dst
  | .vector sz => !w.ud && vecCode n sz w.dst
  | .uniform => w.ud && uniCode w.dst
  | .observe => !w.ud || uniCode w.dst
  | .run k => !w.ud && decide (w.dst.toNat + k ≤ n)

/-- The word is one that the verifier accepts for a kernel of `n` registers (R135). -/
def TForm.ok (n : Nat) (w : TWord) (f : TForm) : Bool :=
  f.opx && dstOk n w f && srcAOk n w f.a && srcBOk n w f.b && srcCOk n w f.c

/-! ### Formats and conversion pairs (Tables 5.13 and 6.8) -/

/-- Positions that fit in 32 bits (Table 5.13); none for a reserved code. -/
def positions (fmt : Nat) : Nat :=
  match fmt with
  | 0 | 10 | 11 => 1
  | 1 | 2 => 2
  | 3 | 4 | 5 | 6 | 8 => 4
  | 7 | 9 | 12 => 8
  | _ => 0

/-- The rounding mode of a conversion (5.3), none where OPX[10:8] is not defined. -/
def cvtMode (w : TWord) : Option Rnd :=
  match w.opxBits 10 8 with
  | 0 => some .rne
  | 1 => some .rz
  | 2 => some .ru
  | 3 => some .rd
  | 4 => some .rto
  | 5 => some .sat
  | _ => none

def cvtS (w : TWord) : Nat := w.opxBits 3 0
def cvtD (w : TWord) : Nat := w.opxBits 7 4
/-- Element position and P4 table of the immediate of a conversion (R140). -/
def cvtPos (w : TWord) : Nat := bitsOf w.srcB 2 0
def cvtTable (w : TWord) : Nat := bitsOf w.srcB 6 3

def isNarrowFloat (f : Nat) : Bool := decide (3 ≤ f) && decide (f ≤ 7)

/-- The pairs of Table 6.8 in the modes it lists. -/
def pairOk (s d : Nat) (m : Rnd) : Bool :=
  if s ≤ 2 ∧ isNarrowFloat d then true
  else if s ≤ 2 ∧ d = 12 then m == .rne
  else if s ≤ 2 ∧ d ≤ 2 then s != d
  else if (isNarrowFloat s || s == 12) ∧ d ≤ 2 then true
  else if (s = 8 ∨ s = 9) ∧ d ≤ 2 then true
  else if s = 0 ∧ 8 ≤ d ∧ d ≤ 11 then m != .rto
  else if (s = 10 ∨ s = 11) ∧ d = 0 then m != .sat
  else if s = 10 ∧ (d = 8 ∨ d = 9) then true
  else false

/-- A conversion's OPX and immediate: `pos` is the format whose position the immediate gives. -/
def cvtOk (w : TWord) (pos : Nat) : Bool :=
  match cvtMode w with
  | none => false
  | some m => pairOk (cvtS w) (cvtD w) m && decide (cvtPos w < positions pos) && !w.srcB.getLsbD 7

/-! ### The opcodes (Tables 5.5 to 5.11) -/

def sized (w : TWord) : OpSize := if w.wide then .long else .word

/-- Only the OPX bits of `mask` are set. -/
def opxIn (w : TWord) (mask : BitVec 11) : Bool := w.opx &&& ~~~mask == 0

/-- Operand size of a memory access width (5.3). -/
def memSize (width : Nat) : OpSize := if width = 6 then .quad else if width = 5 then .long else .word
/-- Bytes of an access width. -/
def memBytes (width : Nat) : Nat :=
  match width with
  | 0 | 1 => 1
  | 2 | 3 => 2
  | 4 => 4
  | 5 => 8
  | _ => 16
def storeWidth (width : Nat) : Bool := width == 0 || width == 2 || width == 4 || width == 5 || width == 6

/-- Registers of a fragment layout (Table 4.10). -/
def fragRegs (layout : Nat) : Nat := if layout ≤ 2 then 32 else if layout = 3 then 2 else 4

/-- Operand size of an atomic operation (Table 5.14). -/
def atomLong (code : Nat) : Bool := code == 3 || code == 6 || code == 7 || code == 11 || code == 13 || code == 15
def atomSize (code : Nat) : OpSize := if atomLong code then .long else .word

def rndOk (w : TWord) : Bool := decide (w.opxBits 2 0 ≤ 4)

def form3 (opx : Bool) (sz : OpSize) : TForm := { opx := opx, d := .reg sz, a := .reg sz, b := .reg sz, c := .reg sz }
def form2 (opx : Bool) (sz : OpSize) : TForm := { opx := opx, d := .reg sz, a := .reg sz, b := .reg sz }
def form1 (opx : Bool) (sz : OpSize) : TForm := { opx := opx, d := .reg sz, a := .reg sz }
def atomForm (w : TWord) (addr : OpSize) : TForm :=
  let k := w.opxBits 3 0
  let sz := atomSize k
  { opx := opxIn w 0x1F, d := .reg sz, a := .reg addr,
    b := if 14 ≤ k then .unused else .reg sz
    c := if k = 12 ∨ k = 13 then .reg sz else .unused }

/-- What R135 requires of the words of an opcode; none for an opcode that 5.3 does not define. -/
def tform (op : Nat) (w : TWord) : Option TForm :=
  match op with
  | 0x000 => some { opx := opxIn w 0 }
  | 0x001 | 0x002 | 0x003 => some (form2 (opxIn w 0x400) (sized w))
  | 0x004 => some (form2 (opxIn w 0x401) (sized w))
  | 0x005 => some (form3 (opxIn w 0x400) (sized w))
  | 0x006 | 0x007 | 0x008 | 0x009 => some (form2 (opxIn w 0x401) (sized w))
  | 0x00A => some (form1 (opxIn w 0x400) (sized w))
  | 0x00B => some (form3 (opxIn w 0x0FF) .word)
  | 0x00C => some (form2 (opxIn w 0x400) (sized w))
  | 0x00D => some (form2 (opxIn w 0x401) (sized w))
  | 0x00E | 0x00F | 0x010 => some (form1 (opxIn w 0x400) (sized w))
  | 0x011 => some { opx := opxIn w 0x401, d := .reg (sized w), a := .reg (sized w), b := .reg (sized w) }
  | 0x012 => some { opx := opxIn w 0x400, d := .reg (sized w), a := .reg (sized w), b := .reg (sized w), c := .reg (sized w) }
  | 0x013 => some { opx := opxIn w 0x400, d := .reg (sized w), b := .reg (sized w) }
  | 0x040 | 0x041 | 0x043 | 0x044 => some (form2 (opxIn w 0x0FF && rndOk w) .word)
  | 0x042 => some (form3 (opxIn w 0x0FF && rndOk w) .word)
  | 0x047 => some (form1 (opxIn w 0x0FF && rndOk w) .word)
  | 0x045 | 0x046 | 0x048 | 0x049 | 0x04A | 0x04B => some (form1 (opxIn w 0x0F8) .word)
  | 0x050 | 0x051 | 0x053 | 0x054 => some (form2 (opxIn w 0x2FF && rndOk w) .word)
  | 0x052 => some (form3 (opxIn w 0x2FF && rndOk w) .word)
  | 0x080 => some { opx := cvtOk w (cvtD w), d := .reg .word, a := .reg .word, b := .immediate }
  | 0x081 => some { opx := cvtOk w (cvtD w), d := .reg .word, a := .reg .word, b := .immediate, c := .reg .word }
  | 0x082 => some { opx := cvtOk w (cvtS w), d := .reg .word, a := .reg .word, b := .immediate }
  | 0x083 =>
    some { opx := (cvtMode w).isSome && cvtS w == 0 && decide (3 ≤ cvtD w) && decide (cvtD w ≤ 8), d := .uniform,
           a := .vector .word }
  | 0x084 =>
    let d := cvtD w
    some { opx := cvtS w == 0 && ((decide (3 ≤ d) && decide (d ≤ 8)) || d == 12) &&
             (match cvtMode w with | none => false | some m => pairOk 0 d m)
           d := .reg .word, a := .reg .word, c := .uniform
           b := if w.bcls = 2 then .immediate else .unused }
  | 0x085 | 0x086 => some (form1 (opxIn w 0) .word)
  | 0x0C0 =>
    some { opx := opxIn w 0x40F && decide (w.opxBits 2 0 ≤ 5), d := .pred, a := .reg (sized w), b := .reg (sized w) }
  | 0x0C1 => some { opx := opxIn w 0x00F && decide (w.opxBits 2 0 ≤ 5), d := .pred, a := .reg .word, b := .reg .word }
  | 0x0C2 => some { opx := opxIn w 0x0FF, d := .pred, a := .pred, b := .pred, c := .pred }
  | 0x0C3 => some { opx := opxIn w 0x408, d := .vector (sized w), a := .reg (sized w), b := .reg (sized w), c := .pred }
  | 0x0C4 => some { opx := opxIn w 0, d := .vector .word }
  | 0x0C5 => some { opx := opxIn w 0, a := .reg .word, b := .reg .word }
  | 0x100 => some { opx := opxIn w 0, b := .literal }
  | 0x101 => some { opx := opxIn w 0x001, a := .pred, b := .literal }
  | 0x102 | 0x103 | 0x104 => some { opx := opxIn w 0 }
  | 0x140 =>
    some { opx := opxIn w 0x007 && decide (w.opxBits 2 0 ≤ 6), d := .reg (memSize (w.opxBits 2 0)), a := .reg .word,
           b := .reg .word }
  | 0x141 =>
    some { opx := opxIn w 0x007 && storeWidth (w.opxBits 2 0), a := .reg .word, b := .reg .word,
           c := .reg (memSize (w.opxBits 2 0)) }
  | 0x142 => some (atomForm w .word)
  | 0x143 =>
    some { opx := opxIn w 0x007 && decide (w.opxBits 2 0 ≤ 4), d := .run (fragRegs (w.opxBits 2 0)), a := .uniform,
           c := .uniform }
  | 0x144 =>
    some { opx := opxIn w 0x007 && decide (w.opxBits 2 0 ≤ 4), a := .uniform, b := .uniform,
           c := .run (fragRegs (w.opxBits 2 0)) }
  | 0x180 =>
    some { opx := opxIn w 0x00F && decide (w.opxBits 2 0 ≤ 6), d := .reg (memSize (w.opxBits 2 0)), a := .reg .long,
           b := .reg .word }
  | 0x181 =>
    some { opx := opxIn w 0x007 && storeWidth (w.opxBits 2 0), a := .reg .long, b := .reg .word,
           c := .reg (memSize (w.opxBits 2 0)) }
  | 0x182 => some (atomForm w .long)
  | 0x183 => some { opx := opxIn w 0, a := .reg .long, b := .reg .word }
  | 0x184 =>
    some { opx := opxIn w 0x007 && decide (w.opxBits 2 0 ≤ 6), d := .reg (memSize (w.opxBits 2 0)), a := .reg .long,
           b := .reg .word }
  | 0x185 =>
    some { opx := opxIn w 0x007 && storeWidth (w.opxBits 2 0), a := .reg .long, b := .reg .word,
           c := .reg (memSize (w.opxBits 2 0)) }
  | 0x200 =>
    some { opx := opxIn w 0x41F && decide (1 ≤ w.opxBits 4 2) && decide (w.opxBits 4 2 ≤ 5), d := .reg (sized w),
           a := .reg (sized w), b := .reg (sized w) }
  | 0x201 =>
    some { opx := opxIn w 0x007, d := if w.opxBits 1 0 = 3 then .reg .word else .pred, a := .pred }
  | 0x202 => some { opx := opxIn w 0x01F && decide (w.opxBits 3 0 ≤ 8), d := .uniform, a := .vector .word }
  | 0x240 => some { opx := opxIn w 0x001, d := .observe, a := .uniform, b := .uniform }
  | 0x241 => some { opx := opxIn w 0x003 && decide (w.opxBits 1 0 ≤ 2), d := .observe, a := .uniform, b := .uniform }
  | 0x280 => some { opx := opxIn w 0, d := .observe, a := .vector .word }
  | 0x2C0 => some { opx := opxIn w 0x003 && decide (w.opxBits 1 0 ≤ 2) }
  | 0x300 =>
    some { opx := opxIn w 0x03F && decide (w.opxBits 5 0 ≤ 7)
           d := if w.opxBits 5 0 = 0 then .vector .word else if w.opxBits 5 0 = 5 then .uniform else .reg .word }
  | 0x301 => some { opx := opxIn w 0, b := .immediate }
  | _ => none

/-- The word of opcode `op` is well formed in a kernel of `n` registers whose code is `len` bytes long (R135): its form,
and for BRA and SPLIT that the targets are offsets of instruction words. -/
def wordOk (op n len : Nat) (w : TWord) : Bool :=
  let target (t : Nat) : Bool := decide (t % 8 = 0) && decide (t < len)
  (match tform op w with
   | none => false
   | some f => f.ok n w) &&
  (if op = 0x100 then target (bitsOf w.lit 31 0)
   else if op = 0x101 then target (bitsOf w.lit 31 0) && target (bitsOf w.lit 63 32)
   else true)

/-- The instructions of a kernel's words in order, with their byte offsets; none where a word has no encoding or a
literal is missing. -/
def parseKernel : Nat → List W64 → Option (List (Nat × BitVec 10 × TWord))
  | _, [] => some []
  | at_, [x] =>
    match TWord.decode x 0 with
    | none => none
    | some (op, w) => if w.bcls = 3 then none else some [(at_, op, w)]
  | at_, x :: y :: rest =>
    match TWord.decode x y with
    | none => none
    | some (op, w) =>
      if w.bcls = 3 then (parseKernel (at_ + 16) rest).map ((at_, op, w) :: ·)
      else (parseKernel (at_ + 8) (y :: rest)).map ((at_, op, w) :: ·)

end Sys2Proof.Machine
end

