-- ==== Sys2Proof/Machine/Operands.lean ====
section
/-!
DEFINITION. Operands of thread instructions (5.2): the value of each source in a lane, and the writing of destinations.
A 32-bit value is held in the low half of a 64-bit one.
-/

namespace Sys2Proof.Machine

open Sys2Proof

def Group.vreg (g : Group) (r lane : Nat) : W32 := if r = 255 then 0 else SMap.get 0 g.v (32 * r + lane)
/-- The pair v2k and v2k+1 (R100). -/
def Group.vlong (g : Group) (r lane : Nat) : W64 :=
  if r = 255 then 0 else g.vreg (r + 1) lane ++ g.vreg r lane
def Group.ureg (g : Group) (r : Nat) : W64 := if r = 255 then 0 else SMap.get 0 g.u r

def Group.putV (g : Group) (r lane : Nat) (x : W32) : Group :=
  if r = 255 then g else { g with v := SMap.set 0 g.v (32 * r + lane) x }
def Group.putVLong (g : Group) (r lane : Nat) (x : W64) : Group :=
  if r = 255 then g else (g.putV r lane (x.setWidth 32)).putV (r + 1) lane (x.extractLsb' 32 32)
def Group.putU (g : Group) (r : Nat) (x : W64) : Group :=
  if r = 255 then g else { g with u := SMap.set 0 g.u r x }

/-- The low 32 bits alone. -/
def low32 (x : W64) : W64 := (x.setWidth 32).setWidth 64

def vecVal (g : Group) (wide : Bool) (r lane : Nat) : W64 :=
  if wide then g.vlong r lane else (g.vreg r lane).setWidth 64
def uniVal (g : Group) (wide : Bool) (r : Nat) : W64 := if wide then g.ureg r else low32 (g.ureg r)

end Sys2Proof.Machine

namespace Sys2Proof

open Machine

/-- Source A in a lane (R130, R131). -/
def TWord.valA (w : TWord) (g : Group) (wide : Bool) (lane : Nat) : W64 :=
  if w.ua then uniVal g wide w.srcA.toNat else vecVal g wide w.srcA.toNat lane
/-- Source C in a lane. -/
def TWord.valC (w : TWord) (g : Group) (wide : Bool) (lane : Nat) : W64 :=
  if w.uc then uniVal g wide w.srcC.toNat else vecVal g wide w.srcC.toNat lane
/-- Source B in a lane: an immediate is sign-extended to the operation's width, and a literal supplies that width. -/
def TWord.valB (w : TWord) (g : Group) (wide : Bool) (lane : Nat) : W64 :=
  match w.bcls.toNat with
  | 0 => vecVal g wide w.srcB.toNat lane
  | 1 => uniVal g wide w.srcB.toNat
  | 2 => if wide then w.srcB.signExtend 64 else (w.srcB.signExtend 32).setWidth 64
  | _ => if wide then w.lit else low32 w.lit
/-- The offset of a global access: a vector B is sign-extended from 32 bits (R146). -/
def TWord.offsetB (w : TWord) (g : Group) (lane : Nat) : W64 :=
  if w.bcls = 0 then (g.vreg w.srcB.toNat lane).signExtend 64 else w.valB g true lane

/-- The address of a global or window access, and of a local access, in a lane (R146). -/
def TWord.addrG (w : TWord) (g : Group) (lane : Nat) : Nat := (w.valA g true lane + w.offsetB g lane).toNat
def TWord.addrL (w : TWord) (g : Group) (lane : Nat) : Nat :=
  ((w.valA g false lane).setWidth 32 + (w.valB g false lane).setWidth 32).toNat

/-- One lane's destination. -/
def TWord.putD (w : TWord) (wide : Bool) (lane : Nat) (x : W64) (g : Group) : Group :=
  if wide then g.putVLong w.dst.toNat lane x else g.putV w.dst.toNat lane (x.setWidth 32)

/-- The destination written: once for a uniform one (32-bit results clear bits [63:32]), else in every lane given. The
values are those of the group before the instruction (R132). -/
def TWord.writeD (w : TWord) (wide : Bool) (lanes : List Nat) (f : Nat → W64) (g : Group) : Group :=
  if w.ud then
    match lanes with
    | [] => g
    | lane :: _ => g.putU w.dst.toNat (if wide then f lane else low32 (f lane))
  else lanes.foldl (fun g' lane => w.putD wide lane (f lane) g') g

/-- The bytes that a store of `width` takes from source C in a lane. -/
def TWord.storeBytes (w : TWord) (g : Group) (width lane : Nat) : List Byte :=
  if width = 6 then (List.range 4).flatMap fun k => leBytes 4 (g.vreg (w.srcC.toNat + k) lane).toNat
  else leBytes (memBytes width) (w.valC g (width == 5) lane).toNat

end Sys2Proof

namespace Sys2Proof.Machine

open Sys2Proof

/-- The value that a load of `width` gives its destination, for widths up to 64 bits. -/
def loadedVal (width : Nat) (bs : List Byte) : W64 :=
  let v := ofLe bs
  match width with
  | 1 => low32 ((BitVec.ofNat 8 v).signExtend 64)
  | 3 => low32 ((BitVec.ofNat 16 v).signExtend 64)
  | _ => BitVec.ofNat 64 v

end Sys2Proof.Machine

namespace Sys2Proof

open Machine

/-- Loaded bytes written to the destination in a lane, or to the uniform destination. -/
def TWord.putLoad (w : TWord) (width lane : Nat) (bs : List Byte) (g : Group) : Group :=
  if width = 6 then
    (List.range 4).foldl (fun g k => g.putV (w.dst.toNat + k) lane (BitVec.ofNat 32 (fieldLe bs (4 * k) 4))) g
  else if w.ud then g.putU w.dst.toNat (loadedVal width bs)
  else w.putD (width == 5) lane (loadedVal width bs) g

end Sys2Proof
end

