-- ==== Sys2Proof/Machine/Flags.lean ====
section
/-!
DEFINITION. Predicates, the guard and the acting lanes (R132, R133), and the sticky flags of a core's vector engine and
matrix unit (R176 to R179).
-/

namespace Sys2Proof.Machine

open Sys2Proof

/-- A predicate in a lane; p7 is always true (4.2). -/
def Group.pred (g : Group) (i lane : Nat) : Bool := if i = 7 then true else (SMap.get 0 g.p i).getLsbD lane

/-- A mask of the lanes listed. -/
def laneMask (lanes : List Nat) : W32 := lanes.foldl (fun m k => m ||| BitVec.twoPow 32 k) 0
/-- The lanes of a mask, lowest first. -/
def lanesOf (m : W32) : List Nat := (List.range 32).filter fun k => m.getLsbD k

/-- A predicate written in the lanes listed; a write to p7 is discarded (R132). -/
def Group.putPred (g : Group) (i : Nat) (lanes : List Nat) (f : Nat → Bool) : Group :=
  if i = 7 then g
  else
    let m : W32 := (SMap.get 0 g.p i &&& ~~~(laneMask lanes)) ||| laneMask (lanes.filter f)
    { g with p := SMap.set 0 g.p i m }

end Sys2Proof.Machine

namespace Sys2Proof

open Machine

/-- The guard of an instruction in a lane (Table 5.1). -/
def TWord.guardIn (w : TWord) (g : Group) (lane : Nat) : Bool := g.pred w.guard.toNat lane != w.gneg

/-- The acting lanes: active, with a true guard (R132). -/
def TWord.acting (w : TWord) (g : Group) : List Nat := (lanesOf g.active).filter fun k => w.guardIn g k

/-- The guard has one value in every active lane. -/
def TWord.guardUniform (w : TWord) (g : Group) : Bool :=
  (w.acting g).isEmpty || decide ((w.acting g).length = (lanesOf g.active).length)

end Sys2Proof

namespace Sys2Proof.Machine

open Sys2Proof

/-- Sticky flags of core `l`: those of its vector engine in bits [3:0], of its matrix unit in [7:4] (Table 6.12). -/
def State.fpFlags (s : State) (l : Nat) : W32 := s.reg .CORE_FP_FLAGS (s.physOf l)

def State.setVeFlags (s : State) (l f : Nat) : State :=
  if f % 16 = 0 then s
  else s.setReg .CORE_FP_FLAGS (s.physOf l) 0 (s.fpFlags l ||| BitVec.ofNat 32 (f % 16))
def State.setMuFlags (s : State) (l f : Nat) : State :=
  if f % 16 = 0 then s
  else s.setReg .CORE_FP_FLAGS (s.physOf l) 0 (s.fpFlags l ||| BitVec.ofNat 32 (f % 16 * 16))

/-- Flags of several lanes together. -/
def orFlags (l : List Nat) : Nat := l.foldl (· ||| ·) 0

end Sys2Proof.Machine
end

