-- ==== Sys2Proof/Machine/Threads.lean ====
section
/-!
DEFINITION. The issue of thread instructions: which groups run, the shape of per-lane and group-wide instructions (R132,
R133), and group faults (R125).
-/

namespace Sys2Proof.Machine

open Sys2Proof

/-- The group goes on at the next instruction word (R128). -/
def Group.advance (g : Group) (w : TWord) : Group := { g with pc := g.pc + w.bytes, fills := [], status := .ready }

/-- A group of core `l` issues: it is ready, and its engine is neither stopped by a damper stop nor lost with its core. -/
def State.groupRuns (s : State) (l : Nat) (g : Group) : Bool :=
  decide (g.status = .ready) && !(s.core l).ve.stopped && !s.fenced l

/-- The 64-bit word at byte offset `o` of a block's kernel (Table 4.4, R128); none where it cannot be read. -/
def State.kernelWord (s : State) (l : Nat) (b : Block) (o : Nat) : Option W64 :=
  if launchFld b.body 80 4 < o + 8 then none
  else
    match s.partOf l with
    | none => none
    | some p => (s.pinnedBytes p (launchFld b.body 72 8 + o) 8).map fun bs => BitVec.ofNat 64 (ofLe bs)

/-- The instruction at a group's place in its kernel: opcode and fields (R128). -/
def State.groupWord (s : State) (l : Nat) (g : Group) (b : Block) : Option (BitVec 10 × TWord) :=
  match s.kernelWord l b g.pc with
  | none => none
  | some x =>
    if x.getLsbD 1 then (s.kernelWord l b (g.pc + 8)).bind (TWord.decode x) else TWord.decode x 0

/-- The next instruction of a group is `w` of opcode `op`. -/
def State.atWord (s : State) (op : Nat) (l : Nat) (g : Group) (b : Block) (w : TWord) : Bool :=
  decide (s.groupWord l g b = some (BitVec.ofNat 10 op, w))

/-- Work that an engine of core `l` completed (1 VE, 2 MU, 3 DE), in thousandths of a full-rate cycle (R346). -/
def State.addNominal (s : State) (l e n : Nat) : State :=
  s.modCore l fun c => { c with nominal := SMap.set 0 c.nominal e (SMap.get 0 c.nominal e + n) }

/-- An instruction of a group issues: a quarter of a cycle of an engine with four schedulers (R98, R346). One that issues again
after a miss is not counted twice. -/
def State.countIssue (s : State) (l : Nat) (g : Group) : State := if g.fills.isEmpty then s.addNominal l 1 250 else s

/-- The issue of an instruction word with opcode `op` by a group: nothing where the group is absent or not ready, or where another
word stands at its place in the kernel; a word that the verifier rejects never reaches the engine (R158). `k` is the
instruction's effect. -/
def State.threadIssue (s : State) (op : Nat) (l : CoreId) (gi : GroupId) (w : TWord) (k : State → Group → Block → Res) : Res :=
  match s.group l gi with
  | none => .next s
  | some g =>
    match s.block (l / 8) g.block with
    | none => .next s
    | some b =>
      if !s.groupRuns l g || !s.atWord op l g b w then .next s
      else if !wordOk op (launchFld b.body 97 1) (launchFld b.body 80 4) w then .refused .malformedWord
      else k (s.countIssue l g) g b

/-- The group as its instruction leaves it. -/
def State.finish (s : State) (l : Nat) (gi : Nat) (w : TWord) (g : Group) : State :=
  s.setGroup l gi (some (g.advance w))

/-- An instruction that computes a value for each acting lane, or once for a uniform destination (R132, R133). -/
def State.compute (s : State) (l gi : Nat) (w : TWord) (g : Group) (wide : Bool) (f : Nat → W64) : State :=
  s.finish l gi w (w.writeD wide (w.acting g) f g)

/-- The same for values with sticky flags (R138, R178). -/
def State.computeF (s : State) (l gi : Nat) (w : TWord) (g : Group) (f : Nat → Nat × Nat) : State :=
  let lanes := if w.ud then (w.acting g).take 1 else w.acting g
  (s.finish l gi w (w.writeD false lanes (fun k => BitVec.ofNat 64 (f k).1) g)).setVeFlags l
    (orFlags (lanes.map fun k => (f k).2))

/-- A group fault (R125): the group halts at its instruction, which writes nothing; the fault is recorded. -/
def State.groupFault (s : State) (l gi : Nat) (g : Group) (b : Block) (code lane addr : Nat) : State :=
  (s.setGroup l gi (some { g with status := .halted code, fills := [] })).recordVeFault l b.slot gi lane code addr b.span

end Sys2Proof.Machine
end

