-- ==== Sys2Proof/Machine/ThreadFloat.lean ====
section
/-!
DEFINITION. Floating-point and conversion thread instructions (Tables 5.6 and 5.7, R138 to R142, R172 to R176).
-/

namespace Sys2Proof.Machine

open Sys2Proof

/-- The rounding mode of OPX[2:0] (5.3). -/
def floatRnd (w : TWord) : Rnd :=
  match w.opxBits 2 0 with
  | 1 => .rz
  | 2 => .ru
  | 3 => .rd
  | 4 => .rto
  | _ => .rne

/-- The absolute value and the negation of an operand of `n` bits, applied before the operation. -/
def modCode (n : Nat) (neg abs : Bool) (c : Nat) : Nat :=
  let sign := 2 ^ (n - 1)
  let m := if abs then c % sign else c % 2 ^ n
  if neg then (m + sign) % 2 ^ n else m

def opA (w : TWord) (n c : Nat) : Nat := modCode n (w.opx.getLsbD 3) (w.opx.getLsbD 4) c
def opB (w : TWord) (n c : Nat) : Nat := modCode n (w.opx.getLsbD 5) (w.opx.getLsbD 6) c
def opC (w : TWord) (n c : Nat) : Nat := modCode n (w.opx.getLsbD 7) false c

/-- An arithmetic operation on values: the exact result, and whether it is invalid. -/
abbrev FloatOp := Val → Val → Val → Val × Bool

/-- The operation on codes of a format, rounded once. -/
def FloatOp.code (f : FloatOp) (t : Fmt) (m : Rnd) (a b c : Nat) : Nat × Nat :=
  let r := f (t.decode a) (t.decode b) (t.decode c)
  let q := t.round m r.1
  (q.1, q.2 ||| (if r.2 then flInvalid else 0))

/-- An FP32 operation in a lane. -/
def FloatOp.lane (f : FloatOp) (w : TWord) (g : Group) (k : Nat) : Nat × Nat :=
  f.code fp32 (floatRnd w) (opA w 32 (w.valA g false k).toNat) (opB w 32 (w.valB g false k).toNat)
    (opC w 32 (w.valC g false k).toNat)

/-- A packed 16-bit operation in a lane (R139): each half computed and rounded on its own. -/
def FloatOp.half (f : FloatOp) (w : TWord) (g : Group) (k : Nat) : Nat × Nat :=
  let t := if w.opx.getLsbD 9 then bf16 else fp16
  let a := (w.valA g false k).toNat
  let b := (w.valB g false k).toNat
  let c := (w.valC g false k).toNat
  let one (i : Nat) : Nat × Nat :=
    f.code t (floatRnd w) (opA w 16 (a >>> i % 2 ^ 16)) (opB w 16 (b >>> i % 2 ^ 16)) (opC w 16 (c >>> i % 2 ^ 16))
  ((one 0).1 + (one 16).1 * 2 ^ 16, (one 0).2 ||| (one 16).2)

/-- A sum that cancels exactly is −0 only in mode RD. -/
def isRd (w : TWord) : Bool := floatRnd w == .rd
def addOp (w : TWord) : FloatOp := fun a b _ => a.add (isRd w) b
def mulFloat : FloatOp := fun a b _ => a.mul b
def fmaOp (w : TWord) : FloatOp := fun a b c => a.fma (isRd w) b c
def minOp : FloatOp := fun a b _ => (a.min b, false)
def maxOp : FloatOp := fun a b _ => (a.max b, false)
def sqrtOp : FloatOp := fun a _ _ => a.sqrt

def State.floatOp (s : State) (op : Nat) (l : CoreId) (gi : GroupId) (w : TWord) (f : Group → Nat → Nat × Nat) : Res :=
  s.threadIssue op l gi w fun s g _ => .next (s.computeF l gi w g (f g))

/-- FADD (R138). -/
def execFadd (l : CoreId) (gi : GroupId) (w : TWord) (s : State) : Res :=
  s.floatOp 0x040 l gi w ((addOp w).lane w)
/-- FMUL (R138). -/
def execFmul (l : CoreId) (gi : GroupId) (w : TWord) (s : State) : Res :=
  s.floatOp 0x041 l gi w (FloatOp.lane mulFloat w)
/-- FFMA (R138). -/
def execFfma (l : CoreId) (gi : GroupId) (w : TWord) (s : State) : Res :=
  s.floatOp 0x042 l gi w ((fmaOp w).lane w)
/-- FMIN (R175). -/
def execFmin (l : CoreId) (gi : GroupId) (w : TWord) (s : State) : Res :=
  s.floatOp 0x043 l gi w (FloatOp.lane minOp w)
/-- FMAX (R175). -/
def execFmax (l : CoreId) (gi : GroupId) (w : TWord) (s : State) : Res :=
  s.floatOp 0x044 l gi w (FloatOp.lane maxOp w)
/-- FSQRT (R138). -/
def execFsqrt (l : CoreId) (gi : GroupId) (w : TWord) (s : State) : Res :=
  s.floatOp 0x047 l gi w (FloatOp.lane sqrtOp w)

/-- The operand of an approximation, its modifiers applied. -/
def approxArg (w : TWord) (g : Group) (k : Nat) : Nat := opA w 32 (w.valA g false k).toNat

/-- FRCP (R138). -/
def execFrcp (l : CoreId) (gi : GroupId) (w : TWord) (s : State) : Res :=
  s.floatOp 0x045 l gi w fun g k => approxFn 0x045 (BitVec.ofNat 32 (approxArg w g k))
/-- FRSQ (R138). -/
def execFrsq (l : CoreId) (gi : GroupId) (w : TWord) (s : State) : Res :=
  s.floatOp 0x046 l gi w fun g k => approxFn 0x046 (BitVec.ofNat 32 (approxArg w g k))
/-- FEXP2 (R138). -/
def execFexp2 (l : CoreId) (gi : GroupId) (w : TWord) (s : State) : Res :=
  s.floatOp 0x048 l gi w fun g k => fexp2 (approxArg w g k)
/-- FLOG2 (R138). -/
def execFlog2 (l : CoreId) (gi : GroupId) (w : TWord) (s : State) : Res :=
  s.floatOp 0x049 l gi w fun g k => approxFn 0x049 (BitVec.ofNat 32 (approxArg w g k))
/-- FSIN (R138). -/
def execFsin (l : CoreId) (gi : GroupId) (w : TWord) (s : State) : Res :=
  s.floatOp 0x04A l gi w fun g k => approxFn 0x04A (BitVec.ofNat 32 (approxArg w g k))
/-- FCOS (R138). -/
def execFcos (l : CoreId) (gi : GroupId) (w : TWord) (s : State) : Res :=
  s.floatOp 0x04B l gi w fun g k => approxFn 0x04B (BitVec.ofNat 32 (approxArg w g k))

/-- HADD2 (R139). -/
def execHadd2 (l : CoreId) (gi : GroupId) (w : TWord) (s : State) : Res :=
  s.floatOp 0x050 l gi w ((addOp w).half w)
/-- HMUL2 (R139). -/
def execHmul2 (l : CoreId) (gi : GroupId) (w : TWord) (s : State) : Res :=
  s.floatOp 0x051 l gi w (FloatOp.half mulFloat w)
/-- HFMA2 (R139). -/
def execHfma2 (l : CoreId) (gi : GroupId) (w : TWord) (s : State) : Res :=
  s.floatOp 0x052 l gi w ((fmaOp w).half w)
/-- HMIN2 (R175). -/
def execHmin2 (l : CoreId) (gi : GroupId) (w : TWord) (s : State) : Res :=
  s.floatOp 0x053 l gi w (FloatOp.half minOp w)
/-- HMAX2 (R175). -/
def execHmax2 (l : CoreId) (gi : GroupId) (w : TWord) (s : State) : Res :=
  s.floatOp 0x054 l gi w (FloatOp.half maxOp w)

/-! ### Conversions -/

/-- The P4 table named in an instruction of core `l`. -/
def State.p4Of (s : State) (l : Nat) (t : Nat) : Nat → Byte := s.p4Entry ((s.partOf l).getD 16) t

/-- The element of format `fmt` at position `k` of a register. -/
def elemAt (fmt x k : Nat) : Nat := x >>> (slotBits fmt * k) % 2 ^ codeBits fmt

/-- The exact pairs of Table 6.8: a wider float, or a float from a narrow element. -/
def exactPair (s d : Nat) : Bool :=
  ((s == 1 || s == 2) && d == 0) || ((isNarrowFloat s || s == 12 || s == 8 || s == 9) && decide (d ≤ 2))

/-- A code converted from S to D. An exact pair delivers the exact value whatever the rounding field says, and sets no flag (R172). -/
def convert (tbl : Nat → Byte) (w : TWord) (x : Nat) : Nat × Nat :=
  let v := elemVal tbl (cvtS w) x
  if exactPair (cvtS w) (cvtD w) then ((toElem tbl (cvtD w) .rne v).1, 0)
  else toElem tbl (cvtD w) ((cvtMode w).getD .rne) v

/-- CVT (R140, R172). -/
def execCvt (l : CoreId) (gi : GroupId) (w : TWord) (s : State) : Res :=
  s.floatOp 0x080 l gi w fun g k =>
    convert (s.p4Of l (cvtTable w)) w (elemAt (cvtS w) (w.valA g false k).toNat 0)

/-- CVTI (R140): the element at position k of c replaced. -/
def execCvti (l : CoreId) (gi : GroupId) (w : TWord) (s : State) : Res :=
  s.floatOp 0x081 l gi w fun g k =>
    let r := convert (s.p4Of l (cvtTable w)) w (elemAt (cvtS w) (w.valA g false k).toNat 0)
    let sh := slotBits (cvtD w) * cvtPos w
    let c := (w.valC g false k).toNat
    let old := c >>> sh % 2 ^ slotBits (cvtD w)
    (c - old <<< sh + r.1 <<< sh, r.2)

/-- CVTX (R140): element k of a converted. -/
def execCvtx (l : CoreId) (gi : GroupId) (w : TWord) (s : State) : Res :=
  s.floatOp 0x082 l gi w fun g k =>
    convert (s.p4Of l (cvtTable w)) w (elemAt (cvtS w) (w.valA g false k).toNat (cvtPos w))

/-- MXSCALE (R141): lanes that do not act contribute zero. -/
def execMxscale (l : CoreId) (gi : GroupId) (w : TWord) (s : State) : Res :=
  s.threadIssue 0x083 l gi w fun s g _ =>
    let lanes := w.acting g
    if lanes.isEmpty then .next (s.finish l gi w g)
    else
      let r := blockScale (cvtD w) (lanes.map fun k => fp32.decode (w.valA g false k).toNat)
      .next ((s.finish l gi w (g.putU w.dst.toNat (BitVec.ofNat 64 r.1))).setVeFlags l r.2)

/-- CVTS (R142). The P4 table of a conversion into P4 is that of the immediate, table 0 without one (log entry 20). -/
def execCvts (l : CoreId) (gi : GroupId) (w : TWord) (s : State) : Res :=
  s.floatOp 0x084 l gi w fun g k =>
    toScaled (s.p4Of l (if w.bcls = 2 then cvtTable w else 0)) (cvtD w) ((cvtMode w).getD .rne)
      ((w.valC g false k).toNat % 256) (fp32.decode (w.valA g false k).toNat)

/-- PACK6 (Table 5.7). -/
def pack6 (a : Nat) : Nat := (List.range 4).foldl (fun n i => n + (a >>> (8 * i) % 64) <<< (6 * i)) 0
/-- UNPK6 (Table 5.7). -/
def unpack6 (a : Nat) : Nat := (List.range 4).foldl (fun n i => n + (a >>> (6 * i) % 64) <<< (8 * i)) 0

def execPack6 (l : CoreId) (gi : GroupId) (w : TWord) (s : State) : Res :=
  s.threadIssue 0x085 l gi w fun s g _ =>
    .next (s.compute l gi w g false fun k => BitVec.ofNat 64 (pack6 (w.valA g false k).toNat))
def execUnpk6 (l : CoreId) (gi : GroupId) (w : TWord) (s : State) : Res :=
  s.threadIssue 0x086 l gi w fun s g _ =>
    .next (s.compute l gi w g false fun k => BitVec.ofNat 64 (unpack6 (w.valA g false k).toNat))

end Sys2Proof.Machine
end

