-- ==== Sys2Proof/Machine/ThreadInt.lean ====
section
/-!
DEFINITION. Integer thread instructions (Table 5.5, R137).
-/

namespace Sys2Proof.Machine

open Sys2Proof

/-- An integer operation of width `n` on sources a, b and c. -/
abbrev IntOp := (n : Nat) → BitVec n → BitVec n → BitVec n → BitVec n

/-- An integer operation in a lane, at 32 or 64 bits. -/
def IntOp.lane (f : IntOp) (w : TWord) (g : Group) (wide : Bool) (k : Nat) : W64 :=
  let a := w.valA g wide k
  let b := w.valB g wide k
  let c := w.valC g wide k
  if wide then f 64 a b c else (f 32 (a.setWidth 32) (b.setWidth 32) (c.setWidth 32)).setWidth 64

/-- An integer instruction at the width that W64 gives. -/
def State.intOp (s : State) (op : Nat) (l : CoreId) (gi : GroupId) (w : TWord) (f : IntOp) : Res :=
  s.threadIssue op l gi w fun s g _ => .next (s.compute l gi w g w.wide (f.lane w g w.wide))

def opSigned (w : TWord) : Bool := w.opx.getLsbD 0

/-- The high half of a product. -/
def mulHigh (signed : Bool) (n : Nat) (a b : BitVec n) : BitVec n :=
  if signed then BitVec.ofInt n ((a.toInt * b.toInt) / 2 ^ n) else BitVec.ofNat n (a.toNat * b.toNat / 2 ^ n)

/-- Division truncated toward zero; all ones by zero (R137). -/
def intDiv (signed : Bool) (n : Nat) (a b : BitVec n) : BitVec n :=
  if b = 0 then BitVec.allOnes n else if signed then a.sdiv b else a / b
/-- The remainder of that division; a by zero. -/
def intRem (signed : Bool) (n : Nat) (a b : BitVec n) : BitVec n :=
  if b = 0 then a else if signed then a.srem b else a % b

def intLess (signed : Bool) {n : Nat} (a b : BitVec n) : Bool := if signed then a.slt b else a.ult b
def intMin (signed : Bool) (n : Nat) (a b : BitVec n) : BitVec n := if intLess signed b a then b else a
def intMax (signed : Bool) (n : Nat) (a b : BitVec n) : BitVec n := if intLess signed a b then b else a
def intAbs (n : Nat) (a : BitVec n) : BitVec n := if a.msb then -a else a

/-- A word whose bit i is `f i`. -/
def bitsFrom (n : Nat) (f : Nat → Bool) : BitVec n :=
  (List.range n).foldl (fun r i => if f i then r ||| BitVec.twoPow n i else r) 0

/-- Each result bit is the entry of table `t` that the three source bits select. -/
def bitLut (t : Nat) (n : Nat) (a b c : BitVec n) : BitVec n :=
  bitsFrom n fun i => t.testBit ((a.getLsbD i).toNat + 2 * (b.getLsbD i).toNat + 4 * (c.getLsbD i).toNat)

def countOnes (n : Nat) (a : BitVec n) : BitVec n := BitVec.ofNat n (popcount a.toNat n)
def countZeros (n : Nat) (a : BitVec n) : BitVec n :=
  BitVec.ofNat n (if a.toNat = 0 then n else n - 1 - a.toNat.log2)
def reverseBits (n : Nat) (a : BitVec n) : BitVec n := bitsFrom n fun i => a.getLsbD (n - 1 - i)

/-- The free value of a field operation (log entry 18). -/
def fieldFree (op n : Nat) (a b c : BitVec n) : BitVec n :=
  (Config.fieldOpen op (a.setWidth 64) (b.setWidth 64) (c.setWidth 64)).setWidth n

/-- Bits [p + k − 1 : p] of a, sign-extended or not. A field that leaves the operand, and the sign of an empty field,
are free values. -/
def fieldExtract (signed : Bool) (n : Nat) (a b : BitVec n) : BitVec n :=
  let p := bitsOf b 7 0
  let k := bitsOf b 15 8
  if n < p + k ∨ (signed ∧ k = 0) then fieldFree 0x011 n a b 0
  else
    let v := a.toNat >>> p % 2 ^ k
    if signed && v.testBit (k - 1) then BitVec.ofInt n ((v : Int) - 2 ^ k) else BitVec.ofNat n v

/-- c with bits [p + k − 1 : p] replaced by a[k − 1 : 0]; a field that leaves the operand is a free value. -/
def fieldInsert (n : Nat) (a b c : BitVec n) : BitVec n :=
  let p := bitsOf b 7 0
  let k := bitsOf b 15 8
  if n < p + k then fieldFree 0x012 n a b c
  else
    let m : BitVec n := BitVec.ofNat n ((2 ^ k - 1) <<< p)
    (c &&& ~~~m) ||| ((a <<< p) &&& m)

/-- NOP. -/
def execNop (l : CoreId) (gi : GroupId) (w : TWord) (s : State) : Res :=
  s.threadIssue 0x000 l gi w fun s g _ => .next (s.finish l gi w g)
/-- IADD (R137). -/
def execIadd (l : CoreId) (gi : GroupId) (w : TWord) (s : State) : Res :=
  s.intOp 0x001 l gi w fun _ a b _ => a + b
/-- ISUB. -/
def execIsub (l : CoreId) (gi : GroupId) (w : TWord) (s : State) : Res :=
  s.intOp 0x002 l gi w fun _ a b _ => a - b
/-- IMUL. -/
def execImul (l : CoreId) (gi : GroupId) (w : TWord) (s : State) : Res :=
  s.intOp 0x003 l gi w fun _ a b _ => a * b
/-- IMULHI. -/
def execImulhi (l : CoreId) (gi : GroupId) (w : TWord) (s : State) : Res :=
  s.intOp 0x004 l gi w fun n a b _ => mulHigh (opSigned w) n a b
/-- IMAD. -/
def execImad (l : CoreId) (gi : GroupId) (w : TWord) (s : State) : Res :=
  s.intOp 0x005 l gi w fun _ a b c => a * b + c
/-- IDIV (R137). -/
def execIdiv (l : CoreId) (gi : GroupId) (w : TWord) (s : State) : Res :=
  s.intOp 0x006 l gi w fun n a b _ => intDiv (opSigned w) n a b
/-- IREM (R137). -/
def execIrem (l : CoreId) (gi : GroupId) (w : TWord) (s : State) : Res :=
  s.intOp 0x007 l gi w fun n a b _ => intRem (opSigned w) n a b
/-- IMIN. -/
def execImin (l : CoreId) (gi : GroupId) (w : TWord) (s : State) : Res :=
  s.intOp 0x008 l gi w fun n a b _ => intMin (opSigned w) n a b
/-- IMAX. -/
def execImax (l : CoreId) (gi : GroupId) (w : TWord) (s : State) : Res :=
  s.intOp 0x009 l gi w fun n a b _ => intMax (opSigned w) n a b
/-- IABS. -/
def execIabs (l : CoreId) (gi : GroupId) (w : TWord) (s : State) : Res :=
  s.intOp 0x00A l gi w fun n a _ _ => intAbs n a
/-- BLUT, at 32 bits. -/
def execBlut (l : CoreId) (gi : GroupId) (w : TWord) (s : State) : Res :=
  s.threadIssue 0x00B l gi w fun s g _ =>
    .next (s.compute l gi w g false (IntOp.lane (fun n a b c => bitLut (w.opxBits 7 0) n a b c) w g false))
/-- SHL. -/
def execShl (l : CoreId) (gi : GroupId) (w : TWord) (s : State) : Res :=
  s.intOp 0x00C l gi w fun n a b _ => a <<< (b.toNat % n)
/-- SHR. -/
def execShr (l : CoreId) (gi : GroupId) (w : TWord) (s : State) : Res :=
  s.intOp 0x00D l gi w fun n a b _ => if opSigned w then a.sshiftRight (b.toNat % n) else a >>> (b.toNat % n)
/-- POPC. -/
def execPopc (l : CoreId) (gi : GroupId) (w : TWord) (s : State) : Res :=
  s.intOp 0x00E l gi w fun n a _ _ => countOnes n a
/-- CLZ. -/
def execClz (l : CoreId) (gi : GroupId) (w : TWord) (s : State) : Res :=
  s.intOp 0x00F l gi w fun n a _ _ => countZeros n a
/-- BREV. -/
def execBrev (l : CoreId) (gi : GroupId) (w : TWord) (s : State) : Res :=
  s.intOp 0x010 l gi w fun n a _ _ => reverseBits n a
/-- BFE. -/
def execBfe (l : CoreId) (gi : GroupId) (w : TWord) (s : State) : Res :=
  s.intOp 0x011 l gi w fun n a b _ => fieldExtract (opSigned w) n a b
/-- BFI. -/
def execBfi (l : CoreId) (gi : GroupId) (w : TWord) (s : State) : Res :=
  s.intOp 0x012 l gi w fun n a b c => fieldInsert n a b c
/-- MOV. -/
def execMov (l : CoreId) (gi : GroupId) (w : TWord) (s : State) : Res :=
  s.intOp 0x013 l gi w fun _ _ b _ => b

end Sys2Proof.Machine
end

