-- ==== Sys2Proof/Machine/ThreadPred.lean ====
section
/-!
DEFINITION. Comparison, predicate, shuffle, vote, reduction and special-register thread instructions (Tables 5.8, 5.11
and 5.15, R143 to R145, R157).
-/

namespace Sys2Proof.Machine

open Sys2Proof

/-- A condition code (5.3) from the outcomes a < b and b < a. -/
def condHolds (code : Nat) (lt gt : Bool) : Bool :=
  match code with
  | 0 => !lt && !gt
  | 1 => lt || gt
  | 2 => lt
  | 3 => !gt
  | 4 => gt
  | _ => !lt

def intCond (w : TWord) {n : Nat} (a b : BitVec n) : Bool :=
  condHolds (w.opxBits 2 0) (intLess (w.opx.getLsbD 3) a b) (intLess (w.opx.getLsbD 3) b a)

/-- A floating comparison: with a NaN it is false, or true where OPX[3] says so. −0 equals +0. -/
def floatCond (w : TWord) (a b : Val) : Bool :=
  match Val.lt false a b, Val.lt false b a with
  | some lt, some gt => condHolds (w.opxBits 2 0) lt gt
  | _, _ => w.opx.getLsbD 3

/-- The predicate that DST names. -/
def dstPred (w : TWord) : Nat := bitsOf w.dst 2 0

/-- ICMP (Table 5.8). -/
def execIcmp (l : CoreId) (gi : GroupId) (w : TWord) (s : State) : Res :=
  s.threadIssue 0x0C0 l gi w fun s g _ =>
    .next (s.finish l gi w (g.putPred (dstPred w) (w.acting g) fun k =>
      let a := w.valA g w.wide k
      let b := w.valB g w.wide k
      if w.wide then intCond w a b else intCond w (a.setWidth 32) (b.setWidth 32)))

/-- FCMP (Table 5.8). -/
def execFcmp (l : CoreId) (gi : GroupId) (w : TWord) (s : State) : Res :=
  s.threadIssue 0x0C1 l gi w fun s g _ =>
    .next (s.finish l gi w (g.putPred (dstPred w) (w.acting g) fun k =>
      floatCond w (fp32.decode (w.valA g false k).toNat) (fp32.decode (w.valB g false k).toNat)))

/-- PLUT (Table 5.8). -/
def execPlut (l : CoreId) (gi : GroupId) (w : TWord) (s : State) : Res :=
  s.threadIssue 0x0C2 l gi w fun s g _ =>
    .next (s.finish l gi w (g.putPred (dstPred w) (w.acting g) fun k =>
      (w.opxBits 7 0).testBit ((g.pred (bitsOf w.srcA 2 0) k).toNat + 2 * (g.pred (bitsOf w.srcB 2 0) k).toNat +
        4 * (g.pred (bitsOf w.srcC 2 0) k).toNat)))

/-- PICK (Table 5.8). -/
def execPick (l : CoreId) (gi : GroupId) (w : TWord) (s : State) : Res :=
  s.threadIssue 0x0C3 l gi w fun s g _ =>
    .next (s.compute l gi w g w.wide fun k =>
      if g.pred (bitsOf w.srcC 2 0) k != w.opx.getLsbD 3 then w.valA g w.wide k else w.valB g w.wide k)

/-- PGET (Table 5.8). -/
def execPget (l : CoreId) (gi : GroupId) (w : TWord) (s : State) : Res :=
  s.threadIssue 0x0C4 l gi w fun s g _ =>
    .next (s.compute l gi w g false fun k => bitsFrom 64 fun i => decide (i < 8) && g.pred i k)

/-- PPUT (Table 5.8). -/
def execPput (l : CoreId) (gi : GroupId) (w : TWord) (s : State) : Res :=
  s.threadIssue 0x0C5 l gi w fun s g _ =>
    let lanes := w.acting g
    .next (s.finish l gi w ((List.range 7).foldl (fun g' i =>
      g'.putPred i (lanes.filter fun k => (w.valB g false k).getLsbD i) fun k => (w.valA g false k).getLsbD i) g))

/-! ### Shuffles, votes, reductions -/

/-- The source lane of XLANE (R143) for lane `k` and operand `b` in segments of `n` lanes. -/
def xlaneSrc (mode n k b : Nat) : Nat :=
  let i := k % n
  let s := k - i
  match mode with
  | 0 => s + b % n
  | 1 => if b ≤ i then k - b else k
  | 2 => if i + b < n then k + b else k
  | _ => s + (i ^^^ b) % n

/-- XLANE (R143): the source lane supplies its value whether or not it is active. -/
def execXlane (l : CoreId) (gi : GroupId) (w : TWord) (s : State) : Res :=
  s.threadIssue 0x200 l gi w fun s g _ =>
    .next (s.compute l gi w g w.wide fun k =>
      w.valA g w.wide (xlaneSrc (w.opxBits 1 0) (2 ^ w.opxBits 4 2) k (w.valB g w.wide k).toNat))

/-- VOTE (R144). -/
def execVote (l : CoreId) (gi : GroupId) (w : TWord) (s : State) : Res :=
  s.threadIssue 0x201 l gi w fun s g _ =>
    let lanes := w.acting g
    let p (k : Nat) : Bool := g.pred (bitsOf w.srcA 2 0) k != w.opx.getLsbD 2
    match w.opxBits 1 0 with
    | 3 => .next (s.compute l gi w g false fun _ => (laneMask (lanes.filter p)).setWidth 64)
    | m =>
      let r := if m = 0 then lanes.all p else if m = 1 then lanes.any p else lanes.all p || lanes.all fun k => !p k
      .next (s.finish l gi w (g.putPred (dstPred w) lanes fun _ => r))

/-- One level of the fixed tree of R145: values combined pairwise. -/
def pairUp (f : Val → Val → Val) : List Val → List Val
  | a :: b :: t => f a b :: pairUp f t
  | l => l

/-- The fixed tree over 32 values, five levels. -/
def reduceTree (f : Val → Val → Val) (vs : List Val) : Val :=
  ((List.range 5).foldl (fun l _ => pairUp f l) vs).headD .nan

/-- An FP32 sum rounded to nearest-even, as a value again, with the flags it would set. -/
def addRne (a b : Val) : Val := fp32.decode (fp32.round .rne (a.add false b).1).1

/-- The FP32 reductions of R145: 6 add, 7 minimum, 8 maximum. -/
def gredFloat (op : Nat) (lane : Nat → Option Val) : Nat :=
  let none' : Val := if op = 6 then .fin true 0 0 else .inf (op == 8)
  let f : Val → Val → Val := if op = 6 then addRne else if op = 7 then Val.min else Val.max
  (fp32.round .rne (reduceTree f ((List.range 32).map fun k => (lane k).getD none'))).1

/-- The integer reductions of R145 over the values of the acting lanes, which are not empty. -/
def gredInt (op : Nat) (signed : Bool) (vs : List W32) : W32 :=
  match vs with
  | [] => 0
  | v :: t =>
    t.foldl (fun a x =>
      match op with
      | 0 => a + x
      | 1 => intMin signed 32 a x
      | 2 => intMax signed 32 a x
      | 3 => a &&& x
      | 4 => a ||| x
      | _ => a ^^^ x) v

/-- The tree's sums from the leaves up, for their flags: invalid, overflow and inexact of any level. -/
def treeFlags (vs : List Val) : Nat :=
  ((List.range 5).foldl (fun (r : List Val × Nat) _ =>
    let rec' := pairFlags r.1
    (pairUp addRne r.1, r.2 ||| rec')) (vs, 0)).2
where
  /-- Flags of one level. -/
  pairFlags : List Val → Nat
    | a :: b :: t =>
      let r := a.add false b
      (fp32.round .rne r.1).2 ||| (if r.2 then flInvalid else 0) ||| pairFlags t
    | _ => 0

/-- GRED (R145). The roundings of an FP32 add set the sticky flags (R158, R176, log entry 21). -/
def execGred (l : CoreId) (gi : GroupId) (w : TWord) (s : State) : Res :=
  s.threadIssue 0x202 l gi w fun s g _ =>
    let lanes := w.acting g
    let op := w.opxBits 3 0
    if lanes.isEmpty then .next (s.finish l gi w g)
    else
      let r : Nat :=
        if 6 ≤ op then
          gredFloat op fun k => if lanes.contains k then some (fp32.decode (w.valA g false k).toNat) else none
        else (gredInt op (w.opx.getLsbD 4) (lanes.map fun k => (w.valA g false k).setWidth 32)).toNat
      let fl : Nat :=
        if op = 6 then treeFlags ((List.range 32).map fun k =>
          if lanes.contains k then fp32.decode (w.valA g false k).toNat else .fin true 0 0)
        else 0
      .next ((s.finish l gi w (g.putU w.dst.toNat (BitVec.ofNat 64 r))).setVeFlags l fl)

/-! ### Special registers and flags -/

/-- A special register in a lane (Table 5.15). -/
def State.special (s : State) (l gi : Nat) (g : Group) (b : Block) (i lane : Nat) : W64 :=
  match i with
  | 0 => BitVec.ofNat 64 lane
  | 1 => BitVec.ofNat 64 gi
  | 2 => BitVec.ofNat 64 l
  | 3 => g.active.setWidth 64
  | 4 => BitVec.ofNat 64 (bitsOf (s.fpFlags l) 3 0)
  | 5 => s.gtb (l / 192)
  | 6 => BitVec.ofNat 64 b.slot
  | _ => BitVec.ofNat 64 (s.lmSize l)

/-- RDSR (R157): GTB is 64 bits wide, every other register 32. -/
def execRdsr (l : CoreId) (gi : GroupId) (w : TWord) (s : State) : Res :=
  s.threadIssue 0x300 l gi w fun s g b =>
    .next (s.compute l gi w g (w.opxBits 5 0 == 5) fun k => s.special l gi g b (w.opxBits 5 0) k)

/-- FLAGCLR (R157): the flags of immediate b[3:0] clear. -/
def execFlagclr (l : CoreId) (gi : GroupId) (w : TWord) (s : State) : Res :=
  s.threadIssue 0x301 l gi w fun s g _ =>
    let s' := s.finish l gi w g
    if (w.acting g).isEmpty then .next s'
    else .next (s'.setReg .CORE_FP_FLAGS (s.physOf l) 0 (s.fpFlags l &&& ~~~(BitVec.ofNat 32 (bitsOf w.srcB 3 0))))

end Sys2Proof.Machine
end

