-- ==== Sys2Proof/Machine/MemOps.lean ====
section
/-!
DEFINITION. Memory-side operations (R150, R231 to R233, Tables 5.14 and 9.6) and the records that keep a repeated one
from being applied again (R340, Table 13.5).
-/

namespace Sys2Proof.Machine

open Sys2Proof

/-- Bytes of an operation's element (Tables 5.14 and 9.6). -/
def memOpBytes (code : Nat) : Nat := if atomLong code then 8 else 4

/-- A sum or a selection of FP32 codes, rounded to nearest-even with no flag (R231). -/
def fp32Op (f : Val → Val → Val) (a b : Nat) : Nat := (fp32.round .rne (f (fp32.decode a) (fp32.decode b))).1
def plainAdd (a b : Val) : Val := (a.add false b).1
/-- The BF16 pair add (R231). -/
def bf16Pair (a b : Nat) : Nat :=
  let one (i : Nat) : Nat :=
    (bf16.round .rne (plainAdd (bf16.decode (a >>> i % 2 ^ 16)) (bf16.decode (b >>> i % 2 ^ 16)))).1
  one 0 + one 16 * 2 ^ 16

/-- The new value of the element by operation code, old value, operand and compare value (Table 5.14). -/
def memOpNew (code : Nat) (sgn : Bool) (old b c : W64) : W64 :=
  let o32 : W32 := old.setWidth 32
  let b32 : W32 := b.setWidth 32
  match code with
  | 0 => BitVec.ofNat 64 (fp32Op plainAdd o32.toNat b32.toNat)
  | 1 => BitVec.ofNat 64 (bf16Pair o32.toNat b32.toNat)
  | 2 => (o32 + b32).setWidth 64
  | 3 => old + b
  | 4 => (intMin sgn 32 o32 b32).setWidth 64
  | 5 => (intMax sgn 32 o32 b32).setWidth 64
  | 6 => intMin sgn 64 old b
  | 7 => intMax sgn 64 old b
  | 8 => BitVec.ofNat 64 (fp32Op Val.min o32.toNat b32.toNat)
  | 9 => BitVec.ofNat 64 (fp32Op Val.max o32.toNat b32.toNat)
  | 10 => b32.setWidth 64
  | 11 => b
  | 12 => if o32 = c.setWidth 32 then b32.setWidth 64 else old
  | 13 => if old = c then b else old
  | _ => old

/-! ### Records (R340) -/

/-- Pairs compared as positions: element then word, atomic number then lane. -/
def posLe (a b : Nat × Nat) : Bool := decide (a.1 < b.1) || (a.1 == b.1 && decide (a.2 ≤ b.2))

/-- The record an operation needs at its home: none, a reduce mark, an atomic mark or a result record. -/
inductive RecordKind where
  | none | reduce | mark | result
deriving DecidableEq, Repr

end Sys2Proof.Machine

namespace Sys2Proof

open Machine

def MemOp.recordKind (op : MemOp) : RecordKind :=
  match op.src with
  | .plain => .none
  | .reduce _ _ _ _ => if op.code.val ≤ 3 then .reduce else .none
  | .atomic _ _ _ wantsOld =>
    if wantsOld then .result
    else if op.code.val ≤ 3 ∨ op.code.val = 12 ∨ op.code.val = 13 then .mark
    else .none

end Sys2Proof

namespace Sys2Proof.Machine

open Sys2Proof

/-- What the home's records say of an operation: not applied before, applied before, or applied with a stored result. -/
inductive Seen where
  | new | done | result (old : W64)
deriving DecidableEq, Repr

def State.opSeen (s : State) (home : Nat) (op : MemOp) : Seen :=
  match op.recordKind, op.src with
  | .reduce, .reduce st acc e wd =>
    if s.opRecords.any fun r => match r with
      | .reduceMark h st' acc' e' wd' => h == home && st' == st && acc' == acc && posLe (e, wd) (e', wd')
      | _ => false then .done else .new
  | .mark, .atomic st n k _ =>
    if s.opRecords.any fun r => match r with
      | .atomicMark h st' n' k' => h == home && st' == st && posLe (n, k) (n', k')
      | _ => false then .done else .new
  | .result, .atomic st n k _ =>
    match s.opRecords.findSome? fun r => match r with
      | .result h st' n' k' old => if h == home && st' == st && n' == n && k' == k then some old else none
      | _ => none with
    | some old => .result old
    | none => .new
  | _, _ => .new

/-- Atomic records that one slice holds (R340). -/
def atomicDepth : Nat := 2048
def State.atomicRecords (s : State) (home : Nat) : Nat :=
  (s.opRecords.filter fun r => match r with
    | .atomicMark h _ _ _ => h == home
    | .result h _ _ _ _ => h == home
    | _ => false).length

/-- The block of a block stream becomes UNPROT (R340). -/
def State.unprotect (s : State) (stream : W32) : State :=
  let c := bitsOf stream 25 16 / 8
  let r := bitsOf stream 7 0
  match s.block c r with
  | none => s
  | some b => if b.unprot then s else (s.setBlock c r (some { b with unprot := true })).bumpField .CLU_RS_STATUS c 0 31 25 1

/-- The record that an applied operation leaves; with no record free the block is no longer protected. -/
def State.recordOp (s : State) (home : Nat) (op : MemOp) (old : W64) : State :=
  match op.recordKind, op.src with
  | .reduce, .reduce st acc e wd =>
    { s with opRecords := OpRecord.reduceMark home st acc e wd :: s.opRecords.filter fun r => match r with
        | .reduceMark h st' acc' _ _ => !(h == home && st' == st && acc' == acc)
        | _ => true }
  | .mark, .atomic st n k _ =>
    let had := s.opRecords.any fun r => match r with
      | .atomicMark h st' _ _ => h == home && st' == st
      | _ => false
    if !had && decide (atomicDepth ≤ s.atomicRecords home) then s.unprotect st
    else
      { s with opRecords := OpRecord.atomicMark home st n k :: s.opRecords.filter fun r => match r with
          | .atomicMark h st' _ _ => !(h == home && st' == st)
          | _ => true }
  | .result, .atomic st n k _ =>
    if atomicDepth ≤ s.atomicRecords home then s.unprotect st
    else { s with opRecords := OpRecord.result home st n k old :: s.opRecords }
  | _, _ => s

/-! ### Performing an operation -/

/-- The operation counted where it is performed (Table 15.12), by the slice's adder, or by the adder of the line's stack
or ring channel; and its operand on the bridges to its home (R10). -/
def State.countOp (s : State) (u : Unit) (a n : Nat) (atHearth : Bool) : State :=
  match s.homeOf a with
  | none => s
  | some h =>
    let s := s.countPath u (h / 64) n true
    if atHearth then (s.addCount .DIE_CNT_LO (h / 64) 0 n).addCount .DIE_CNT_LO (h / 64) 1 n
    else
      match s.place a with
      | none => s
      | some p => if p.ring then s.addCount .RNG_CNT_LO p.unit 2 n else s.addCount .STK_CNT_LO p.unit 3 n

/-- A memory-side operation performed at its home (R232): every control cache gives the line up; an ATOMG fills the line
into its slice. The old value is answered. -/
def State.performOp (s : State) (u : Unit) (op : MemOp) : W64 × State :=
  let n := memOpBytes op.code
  let s := s.recall (op.addr / 256) true
  let old : W64 := BitVec.ofNat 64 (s.load op.addr n)
  let isAtomic := match op.src with
    | .atomic _ _ _ _ => true
    | _ => false
  let swapFails := (op.code = 12 && old != (op.cmp.setWidth 32).setWidth 64) || (op.code = 13 && old != op.cmp)
  let writes := decide (op.code.val < 14) && !swapFails
  let r := s.hearthTouch (s.unitPart u) op.addr writes isAtomic
  let s := r.2.countOp u op.addr n (r.1 || s.isScratch op.addr || (isAtomic && r.2.hearthHolds op.addr))
  if writes then (old, s.put (s.unitSrc u) op.addr (leBytes n (memOpNew op.code op.sgn old op.operand op.cmp).toNat))
  else (old, s)

/-- A memory-side operation as its home serves it, with its record (R340): the old value where one is returned. -/
def State.memSide (s : State) (u : Unit) (op : MemOp) : W64 × State :=
  match s.homeOf op.addr with
  | none => (0, s)
  | some home =>
    match s.opSeen home op with
    | .done => (0, s)
    | .result old => (old, s)
    | .new =>
      let r := s.performOp u op
      (r.1, r.2.recordOp home op r.1)

/-- The unit that an operation comes from, by its stream: a group's vector engine, or a queue's DMA engine. -/
def memOpUnit (src : MemSrc) : Unit :=
  match src with
  | .reduce st _ _ _ => .de (Fin.ofNat 768 (bitsOf st 25 16))
  | .atomic st _ _ _ => .ve (Fin.ofNat 768 (bitsOf st 25 16))
  | .plain => .host .pf0

/-- MEM_SIDE_OP (R232), performed once the domains of its home are ON (R366). -/
def execMemSideOp (op : MemOp) (s : State) : Res :=
  if !s.isMemoryRange op.addr (memOpBytes op.code) then .fault .noSuchAddress
  else if s.homesAsleep op.addr (memOpBytes op.code) then .next s
  else .next (s.memSide (memOpUnit op.src) op).2

end Sys2Proof.Machine
end

