-- ==== Sys2Proof/Machine/StreamQueues.lean ====
section
/-!
DEFINITION. Stream queues (12.8): the regions behind the windows, pushes, the head window, releases and configuration.
-/

namespace Sys2Proof.Machine

open Sys2Proof

/-! ### The region of a queue (Table 12.15) -/

/-- What an offset of a queue's region is: one of the three windows, or a slot. -/
inductive SqPart where
  | item | header | head | slot (i : Nat)
deriving DecidableEq, Repr

/-- A place in a queue's region: producer, queue, part, byte within the part. -/
structure SqRef where
  l : Nat
  q : Nat
  part : SqPart
  pos : Nat
deriving DecidableEq, Repr

def State.sq (s : State) (l q : Nat) : StreamQ := SMap.get {} (s.core l).sq q
def State.setSq (s : State) (l q : Nat) (x : StreamQ) : State :=
  s.modCore l fun c => { c with sq := SMap.set {} c.sq q x }

def State.sqCfg (s : State) (l q : Nat) : W32 := s.reg .CORE_SQ_CFG (s.physOf l) q
def State.sqEnabled (s : State) (l q : Nat) : Bool := (s.sqCfg l q).getLsbD 31
def State.sqForDe (s : State) (l q : Nat) : Bool := (s.sqCfg l q).getLsbD 30
def State.sqConsumer (s : State) (l q : Nat) : Nat := bitsOf (s.sqCfg l q) 29 20
/-- Slots of the ring. -/
def State.sqSlots (s : State) (l q : Nat) : Nat := 2 ^ bitsOf (s.sqCfg l q) 19 16
/-- Offset of the region in the consumer's local memory. -/
def State.sqBase (s : State) (l q : Nat) : Nat := s.field .CORE_SQ_RING (s.physOf l) q 18 6 * 64
/-- Bytes of the region. -/
def State.sqBytes (s : State) (l q : Nat) : Nat := 192 + 64 * s.sqSlots l q

/-- The queue region that an offset of core `k`'s local memory lies in: of a producer of its region (R319, R320). -/
def State.sqAt (s : State) (k off : Nat) : Option SqRef :=
  if off < s.blockLm k then none
  else
    (List.range 48).findSome? fun i =>
      let l := k / 48 * 48 + i
      (List.range 8).findSome? fun q =>
        if s.sqEnabled l q && s.sqConsumer l q == k && decide (s.sqBase l q ≤ off) &&
            decide (off < s.sqBase l q + s.sqBytes l q) then
          let r := off - s.sqBase l q
          some { l := l, q := q, pos := r % 64,
                 part := match r / 64 with
                   | 0 => .item
                   | 1 => .header
                   | 2 => .head
                   | n => .slot (n - 3) }
        else none

/-- The memory address of a slot. -/
def State.slotAddr (s : State) (l q i : Nat) : Nat := localAddr (s.sqConsumer l q) (s.sqBase l q + 192 + 64 * i)

/-! ### Pushes (R321, R324) -/

/-- The producer of a push: an instruction of the DE, a block of the VE, or one that the model does not name. -/
inductive Pusher where
  | de (acc : Nat)
  | block (r : Nat)
  | anon
deriving DecidableEq, Repr

/-- The push counts that a replaying producer has reached. -/
def State.replayCounts (s : State) (l : Nat) : Pusher → Option (List Nat)
  | .de acc => (s.entry l 2 acc).bind (·.pushNow)
  | .block r => (s.block (l / 8) r).bind (·.pushNow)
  | .anon => none
def State.setReplayCounts (s : State) (l : Nat) (w : Pusher) (c : List Nat) : State :=
  match w with
  | .de acc => s.modEntry l 2 acc fun e => { e with pushNow := some c }
  | .block r => s.modBlock (l / 8) r fun b => { b with pushNow := some c }
  | .anon => s

/-- A push of a replaying producer that had its effect before: only counted (R324). -/
def State.replayPush (s : State) (l q : Nat) (w : Pusher) : Option State :=
  match s.replayCounts l w with
  | none => none
  | some c => if c.getD q 0 < (s.sq l q).pushes then some (s.setReplayCounts l w (c.set q (c.getD q 0 + 1))) else none

/-- The live push counted, at the queue and by a producer that has caught up with its replay. -/
def State.countPush (s : State) (l q : Nat) (w : Pusher) : State :=
  let x := s.sq l q
  let s := s.setSq l q { x with pushes := x.pushes + 1 }
  match s.replayCounts l w with
  | none => s
  | some c => s.setReplayCounts l w (c.set q (c.getD q 0 + 1))

/-- The 64 bytes of a push: written bytes, and zero where none was written. -/
def pushBytes (bs : List (Option Byte)) : List Byte := (List.range 64).map fun i => ((bs.getD i none)).getD 0

/-- An item pushed: the first of a packet reserves the header's slot as well. None where no slot is free. -/
def State.pushItem (s : State) (l q : Nat) (w : Pusher) (bs : List (Option Byte)) : Option State :=
  match s.replayPush l q w with
  | some s' => some s'
  | none =>
    let x := s.sq l q
    let n := s.sqSlots l q
    let need := if x.forming = 0 then 2 else 1
    if n < x.used - x.freed + need then none
    else
      let slot := (x.used + need - 1) % n
      let s := s.setSq l q { x with used := x.used + need, forming := x.forming + need }
      some ((s.store (s.slotAddr l q slot) (pushBytes bs)).countPush l q w)

/-- The header word of Table 12.16. -/
def headerWord (packet slot items : Nat) : Nat :=
  0x01 * 2 ^ 56 + packet % 2 ^ 24 * 2 ^ 32 + slot % 2 ^ 16 * 2 ^ 16 + items % 2 ^ 16

/-- The header pushed: the packet is valid. None where its slot is not reserved yet and none is free. -/
def State.pushHeader (s : State) (l q : Nat) (w : Pusher) (bs : List (Option Byte)) : Option State :=
  match s.replayPush l q w with
  | some s' => some s'
  | none =>
    let x := s.sq l q
    let n := s.sqSlots l q
    let need := if x.forming = 0 then 1 else 0
    if n < x.used - x.freed + need then none
    else
      let held := x.forming + need
      let slot := (x.used + need - held) % n
      let s := s.setSq l q { x with used := x.used + need, forming := 0, packetNo := (x.packetNo + 1) % 2 ^ 24,
                                    packets := x.packets ++ [(slot, held - 1)] }
      let word := leBytes 8 (headerWord x.packetNo slot (held - 1))
      some ((s.store (s.slotAddr l q slot) (word ++ (pushBytes bs).drop 8)).countPush l q w)

/-- A write to a window that is not a push of the queue's engine is dropped and logged (R321). -/
def State.dropPush (s : State) (src : W32) (l q : Nat) : State := s.ashOpen src ((s.partOf l).getD 0xFF) l 0 q

/-- A push waits for a slot. -/
def State.overrun (s : State) (l q : Nat) : State := s.setField .CORE_SQ_CFG (s.physOf l) q 7 7 1

/-! ### Reads and releases (R322, R323) -/

/-- Byte `i` of the idle item. -/
def idleByte (i : Nat) : Byte := if i = 7 then 0 else 0xFF

/-- A slot belongs to a valid packet. -/
def State.slotValid (s : State) (l q i : Nat) : Bool :=
  (s.sq l q).packets.any fun p => (List.range (p.2 + 1)).any fun j => (p.1 + j) % s.sqSlots l q == i

/-- A byte of a queue's region as a window read returns it. -/
def State.sqByte (s : State) (r : SqRef) : Byte :=
  match r.part with
  | .head =>
    match (s.sq r.l r.q).packets with
    | p :: _ => s.byte (s.slotAddr r.l r.q p.1 + r.pos)
    | [] => idleByte r.pos
  | .slot i => if s.slotValid r.l r.q i then s.byte (s.slotAddr r.l r.q i + r.pos) else idleByte r.pos
  | .item => idleByte r.pos
  | .header => idleByte r.pos

/-- Bytes of a core's local memory as its window shows them. -/
def State.windowBytes (s : State) (k off n : Nat) : List Byte :=
  (List.range n).map fun i =>
    match s.sqAt k (off + i) with
    | some r => s.sqByte r
    | none => s.byte (localAddr k (off + i))

/-- The consumer releases the head packet: its slots free, and the producer's credit counter is raised to the slots freed
(R323). The signal bears the source number of the consumer's vector engine (log entry 25). -/
def State.releasePacket (s : State) (k l q : Nat) (hdr : W64) : State :=
  let x := s.sq l q
  match x.packets with
  | [] => s
  | p :: rest =>
    if bitsOf hdr 55 32 ≠ x.headNo then s
    else
      let freed := x.freed + p.2 + 1
      (s.setSq l q { x with packets := rest, headNo := (x.headNo + 1) % 2 ^ 24, freed := freed }).signalNow (s.srcCore k 1)
        (l * 256 + bitsOf (s.sqCfg l q) 15 8) .raise (BitVec.ofNat 64 freed)

/-! ### Window writes of engines -/

/-- A write of bytes through windows by an engine of core `me` splits into pushes, a release and plain stores. The bytes
of one port of one queue form one push. -/
structure PortWrite where
  l : Nat
  q : Nat
  part : SqPart
  bytes : List (Option Byte)

/-- The ports that a list of (core, offset, byte) writes reaches, each once, items before headers. -/
def State.portsOf (s : State) (ws : List (Nat × Nat × Byte)) : List (Nat × Nat × SqPart) :=
  let ps := ws.filterMap fun w =>
    match s.sqAt w.1 w.2.1 with
    | some r => match r.part with
      | .slot _ => none
      | p => some (r.l, r.q, p)
    | none => none
  let once := ps.dedup
  once.filter (fun p => p.2.2 == .item) ++ once.filter (fun p => p.2.2 != .item)

/-- The bytes that the writes put into one port: where two meet, the later stays. -/
def State.portBytes (s : State) (ws : List (Nat × Nat × Byte)) (p : Nat × Nat × SqPart) : List (Option Byte) :=
  ws.foldl (fun (b : List (Option Byte)) w =>
    match s.sqAt w.1 w.2.1 with
    | some r => if r.l = p.1 ∧ r.q = p.2.1 ∧ r.part = p.2.2 then b.set r.pos (some w.2.2) else b
    | none => b) (List.replicate 64 none)

/-- One port's write by core `me`'s VE or DE. None where a push waits for a slot. -/
def State.portWrite (s : State) (me : Nat) (de : Bool) (w : Pusher) (consumer : Nat) (p : Nat × Nat × SqPart)
    (bs : List (Option Byte)) : Option State :=
  let l := p.1
  let q := p.2.1
  let mine := decide (l = me) && s.sqForDe l q == de
  match p.2.2 with
  | .item => if mine then s.pushItem l q w bs else some (s.dropPush (s.srcCore me (if de then 3 else 1)) l q)
  | .header => if mine then s.pushHeader l q w bs else some (s.dropPush (s.srcCore me (if de then 3 else 1)) l q)
  | .head =>
    if consumer = me then some (s.releasePacket me l q (BitVec.ofNat 64 (ofLe ((pushBytes bs).take 8))))
    else some (s.dropPush (s.srcCore me (if de then 3 else 1)) l q)
  | .slot _ => some s

/-- Bytes written through windows by an engine: plain bytes are stored, ports act. On the left, the state in which the
write waits for a slot, OVERRUN set. -/
def State.windowWrite (s : State) (me : Nat) (de : Bool) (w : Pusher) (ws : List (Nat × Nat × Byte)) : State ⊕ State :=
  let ports := s.portsOf ws
  let r : State ⊕ State := ports.foldl (fun (r : State ⊕ State) p =>
    match r with
    | .inl x => .inl x
    | .inr t =>
      match t.portWrite me de w (s.sqConsumer p.1 p.2.1) p (s.portBytes ws p) with
      | none => .inl (s.overrun p.1 p.2.1)
      | some t' => .inr t') (.inr s)
  match r with
  | .inl x => .inl x
  | .inr t =>
    .inr (ws.foldl (fun t x =>
      match s.sqAt x.1 x.2.1 with
      | some y => (match y.part with
        | .slot _ => t.store (localAddr x.1 x.2.1) [x.2.2]
        | _ => t)
      | none => t.store (localAddr x.1 x.2.1) [x.2.2]) t)

/-! ### Windows of other units -/

/-- A write through a core's window by a unit that pushes into no stream queue (R321, R323): a control core of the consumer may
release the head packet, any other write to the ports of a queue is dropped and logged, and the rest is stored. -/
def State.writeWindow (s : State) (u : Unit) (k off : Nat) (bs : List Byte) : State :=
  let ws := bs.zipIdx.map fun b => (k, off + b.2, b.1)
  let ports := s.portsOf ws
  let isCc := match u with
    | .cc _ => true
    | _ => false
  if ports.isEmpty then s.writeLocal u k off bs
  else
    let t := ports.foldl (fun (t : State) p =>
      if isCc && p.2.2 == .head && unitCore u == some (s.sqConsumer p.1 p.2.1) then
        t.releasePacket k p.1 p.2.1 (BitVec.ofNat 64 (ofLe ((pushBytes (s.portBytes ws p)).take 8)))
      else t.dropPush (s.unitSrc u) p.1 p.2.1) s
    let t := ws.foldl (fun (t : State) x =>
      match s.sqAt x.1 x.2.1 with
      | some y => (match y.part with
        | .slot _ => t.store (localAddr x.1 x.2.1) [x.2.2]
        | _ => t)
      | none => t.store (localAddr x.1 x.2.1) [x.2.2]) t
    t.countLocal u k bs.length true

/-! ### Commands -/

/-- A push as a command of its own: dropped where the queue is off or not of that engine; with no free slot it waits. -/
def State.push (s : State) (l q : Nat) (fromDe : Bool) (r : Option State) : State :=
  if !s.sqEnabled l q || s.sqForDe l q != fromDe then s.dropPush (s.srcCore l (if fromDe then 3 else 1)) l q
  else r.getD (s.overrun l q)

/-- ITEM_PUSH (R321). -/
def execItemPush (l : CoreId) (q : Fin 8) (fromDe : Bool) (bs : List (Option Byte)) (s : State) : Res :=
  .next (s.push l q fromDe (s.pushItem l q .anon bs))

/-- HEADER_PUSH (R321). -/
def execHeaderPush (l : CoreId) (q : Fin 8) (fromDe : Bool) (bs : List (Option Byte)) (s : State) : Res :=
  .next (s.push l q fromDe (s.pushHeader l q .anon bs))

/-- HEAD_WINDOW_READ (R322): core `l` reads the head window of a queue that it consumes, and gets the header of the head packet,
or the idle item. A read changes nothing but the byte counters of the window. -/
def execHeadWindowRead (l producer : CoreId) (q : Fin 8) (s : State) : Res :=
  if s.sqEnabled producer q && s.sqConsumer producer q == l.val then
    .next ((s.countLocal (.ve l) l 64 false).emit (.item l (s.windowBytes l (s.sqBase producer q + 128) 64)))
  else .next s

/-- PACKET_RELEASE (R323). -/
def execPacketRelease (l producer : CoreId) (q : Fin 8) (hdr : W64) (s : State) : Res :=
  if s.sqEnabled producer q && s.sqConsumer producer q == l.val then .next (s.releasePacket l producer q hdr) else .next s

/-! ### Configuration (R319, Tables 12.21, 12.22) -/

/-- The ring that a new configuration names is one that the queue may have: a consumer of the same region and partition,
and a region within its reserve. -/
def State.sqAllowed (s : State) (l q : Nat) (v : W32) : Bool :=
  let k := bitsOf v 29 20
  let base := s.sqBase l q
  decide (k < 768) && decide (k / 48 = l / 48) && decide (s.partOf k = s.partOf l) && (s.partOf l).isSome &&
    decide (s.blockLm k ≤ base) && decide (base + 192 + 64 * 2 ^ bitsOf v 19 16 ≤ s.lmSize k)

/-- A write of CORE_SQ_CFG: while ENABLE is set only ENABLE and the W1C bits change; enabling starts the ring anew, unless
the queue is refused; disabling discards unreleased packets and keeps the counts. -/
def State.sqCfgWrite (s : State) (k q : Nat) (v : W32) : State :=
  let old := s.reg .CORE_SQ_CFG k q
  let w1c := old &&& ~~~(v &&& 0xC0)
  match s.logicalOf k with
  | none => s.setReg .CORE_SQ_CFG k q (if old.getLsbD 31 then w1c else (v &&& 0x7FFFFF00 ||| w1c &&& 0xC0))
  | some l =>
    if old.getLsbD 31 then
      if v.getLsbD 31 then s.setReg .CORE_SQ_CFG k q w1c
      else
        let x := s.sq l q
        (s.setReg .CORE_SQ_CFG k q (w1c &&& 0x7FFFFFFF)).setSq l q
          { packetNo := x.packetNo, headNo := x.packetNo, pushes := x.pushes }
    else
      let size := bitsOf v 19 16
      let f := if 4 ≤ size ∧ size ≤ 11 then v else (v &&& 0xFFF0FFFF) ||| (old &&& 0xF0000)
      let w := (f &&& 0x7FFFFF00) ||| (w1c &&& 0xC0)
      if !v.getLsbD 31 then s.setReg .CORE_SQ_CFG k q w
      else if s.sqAllowed l q f then
        let x := s.sq l q
        (s.setReg .CORE_SQ_CFG k q (w ||| 0x80000000)).setSq l q { packetNo := x.packetNo, headNo := x.packetNo, pushes := x.pushes }
      else s.setReg .CORE_SQ_CFG k q (w ||| 0x40)

/-- SQ_CFG_WRITE (R319). -/
def execSqCfgWrite (a : Agent) (k : PhysId) (q : Fin 8) (v : W32) (s : State) : Res :=
  if s.mayWrite a { name := .CORE_SQ_CFG, i := k, j := q } then .next (s.sqCfgWrite k q v) else .next s

/-- A write of CORE_SQ_RING: while ENABLE is set it changes nothing (Table 12.21). -/
def State.sqRingWrite (s : State) (k q : Nat) (v : W32) : State :=
  if (s.reg .CORE_SQ_CFG k q).getLsbD 31 then s else s.plainWrite { name := .CORE_SQ_RING, i := k, j := q } v

/-- A write of CORE_SQ_RESV: 0 to 64; it takes effect as a change of split does. -/
def State.sqResvWrite (s : State) (k : Nat) (v : W32) : State :=
  if bitsOf v 6 0 ≤ 64 then s.splitWrite k none (some (bitsOf v 6 0)) else s

/-- SQ_RESV_WRITE (R319). -/
def execSqResvWrite (a : Agent) (k : PhysId) (v : W32) (s : State) : Res :=
  if s.mayWrite a { name := .CORE_SQ_RESV, i := k } then .next (s.sqResvWrite k v) else .next s

end Sys2Proof.Machine
end

