-- ==== Sys2Proof/Machine/MatrixUnit.lean ====
section
/-!
DEFINITION. The matrix unit (07): the fold of a tile into passes (R47, R185, R195), the mapping of chain positions to cubes (R193), generations,
banks and bubbles (R188, R189), the canonical reduction order (R187, R169), and the accumulation buffer with its drains (R190, R191).
-/

namespace Sys2Proof.Machine

open Sys2Proof

/-- ⌈a ÷ b⌉. -/
def ceilDiv (a b : Nat) : Nat := (a + b - 1) / b

/-! ### Folding -/

/-- The width-class numbers of Table 7.1: row groups a bank holds, and cube depth k. -/
def qMax (cls : Nat) : Nat := if cls = 0 then 8 else if cls = 1 then 4 else 2
def cubeDepth (cls : Nat) : Nat := if cls = 0 then 16 else if cls = 1 then 8 else 4

/-- The arrangement that a partition's fold table chooses (R47). -/
def State.foldFor (s : State) (p cls m k : Nat) : Nat :=
  match (SMap.get [] s.cfg.fold p).find? fun e => bitsOf e 7 0 == cls && decide (m ≤ 2 ^ bitsOf e 15 8) &&
      decide (2 ^ bitsOf e 23 16 ≤ k) with
  | some e => bitsOf e 31 24
  | none => 0

/-- Row groups R of an arrangement (Table 7.5). -/
def arrRows (arr : Nat) : Nat := if arr = 1 then 8 else if arr = 2 then 2 else if arr = 3 then 4 else 1

/-- The pass parameters of an MMA (R185), or of one in broadcast mode (R195). -/
def passPlan (acc : Nat) (broadcast : Bool) (arr cls m n k : Nat) : MuRun :=
  let r := arrRows arr
  let b := if cls = 2 then 1 else if cls = 1 then 2 else 4
  let q := if broadcast then min (qMax cls) (ceilDiv m 8) else min (qMax cls) (ceilDiv m (8 * r))
  let mp := if broadcast then 8 * q else 8 * r * q
  let nc := if broadcast then 8 * (128 * b / mp)
    else 8 * min (1024 / mp) (512 / (r * q * (32 / cubeDepth cls)))
  { acc := acc, broadcast := broadcast, arr := if broadcast then 0 else arr, q := q, mp := mp, nc := nc,
    rowChunks := ceilDiv m mp, colChunks := ceilDiv n nc, spans := ceilDiv k 256 }

/-- MODE of CORE_MU_CUBES: 0 normal, 1 broadcast, 2 test slice, 3 failed. -/
def State.muMode (s : State) (l : Nat) : Nat := s.field .CORE_MU_CUBES (s.physOf l) 0 31 30

/-- The plan of an MMA under the cubes in use now. -/
def State.planMma (s : State) (l : Nat) (acc : Nat) (d : Desc) : MuRun :=
  let cls := widthClass d.fmtA
  let bc := s.muMode l == 1
  passPlan acc bc (s.foldFor ((s.partOf l).getD 16) cls d.mmaM d.mmaK) cls d.mmaM d.mmaN d.mmaK

/-- The oldest unstarted MMA of a core starts once its waits are satisfied, behind the MMAs in the array (R81, R192); none where it
cannot. -/
def State.startMma (s : State) (l : CoreId) : Option State :=
  match (s.queue l 1).oldestPending with
  | none => none
  | some e =>
    if e.desc.opcode ≠ 1 || e.void || !s.waitsMet l 1 e || s.engineStopped l 1 || s.fenced l ||
        decide (2 ≤ s.muMode l) then none
    else
      let s := (s.modEntry l 1 e.acc fun x => { x with st := .running }).modMU l fun u =>
        { u with runs := u.runs ++ [s.planMma l e.acc e.desc] }
      some (s.traceStart l 1 e)

/-- MMA (R185, R192). -/
def execMma (l : CoreId) (s : State) : Res := .next ((s.startMma l).getD s)

/-! ### Operands -/

/-- A read of an operand range by the unit: through the local port, where a stream queue's region shows idle items (R322), or at
the homes of its lines (R181). -/
def State.muRead (s : State) (l : CoreId) (p a n : Nat) (stream : Bool) : List Byte × State :=
  match s.muPieces l p a n with
  | none => ([], s)
  | some ps =>
    ps.foldl (fun (r : List Byte × State) x =>
      match windowOf x.1 with
      | some (k, off) => (r.1 ++ r.2.windowBytes k off x.2, r.2.countLocal (.mu l) k x.2 false)
      | none =>
        let q := r.2.readMem (.mu l) x.1 x.2 stream
        (r.1 ++ q.1, q.2)) ([], s)

/-- A write of output bytes by the unit: what falls on the ports of a stream queue is dropped and logged (R321). -/
def State.muWrite (s : State) (l : CoreId) (p a : Nat) (bs : List Byte) : State :=
  match s.muPieces l p a bs.length with
  | none => s
  | some ps =>
    (ps.foldl (fun (q : List Byte × State) x =>
      (q.1.drop x.2, match windowOf x.1 with
        | some (k, off) => q.2.writeWindow (.mu l) k off (q.1.take x.2)
        | none => q.2.writeMem (.mu l) x.1 (q.1.take x.2))) (bs, s)).2

/-- The value of a matrix element (Table 6.2): an MXINT8 element is q × 2^−6. -/
def mmaElem (tbl : Nat → Byte) (fmt : Nat) (sc : Bool) (w : Nat) : Val :=
  let v := elemVal tbl fmt w
  if fmt = 8 && sc then v.scale (-6) else v

/-- An operand as the unit reads it: its element format, table, address, stride and scales. -/
structure MuOperand where
  fmt : Nat
  sc : Bool
  tbl : Nat
  addr : Nat
  stride : Nat
  scales : Nat

def opndA (d : Desc) : MuOperand :=
  { fmt := d.fmtA, sc := d.scA, tbl := d.tblA, addr := d.fld 72 8, stride := d.fld 112 2 * 16, scales := d.fld 96 8 }
def opndB (d : Desc) : MuOperand :=
  { fmt := d.fmtB, sc := d.scB, tbl := d.tblB, addr := d.fld 80 8, stride := d.fld 114 2 * 16, scales := d.fld 104 8 }

/-- Bytes of `n` elements of the operand. -/
def MuOperand.rowBytes (o : MuOperand) (n : Nat) : Nat := n * mmaWidth o.fmt / 8

/-- The element codes of row `i` of A, or of column `i` of B, over `n` elements from `k0` (Table 7.3, R164). -/
def State.muCodes (s : State) (l : CoreId) (p : Nat) (o : MuOperand) (i k0 n : Nat) (stream : Bool) : List Nat × State :=
  let w := mmaWidth o.fmt
  let r := s.muRead l p (o.addr + i * o.stride + o.rowBytes k0) (o.rowBytes n) stream
  let x := ofLe r.1
  ((List.range n).map fun t => x >>> (w * t) % 2 ^ w, r.2)

/-- The scale codes of row `i` for the blocks of 32 of those elements, of K elements in all; 127, the scale 1, where the operand has
none. -/
def State.muScales (s : State) (l : CoreId) (p : Nat) (o : MuOperand) (i k k0 n : Nat) (stream : Bool) : List Nat × State :=
  if o.sc then
    let r := s.muRead l p (o.scales + i * (k / 32) + k0 / 32) (n / 32) stream
    (r.1.map (·.toNat), r.2)
  else (List.replicate (n / 32) 127, s)

/-- The ranges that those reads cover, for rows `i0` to `i0 + m − 1`. -/
def MuOperand.reads (o : MuOperand) (i0 m k k0 n : Nat) : List (Nat × Nat) :=
  (List.range m).flatMap fun i =>
    (o.addr + (i0 + i) * o.stride + o.rowBytes k0, o.rowBytes n) ::
      (if o.sc then [(o.scales + (i0 + i) * (k / 32) + k0 / 32, n / 32)] else [])

/-! ### The canonical reduction order (R187, R169) -/

/-- A value and the invalid flag. -/
abbrev Acc := Val × Bool

/-- The exact sum of finite values; +0 where it is zero. -/
def exactSum (vs : List Val) : Val :=
  match vs.foldl (fun (a v : Val) => (a.add false v).1) (Val.fin false 0 0) with
  | .fin s m e => if m = 0 then .fin false 0 0 else .fin s m e
  | v => v

/-- Step 1: one K-block. Products are exact; an infinity times zero, or infinities of both signs, are invalid. Under scale 0xFF every
element is NaN (R163), which sets no flag. -/
def blockSum (ca cb : Nat) (as bs : List Val) : Acc :=
  let ps := List.zipWith Val.mul as bs
  let invalid := ps.any (·.2)
  let vs := ps.map (·.1)
  let neg := vs.any (· == .inf true)
  let pos := vs.any (· == .inf false)
  if ca = 255 ∨ cb = 255 then (.nan, false)
  else if vs.any Val.isNan then (.nan, invalid)
  else if neg && pos then (.nan, true)
  else if neg || pos then (.inf neg, invalid)
  else ((exactSum vs).scale ((ca : Int) + cb - 254) |>.rto80, invalid)

/-- An addition in XA96 with round-to-odd (R168, R169). -/
def xaAdd (a b : Acc) : Acc :=
  let r := a.1.add false b.1
  (r.1.rto80, a.2 || b.2 || r.2)

def xaZero : Acc := (.fin false 0 0, false)

/-- Step 2: the fixed tree over the eight K-blocks of a span. -/
def spanSum (q : List Acc) : Acc :=
  let p (i : Nat) : Acc := q.getD i xaZero
  xaAdd (xaAdd (xaAdd (p 0) (p 1)) (xaAdd (p 2) (p 3))) (xaAdd (xaAdd (p 4) (p 5)) (xaAdd (p 6) (p 7)))

/-- Step 3: the spans in ascending order. `fuel` bounds their number. -/
def spanChain : Nat → Acc → List Acc → Acc
  | 0, u, _ => u
  | fuel + 1, u, ps => if ps.isEmpty then u else spanChain fuel (xaAdd u (spanSum (ps.take 8))) (ps.drop 8)

/-- The blocks of a row and a column. -/
def blockSums (ca cb : List Nat) : Nat → List Val → List Val → List Acc
  | 0, _, _ => []
  | n + 1, as, bs =>
    blockSum (ca.headD 127) (cb.headD 127) (as.take 32) (bs.take 32) ::
      blockSums ca.tail cb.tail n (as.drop 32) (bs.drop 32)

/-- An output element before its rounding. -/
def reduceOrder (ps : List Acc) : Acc := spanChain ps.length (spanSum (ps.take 8)) (ps.drop 8)

/-- Output rounding by RND code (Table 7.4). -/
def rndCode (c : Nat) : Rnd :=
  match c with
  | 1 => .rz
  | 2 => .ru
  | 3 => .rd
  | 4 => .rto
  | _ => .rne

/-- A rounded output: the unit never produces −0 (R187). -/
def drainFloat (t : Fmt) (n : Nat) (m : Rnd) (v : Val) : List Byte × Nat :=
  let r := t.round m v
  (leBytes n (if r.1 = t.signed true 0 then 0 else r.1), r.2)

/-- Step 4: the output element's bytes, and its flags (R177). -/
def drainElem (ofmt : Nat) (m : Rnd) (v : Val) : List Byte × Nat :=
  match ofmt with
  | 0 => drainFloat fp32 4 m v
  | 1 => drainFloat fp16 2 m v
  | 2 => drainFloat bf16 2 m v
  | _ => (leBytes 16 v.xa96, 0)

/-! ### Passes, generations and drains -/

/-- Passes of a plan. -/
def MuRun.passes (r : MuRun) : Nat := r.rowChunks * r.colChunks * r.spans
def MuRun.pairs (r : MuRun) : Nat := r.rowChunks * r.colChunks

/-- Generations alive in the two banks. -/
def MU.live (u : MU) : Nat := (if u.bankA.isSome then 1 else 0) + (if u.bankB.isSome then 1 else 0)

/-- First row and column, and their numbers, of a pair of a plan. -/
def MuRun.pairBox (r : MuRun) (d : Desc) (pair : Nat) : Nat × Nat × Nat × Nat :=
  let m0 := pair / r.colChunks * r.mp
  let n0 := pair % r.colChunks * r.nc
  (m0, min r.mp (d.mmaM - m0), n0, min r.nc (d.mmaN - n0))

/-- The K-span of a pass: its first element, and their number. -/
def MuRun.spanOf (r : MuRun) (d : Desc) (pass : Nat) : Nat × Nat :=
  let k0 := pass % r.spans * 256
  (k0, min 256 (d.mmaK - k0))

/-- The MMAs before one whose drains are not all visible yet. -/
def MU.before (u : MU) (acc : Nat) : List MuRun := u.runs.takeWhile fun r => r.acc != acc

/-- An access of the unit stalls at the boundary of its target (R366). -/
def State.muStalls (s : State) (l : Nat) (ranges : List (Nat × Nat)) : Bool :=
  match s.partOf l with
  | none => false
  | some p => ranges.any fun x =>
      match s.muPieces l p x.1 x.2 with
      | none => false
      | some ps => ps.any fun y => s.targetStalls y.1 y.2

/-- A read stalls, or overlaps the D range of an earlier MMA that is not yet visible (R184). -/
def State.muBlocked (s : State) (l acc : Nat) (reads : List (Nat × Nat)) : Bool :=
  s.muStalls l reads || ((s.core l).mu.before acc).any fun r =>
    match s.entry l 1 r.acc with
    | none => false
    | some e => (e.desc.mmaRanges.filter (·.wr)).any fun w =>
        reads.any fun x => decide (x.1 < w.start + w.len) && decide (w.start < x.1 + x.2)

/-- Bubbles that the unit inserts (R189). How many depends on timing alone: a free number (log entry 22). -/
def State.takeBubbles (s : State) (l : Nat) : State :=
  (s.addCount .CORE_MU_BUBBLE_LO (s.physOf l) 0 (Config.freeNat s.freeCtr)).nextFree

/-! ### Cubes and stationary banks (R180, R193) -/

/-- The cubes that a map has marked failed, and those that work. -/
def State.workingList (s : State) (k : Nat) : List Nat :=
  (List.range 9).filter fun c => !(s.reg .CORE_MU_CUBES k).getLsbD (16 + c)

/-- Working cubes of a physical core. -/
def State.workingCubes (s : State) (k : Nat) : Nat := (s.workingList k).length

/-- The physical cubes at the chain positions, in ascending index, skipping the spare and every failed cube (R193); the spare takes a
failed cube's place (R195). -/
def State.cubesInUse (s : State) (k : Nat) : List Nat :=
  let w := s.workingList k
  let u := w.filter fun c => c != s.field .CORE_MU_CUBES k 0 3 0
  if 8 ≤ u.length then u.take 8 else w

/-- Where the cell of tile row `i` and K-block `b` stands, as a place among the cubes in use: chain i ÷ 8Q, which holds 8Q successive
rows, at position b mod C; in broadcast mode the cubes take the cells in turn (DESIGN CHOICE, log entry 94). -/
def MuRun.position (r : MuRun) (n i b : Nat) : Nat :=
  if r.broadcast then (i + b) % n
  else
    let c := 8 / arrRows r.arr
    i / (8 * r.q) * c + b % c

/-- A cell put into its cube. -/
def putCell (m : SMap (List MuCell)) (cube : Nat) (x : MuCell) : SMap (List MuCell) := SMap.set [] m cube (SMap.get [] m cube ++ [x])

/-- The stationary tile of the next pass, read and laid out on the cubes. -/
def State.readTile (s : State) (l : CoreId) (p : Nat) (d : Desc) (r : MuRun) : SMap (List MuCell) × State :=
  let box := r.pairBox d (r.pass / r.spans)
  let ks := r.spanOf d r.pass
  let cubes := s.cubesInUse (s.physOf l)
  (List.range box.2.1).foldl (fun (q : SMap (List MuCell) × State) i =>
    let x := q.2.muCodes l p (opndA d) (box.1 + i) ks.1 ks.2 false
    let y := x.2.muScales l p (opndA d) (box.1 + i) d.mmaK ks.1 ks.2 false
    ((List.range (ks.2 / 32)).foldl (fun m b =>
      putCell m (cubes.getD (r.position cubes.length i b) 0)
        { row := box.1 + i, block := b, elems := (x.1.drop (32 * b)).take 32, scale := y.1.getD b 127 }) q.1, y.2)) ([], s)

/-- The cell of a tile row and K-block. -/
def MuBank.cell (x : MuBank) (row block : Nat) : Option MuCell :=
  x.cubes.findSome? fun e => e.2.find? fun c => c.row == row && c.block == block

/-- The unit starts no further pass: a damper stop, or a mode change that it has not applied, waits for the pass boundary (R197,
R369). -/
def State.passHeld (s : State) (l : CoreId) : Bool :=
  s.damperActive || (match s.partOf l with
    | none => false
    | some p => (s.reg .MOD_MODE_CTRL p).getLsbD 30 && !(s.part p).modeUnits.contains (modeKey p (.mu l)))

/-- MU_STATIONARY_LOAD (R188, R192): the tile of the next pass goes into the idle bank, tagged one more than the previous pass; with
both banks in use the load waits for a drain fence, and it is held while the tile overlaps an output not yet visible (R184). The
pass's weights follow it, with bubbles where their feeder has none ready. -/
def execMuStationaryLoad (l : CoreId) (s : State) : Res :=
  let u := (s.core l).mu
  match u.runs.find? fun r => decide (r.pass < r.passes), s.partOf l with
  | some r, some p =>
    match s.entry l 1 r.acc with
    | none => .next s
    | some e =>
      let box := r.pairBox e.desc (r.pass / r.spans)
      let ks := r.spanOf e.desc r.pass
      if u.stopped || s.fenced l || s.passHeld l then .next s
      else if s.muBlocked l r.acc ((opndA e.desc).reads box.1 box.2.1 e.desc.mmaK ks.1 ks.2) then .next s
      else if u.live = 2 then .next (s.modMU l fun u => { u with loadStall := true })
      else
        let g := (u.gen + 1) % 8
        let q := s.readTile l p e.desc r
        let x : MuBank := { gen := g, acc := r.acc, pass := r.pass, arr := r.arr, q := r.q, cubes := q.1 }
        let dry := decide (Config.freeNat q.2.freeCtr ≠ 0)
        .next ((q.2.takeBubbles l).modMU l fun u =>
          let u := if u.bankA.isNone then { u with bankA := some x } else { u with bankB := some x }
          { u with gen := g, loadStall := false, feedStall := dry
                   runs := u.runs.map fun y => if y.acc = r.acc then { y with pass := r.pass + 1 } else y })
  | _, _ => .next s

/-! ### The accumulation buffer (R190) -/

/-- One span of an output element (R187): the blocks of a row's cells against those of a column. -/
def spanOf (fa fb : Nat → Val) (cells : List (Option MuCell)) (codes scales : List Nat) : Acc :=
  spanSum (cells.zipIdx.map fun x =>
    match x.1 with
    | none => xaZero
    | some c => blockSum c.scale (scales.getD x.2 127) (c.elems.map fa) (((codes.drop (32 * x.2)).take 32).map fb))

/-- An entry of the accumulation buffer after a pass: T_0 in a pair's first span, T_s added in each later one; and the invalid
flag. -/
def accumulate (first : Bool) (old : BitVec 96) (t : Acc) : BitVec 96 × Bool :=
  let r := if first then t else xaAdd (Val.ofXa96 old.toNat, false) t
  (BitVec.ofNat 96 r.1.xa96, r.2)

/-- The pass of a bank multiplied: each weight block meets the cells of its tag (R188), and each entry of the pair takes its span. -/
def State.multiply (s : State) (l : CoreId) (p : Nat) (d : Desc) (r : MuRun) (x : MuBank) : SMap (BitVec 96) × Nat × State :=
  let box := r.pairBox d (x.pass / r.spans)
  let ks := r.spanOf d x.pass
  let fa := mmaElem (s.p4Entry p d.tblA) d.fmtA d.scA
  let fb := mmaElem (s.p4Entry p d.tblB) d.fmtB d.scB
  (List.range box.2.2.2).foldl (fun (q : SMap (BitVec 96) × Nat × State) j =>
    let c := q.2.2.muCodes l p (opndB d) (box.2.2.1 + j) ks.1 ks.2 d.useStream
    let y := c.2.muScales l p (opndB d) (box.2.2.1 + j) d.mmaK ks.1 ks.2 d.useStream
    let t := (List.range box.2.1).foldl (fun (a : SMap (BitVec 96) × Nat) i =>
      let cells := (List.range (ks.2 / 32)).map fun b => x.cell (box.1 + i) b
      let e := accumulate (decide (ks.1 = 0)) (SMap.get 0 a.1 (i * r.nc + j)) (spanOf fa fb cells c.1 y.1)
      (SMap.set 0 a.1 (i * r.nc + j) e.1, a.2 ||| (if e.2 then flInvalid else 0))) (q.1, q.2.1)
    (t.1, t.2, y.2)) ((s.core l).mu.accum, 0, s)

/-- The full-rate cycles of a pass, in thousandths: the term of mma_cycles (R186), or a quarter of the broadcast-mode cycles (R195,
R346). -/
def MuRun.passCycles (r : MuRun) (d : Desc) (pass : Nat) : Nat :=
  let box := r.pairBox d (pass / r.spans)
  let kb := (r.spanOf d pass).2 / 32
  let cls := widthClass d.fmtA
  if r.broadcast then 250 * ceilDiv (r.mp * r.nc * kb) (16 * (if cls = 2 then 1 else if cls = 1 then 2 else 4))
  else 1000 * (ceilDiv box.2.2.2 8 * ceilDiv kb (8 / arrRows r.arr) * (32 / cubeDepth cls) * r.q)

/-- An output that the drain has not read stands before the first pass of a pair: of an earlier pair, or of an earlier MMA (R190). -/
def MU.undrained (u : MU) (r : MuRun) (x : MuBank) : Bool :=
  decide (x.pass % r.spans = 0) && (decide (r.closed < x.pass / r.spans) || !(u.before r.acc).isEmpty)

/-- MU_DRAIN_FENCE (R188 to R190): the last weight block of the older generation leaves the chain: its pass has gone through the
array, and its bank becomes idle. While its weights overlap an output not yet visible (R184), or its first entry is not yet drained,
the array takes bubbles instead. -/
def execMuDrainFence (l : CoreId) (s : State) : Res :=
  let u := (s.core l).mu
  match u.oldest, s.partOf l with
  | some x, some p =>
    match u.runs.find? fun r => r.acc == x.acc, s.entry l 1 x.acc with
    | some r, some e =>
      let box := r.pairBox e.desc (x.pass / r.spans)
      let ks := r.spanOf e.desc x.pass
      if s.fenced l then .next s
      else if s.muBlocked l x.acc ((opndB e.desc).reads box.2.2.1 box.2.2.2 e.desc.mmaK ks.1 ks.2) then
        .next ((s.takeBubbles l).modMU l fun u => { u with feedStall := true })
      else if u.undrained r x then .next ((s.takeBubbles l).modMU l fun u => { u with drainStall := true })
      else
        let q := s.multiply l p e.desc r x
        .next ((q.2.2.modCore l fun c => { c with nominal := SMap.set 0 c.nominal 2 (SMap.get 0 c.nominal 2 + r.passCycles e.desc x.pass) }).modMU
          l fun u =>
            let u := if u.bankA = some x then { u with bankA := none } else { u with bankB := none }
            { u with accum := q.1, loadStall := false, drainStall := false, feedStall := false, lastArr := x.arr, lastQ := x.q
                     runs := u.runs.map fun y =>
                       if y.acc = x.acc then { y with passed := y.passed + 1, flags := y.flags ||| q.2.1 } else y })
    | _, _ => .next s
  | _, _ => .next s

/-! ### Drains (R190, R191) -/

/-- The outputs of row `i` of a pair, rounded (R187 step 4). -/
def drainRow (d : Desc) (r : MuRun) (accum : SMap (BitVec 96)) (cols i : Nat) : List (List Byte × Nat) :=
  (List.range cols).map fun j => drainElem d.ofmt (rndCode d.rndCode) (Val.ofXa96 (SMap.get 0 accum (i * r.nc + j)).toNat)

/-- The ranges of D that a pair writes, one for each of its rows. -/
def pairWrites (d : Desc) (box : Nat × Nat × Nat × Nat) : List (Nat × Nat) :=
  (List.range box.2.1).map fun i =>
    (d.fld 88 8 + (box.1 + i) * (d.fld 116 2 * 16) + box.2.2.1 * outBytes d.ofmt, box.2.2.2 * outBytes d.ofmt)

/-- The entries of a pair written to D in row-major order, with the flags of the outputs. -/
def State.drainPair (s : State) (l : CoreId) (p : Nat) (d : Desc) (r : MuRun) (box : Nat × Nat × Nat × Nat) : State × Nat :=
  (List.range box.2.1).foldl (fun (q : State × Nat) i =>
    let outs := drainRow d r (s.core l).mu.accum box.2.2.2 i
    let a := d.fld 88 8 + (box.1 + i) * (d.fld 116 2 * 16) + box.2.2.1 * outBytes d.ofmt
    (q.1.muWrite l p a (outs.flatMap (·.1)), q.2 ||| orFlags (outs.map (·.2)))) (s, 0)

/-- MU_PAIR_CLOSE (R190, R191): the last span pass of the next pair has left the array, and the pair's entries are
rounded and written to D. After the last pair every output is visible, and the MMA is complete. -/
def execMuPairClose (l : CoreId) (s : State) : Res :=
  match (s.core l).mu.runs, s.partOf l with
  | r :: rest, some p =>
    match s.entry l 1 r.acc with
    | none => .next s
    | some e =>
      if s.fenced l || decide (r.passed < (r.closed + 1) * r.spans) || s.muStalls l (pairWrites e.desc (r.pairBox e.desc r.closed)) then
        .next s
      else
        let q := s.drainPair l p e.desc r (r.pairBox e.desc r.closed)
        let r' := { r with closed := r.closed + 1, flags := r.flags ||| q.2 }
        let s := q.1.modMU l fun u => { u with accum := [], drainStall := false }
        if r'.closed < r.pairs then .next (s.modMU l fun u => { u with runs := r' :: rest })
        else
          .next ((s.modMU l fun u => { u with runs := rest, pendFlags := SMap.set 0 u.pendFlags r.acc r'.flags }).modEntry
            l 1 r.acc fun x => { x with done := true })
  | _, _ => .next s

/-! ### Cubes (R193 to R195) -/

/-- MODE as the working cubes give it (R195). A test slice keeps its own mode. -/
def State.setMuMode (s : State) (k : Nat) : State :=
  let n := s.workingCubes k
  if s.field .CORE_MU_CUBES k 0 31 30 = 2 then s
  else s.setField .CORE_MU_CUBES k 0 31 30 (if 8 ≤ n then 0 else if 2 ≤ n then 1 else 3)

/-- The array is emptied: every pass in it and its accumulator entries are discarded. -/
def MU.emptied (u : MU) : MU :=
  { u with bankA := none, bankB := none, accum := [], loadStall := false, drainStall := false, feedStall := false }

/-- The instructions in the array restart from their first passes under the cubes in use now (R194). -/
def State.restartMma (s : State) (l : Nat) : State :=
  s.modMU l fun u =>
    { u.emptied with
      runs := u.runs.map fun r =>
        match s.entry l 1 r.acc with
        | none => r
        | some e => s.planMma l r.acc e.desc }

end Sys2Proof.Machine
end

