-- ==== Sys2Proof/Machine/ThreadMem.lean ====
section
/-!
DEFINITION. Memory access, atomic, prefetch and fence thread instructions (Table 5.10, R117 to R122, R146 to R152, R158).
-/

namespace Sys2Proof.Machine

open Sys2Proof

/-- The lanes that access memory: one for an instruction with a uniform destination. -/
def accessLanes (w : TWord) (g : Group) : List Nat := if w.ud then (w.acting g).take 1 else w.acting g

/-- The lowest lane that faults, with its code and address (R158). -/
def firstFault (lanes : List Nat) (f : Nat → Option (Nat × Nat)) : Option (Nat × Nat × Nat) :=
  lanes.findSome? fun k => (f k).map fun x => (k, x.1, x.2)

/-- The fault of a local access of `n` bytes: misaligned, or beyond the block's allocation (R117, R146). -/
def localFault (b : Block) (a n : Nat) : Option (Nat × Nat) :=
  if a % n ≠ 0 then some (4, a) else if b.lmSize < a + n then some (3, a) else none

/-- Where a block's local address lies in memory. -/
def blockAddr (l : Nat) (b : Block) (a : Nat) : Nat := localAddr l (b.lmBase + a)

/-! ### Local memory -/

/-- LDL (R146). -/
def execLdl (l : CoreId) (gi : GroupId) (w : TWord) (s : State) : Res :=
  s.threadIssue 0x140 l gi w fun s g b =>
    let width := w.opxBits 2 0
    let n := memBytes width
    let lanes := accessLanes w g
    match firstFault lanes fun k => localFault b (w.addrL g k) n with
    | some (k, code, a) => .next (s.groupFault l gi g b code k a)
    | none =>
      let g' := lanes.foldl (fun g' k => w.putLoad width k (s.bytes (blockAddr l b (w.addrL g k)) n) g') g
      .next ((s.finish l gi w g').countLocal (.ve l) l (lanes.length * n) false)

/-- STL (R120, R146): where lanes meet, the highest-numbered one's bytes stay. -/
def execStl (l : CoreId) (gi : GroupId) (w : TWord) (s : State) : Res :=
  s.threadIssue 0x141 l gi w fun s g b =>
    let width := w.opxBits 2 0
    let n := memBytes width
    let lanes := w.acting g
    match firstFault lanes fun k => localFault b (w.addrL g k) n with
    | some (k, code, a) => .next (s.groupFault l gi g b code k a)
    | none =>
      let s' := lanes.foldl (fun s k => s.store (blockAddr l b (w.addrL g k)) (w.storeBytes g width k)) s
      .next ((s'.finish l gi w g).countLocal (.ve l) l (lanes.length * n) true)

/-- The old values that atomics returned, written to the destination. -/
def putOlds (w : TWord) (wide : Bool) (olds : List (Nat × W64)) (g : Group) : Group :=
  w.writeD wide (olds.map (·.1)) (fun k => ((olds.find? fun x => x.1 == k).map (·.2)).getD 0) g

/-- ATOML (R150, R151): the acting lanes in ascending order. -/
def execAtoml (l : CoreId) (gi : GroupId) (w : TWord) (s : State) : Res :=
  s.threadIssue 0x142 l gi w fun s g b =>
    let code := w.opxBits 3 0
    let wide := atomLong code
    let n := memOpBytes code
    let lanes := accessLanes w g
    let addr (k : Nat) : Nat := (w.valA g false k).toNat
    match firstFault lanes fun k => localFault b (addr k) n with
    | some (k, c, a) => .next (s.groupFault l gi g b c k a)
    | none =>
      let r := lanes.foldl (fun (r : State × List (Nat × W64)) k =>
        let a := blockAddr l b (addr k)
        let old : W64 := BitVec.ofNat 64 (r.1.load a n)
        let new := memOpNew code (w.opx.getLsbD 4) old (w.valB g wide k) (w.valC g wide k)
        (if code < 14 then r.1.store a (leBytes n new.toNat) else r.1, r.2 ++ [(k, old)])) (s, [])
      .next ((r.1.finish l gi w (putOlds w wide r.2 g)).countLocal (.ve l) l (lanes.length * n) true)

/-- The elements that lane `k` of register `r` of a fragment holds, as (row, column) (Table 4.10). -/
def fragElems (layout r k : Nat) : List (Nat × Nat) :=
  match layout with
  | 0 => [(r, k)]
  | 1 => [(k, r)]
  | 2 => [(r, 2 * k), (r, 2 * k + 1)]
  | 3 => [(4 * r + k / 8, k % 8)]
  | _ => [(0, 4 * k + r)]
/-- Bytes of an element of a layout (R148). -/
def fragSize (layout : Nat) : Nat := if layout = 2 then 2 else 4

/-- The local addresses of the elements of a register in a lane (R148). -/
def fragAddrs (layout base stride r k : Nat) : List Nat :=
  (fragElems layout r k).map fun (row, col) => (base + row * stride + col * fragSize layout) % 2 ^ 32

/-- The first fault of a lane over all registers of a fragment. -/
def fragFault (b : Block) (layout base stride k : Nat) : Option (Nat × Nat) :=
  (List.range (fragRegs layout)).findSome? fun r =>
    (fragAddrs layout base stride r k).findSome? fun a => localFault b a (fragSize layout)

/-- LDF (R148). -/
def execLdf (l : CoreId) (gi : GroupId) (w : TWord) (s : State) : Res :=
  s.threadIssue 0x143 l gi w fun s g b =>
    let layout := w.opxBits 2 0
    let base := (w.valA g false 0).toNat
    let stride := (w.valC g false 0).toNat
    let lanes := w.acting g
    match firstFault lanes fun k => fragFault b layout base stride k with
    | some (k, code, a) => .next (s.groupFault l gi g b code k a)
    | none =>
      let g' := (List.range (fragRegs layout)).foldl (fun g' r => lanes.foldl (fun (g' : Group) k =>
        let bs := (fragAddrs layout base stride r k).flatMap fun a => s.bytes (blockAddr l b a) (fragSize layout)
        g'.putV (w.dst.toNat + r) k (BitVec.ofNat 32 (ofLe bs))) g') g
      .next ((s.finish l gi w g').countLocal (.ve l) l (4 * lanes.length * fragRegs layout) false)

/-- STF (R120, R148): lane by lane, in each register by register, so that where lanes meet the highest one's bytes stay. -/
def execStf (l : CoreId) (gi : GroupId) (w : TWord) (s : State) : Res :=
  s.threadIssue 0x144 l gi w fun s g b =>
    let layout := w.opxBits 2 0
    let base := (w.valA g false 0).toNat
    let stride := (w.valB g false 0).toNat
    let lanes := w.acting g
    match firstFault lanes fun k => fragFault b layout base stride k with
    | some (k, code, a) => .next (s.groupFault l gi g b code k a)
    | none =>
      let sz := fragSize layout
      let s' := lanes.foldl (fun s k => (List.range (fragRegs layout)).foldl (fun (s : State) r =>
        let v := leBytes 4 (g.vreg (w.srcC.toNat + r) k).toNat
        (fragAddrs layout base stride r k).zipIdx.foldl (fun (s : State) (a, i) =>
          s.store (blockAddr l b a) ((v.drop (sz * i)).take sz)) s) s) s
      .next ((s'.finish l gi w g).countLocal (.ve l) l (4 * lanes.length * fragRegs layout) true)

/-! ### Windows (R149) -/

/-- The window that an access of `n` bytes by a unit of core `l` reaches: a logical core of the partition, below its local
memory in force. -/
def State.windowFor (s : State) (l a n : Nat) : Option (Nat × Nat) :=
  match windowOf a with
  | none => none
  | some (k, off) =>
    if decide (off + n ≤ s.lmSize k) && decide (s.partOf k = s.partOf l) && (s.partOf l).isSome then some (k, off) else none

def State.windowFault (s : State) (l a n : Nat) : Option (Nat × Nat) :=
  if a % n ≠ 0 then some (4, a) else if (s.windowFor l a n).isNone then some (3, a) else none

def State.lanesStall (s : State) (lanes : List Nat) (addr : Nat → Nat) : Bool :=
  lanes.any fun k => match windowOf (addr k) with
    | some (c, _) => s.fenced c
    | none => false

def State.countWindows (s : State) (l : CoreId) (lanes : List Nat) (addr : Nat → Nat) (n : Nat) (write : Bool) : State :=
  lanes.foldl (fun s k => match windowOf (addr k) with
    | some (c, _) => s.countLocal (.ve l) c n write
    | none => s) s

/-- Bytes at a window address, stream-queue regions as R322 says. -/
def State.windowRead (s : State) (a n : Nat) : List Byte :=
  match windowOf a with
  | some (k, off) => s.windowBytes k off n
  | none => s.bytes a n

/-- Bytes written at a window address, as (core, offset, byte). -/
def windowWrites (a : Nat) (bs : List Byte) : List (Nat × Nat × Byte) :=
  match windowOf a with
  | some (k, off) => bs.zipIdx.map fun (b, i) => (k, off + i, b)
  | none => []

/-- LDW (R149). -/
def execLdw (l : CoreId) (gi : GroupId) (w : TWord) (s₀ : State) : Res :=
  s₀.threadIssue 0x184 l gi w fun s g b =>
    let width := w.opxBits 2 0
    let n := memBytes width
    let lanes := accessLanes w g
    match firstFault lanes fun k => s.windowFault l (w.addrG g k) n with
    | some (k, code, a) => .next (s.groupFault l gi g b code k a)
    | none =>
      if s.lanesStall lanes (w.addrG g) then .next s₀
      else
        let g' := lanes.foldl (fun g' k => w.putLoad width k (s.windowRead (w.addrG g k) n) g') g
        .next ((s.finish l gi w g').countWindows l lanes (w.addrG g) n false)

/-- STW (R149, R321): a store into a stream queue's window is a push, which may wait for a slot. -/
def execStw (l : CoreId) (gi : GroupId) (w : TWord) (s₀ : State) : Res :=
  s₀.threadIssue 0x185 l gi w fun s g b =>
    let width := w.opxBits 2 0
    let n := memBytes width
    let lanes := w.acting g
    match firstFault lanes fun k => s.windowFault l (w.addrG g k) n with
    | some (k, code, a) => .next (s.groupFault l gi g b code k a)
    | none =>
      if s.lanesStall lanes (w.addrG g) then .next s₀
      else
        let ws := lanes.flatMap fun k => windowWrites (w.addrG g k) (w.storeBytes g width k)
        match s₀.windowWrite l false (.block g.block) ws with
        | .inl s' => .next s'
        | .inr s' => .next (((s'.countIssue l g).finish l gi w g).countWindows l lanes (w.addrG g) n true)

/-! ### Global memory (R118, R121, R122) -/

/-- The fault of a global access: misaligned, outside the pinned-window map, or outside the span's arenas. `here`: the
target must be memory of this module. -/
def State.globalFault (s : State) (l : Nat) (b : Block) (a n : Nat) (wr here : Bool) : Option (Nat × Nat) :=
  if a % n ≠ 0 then some (4, a)
  else
    match s.partOf l with
    | none => some (1, a)
    | some p =>
      match s.pinnedPieces p a n with
      | none => some (1, a)
      | some ps =>
        if ps.any fun x => match s.remoteOf x.1 with
            | some _ => here
            | none => !s.isMemoryRange x.1 x.2 then some (1, a)
        else
          match (s.spanMasks l p b.span.toNat).1 with
          | none => some (2, a)
          | some (i, o) =>
            if inArenas (s.core l).arenas (if wr then o else i ||| o) 255 a n then none else some (2, a)

/-- The global access of some lane stalls at the boundary of its home's domain (R366). -/
def State.globalStalls (s : State) (l : Nat) (lanes : List Nat) (addr : Nat → Nat) (n : Nat) : Bool :=
  match s.partOf l with
  | none => false
  | some p => lanes.any fun k =>
      match s.pinnedPieces p (addr k) n with
      | none => false
      | some ps => s.piecesAsleep ps

/-- Outstanding line misses that a core tracks (R121). -/
def missDepth : Nat := 64

/-- What one lane's load finds. -/
inductive LaneRead where
  | data (bs : List Byte)
  | miss (line : Nat)
  /-- nothing yet: no miss is free, or the home's domain is not ON -/
  | full
  | remote (tag : Nat)
  | refused

/-- One lane's global load (R121, R122): bytes that came for it before, an L1 line, or the memory system. -/
def State.laneRead (s : State) (l : CoreId) (gi p : Nat) (g : Group) (byp : Bool) (a n : Nat) : LaneRead × State :=
  let line := a / 128
  let key := a * 32 + n
  let held := SMap.get [] g.fills key
  let got := SMap.get [] g.fills (lineKey line)
  if !held.isEmpty then (.data held, s)
  else if !byp && decide (s.l1Sets l ≠ 0) then
    match (s.core l).ve.l1.find? fun x => x.line == line with
    | some x => (.data (((leBytes 128 x.data.toNat).drop (a % 128)).take n), s.l1Place l x)
    | none =>
      if !got.isEmpty then (.data ((got.drop (a % 128)).take n), s)
      else if !(SMap.get [] g.fills (refusedKey line)).isEmpty then (.refused, s)
      else if (s.core l).ve.misses.contains line then (.miss line, s)
      else if missDepth ≤ (s.core l).ve.misses.length then (.full, s)
      else (.miss line, s.modVE l fun v => { v with misses := v.misses ++ [line] })
  else
    match s.pinnedPieces p a n with
    | none => (.refused, s)
    | some ps =>
      if s.piecesAsleep ps then (.full, s)
      else
        let r := s.vePieces l (some gi) ps
        match r.1 with
        | .data bs => (.data bs, r.2)
        | .waiting tag => (.remote tag, r.2)
        | .refused _ => (.refused, r.2)

/-- The key of a group's wait for a READ_DATA. -/
def remoteKey (tag : Nat) : Nat := 2 ^ 60 + tag

/-- How far a load has come: every lane's bytes, or what it waits for. Bytes that have come are kept in the group. -/
inductive LoadRead where
  | all (bs : List (Nat × List Byte))
  | wait (line : Nat)
  | full
  | refused (lane a : Nat)

/-- The lanes of a load in order. -/
def State.lanesRead (s : State) (l : CoreId) (gi p : Nat) (byp : Bool) (n : Nat) (addr : Nat → Nat) :
    List Nat → Group → LoadRead × Group × State
  | [], g => (.all [], g, s)
  | k :: rest, g =>
    let r := s.laneRead l gi p g byp (addr k) n
    match r.1 with
    | .miss line => (.wait line, g, r.2)
    | .full => (.full, g, r.2)
    | .remote tag => (.wait (remoteKey tag), g, r.2)
    | .refused => (.refused k (addr k), g, r.2)
    | .data bs =>
      let g := if byp || decide (s.l1Sets l = 0) then { g with fills := SMap.set [] g.fills (addr k * 32 + n) bs } else g
      let q := r.2.lanesRead l gi p byp n addr rest g
      match q.1 with
      | .all t => (.all ((k, bs) :: t), q.2)
      | other => (other, q.2)

/-- LDG (R118, R121, R122, R146). A load that misses, or that waits for another module, is issued again when its line or
data has come; a refusal by the other module is fault 1 (R303). -/
def execLdg (l : CoreId) (gi : GroupId) (w : TWord) (s₀ : State) : Res :=
  s₀.threadIssue 0x180 l gi w fun s g b =>
    let width := w.opxBits 2 0
    let n := memBytes width
    let lanes := accessLanes w g
    match firstFault lanes fun k => s.globalFault l b (w.addrG g k) n false false with
    | some (k, code, a) => .next (s.groupFault l gi g b code k a)
    | none =>
      let r := s.lanesRead l gi ((s.partOf l).getD 16) (w.opx.getLsbD 3) n (w.addrG g) lanes g
      match r.1 with
      | .refused k a => .next (r.2.2.groupFault l gi g b 1 k a)
      | .wait line => .next (r.2.2.setGroup l gi (some { r.2.1 with status := .missed line }))
      | .full => .next s₀
      | .all bs => .next (r.2.2.finish l gi w (bs.foldl (fun g' x => w.putLoad width x.1 x.2 g') g))

/-- The refusal of a store that has retired is recorded (R303). -/
def State.refusedStore (s : State) (l a n : Nat) : State :=
  s.ashNow (s.srcCore l 1) 0x14 0 ((s.partOf l).getD 0xFF) 0 l 0 a n 1

/-- A store to another module (R300, R304): the WRITE counts as outstanding for its group and its block until it is
acknowledged or refused. -/
def State.remoteStore (s : State) (l : CoreId) (gi r : Nat) (m a : Nat) (bs : List Byte) : State :=
  let q := s.request (.ve l) (some (gi + 64 * (r + 1))) m opWrite a bs.length bs
  let s := q.2.addCount .CORE_CNT_LO (s.physOf l) 6 bs.length
  match SMap.get none s.remotes q.1 with
  | some x =>
    if x.refused.isSome then (s.dropRemote q.1).refusedStore l a bs.length
    else
      (s.modGroup l gi fun g => { g with remoteWrites := g.remoteWrites + 1 }).modBlock (l / 8) r fun b =>
        { b with remoteWrites := b.remoteWrites + 1 }
  | none => s

/-- Bytes written through to a line that the L1 holds (R121). -/
def State.l1Update (s : State) (l a : Nat) (bs : List Byte) : State :=
  s.modVE l fun v => { v with l1 := v.l1.map fun x =>
    if x.line = a / 128 then
      let old := leBytes 128 x.data.toNat
      { x with data := BitVec.ofNat 1024 (ofLe (old.take (a % 128) ++ bs ++ old.drop (a % 128 + bs.length))) }
    else x }

/-- The pieces of one lane's store through the pinned map: targets with their bytes. -/
def State.lanePieces (s : State) (p a : Nat) (bs : List Byte) : List (Nat × List Byte) :=
  match s.pinnedPieces p a bs.length with
  | none => []
  | some ps => (ps.foldl (fun (q : List Byte × List (Nat × List Byte)) x => (q.1.drop x.2, q.2 ++ [(x.1, q.1.take x.2)])) (bs, [])).2

/-- One lane's store to memory of this module (R118, R121). -/
def State.laneStore (s : State) (l : CoreId) (p a : Nat) (bs : List Byte) : State :=
  (((s.lanePieces p a bs).filter fun x => (s.remoteOf x.1).isNone).foldl (fun s x => s.writeMem (.ve l) x.1 x.2) s).l1Update l a bs

/-- The bytes that the lanes of a store write in other modules, by target: where lanes meet, the highest one's stay (R147). -/
def State.farBytes (s : State) (p : Nat) (ws : List (Nat × List Byte)) : SMap (Option Byte) :=
  ws.foldl (fun m w =>
    ((s.lanePieces p w.1 w.2).filter fun x => (s.remoteOf x.1).isSome).foldl (fun m x =>
      x.2.zipIdx.foldl (fun m b => SMap.set none m (x.1 + b.2) (some b.1)) m) m) []

/-- Bytes by rising address, gathered into runs that lie in one 64-byte granule each. -/
def granuleRuns : SMap (Option Byte) → List (Nat × List Byte)
  | [] => []
  | (a, b) :: rest =>
    match granuleRuns rest with
    | (c, bs) :: more =>
      if c = a + 1 ∧ c % 64 ≠ 0 then (a, b.getD 0 :: bs) :: more else (a, [b.getD 0]) :: (c, bs) :: more
    | [] => [(a, [b.getD 0])]

/-- The stores of an instruction's lanes (R147): the bytes that go to one granule of another module travel in one WRITE; where they
leave gaps in it, in one for each run, since a WRITE moves one range (Table 12.5, log entry 92). -/
def State.storeLanes (s : State) (l : CoreId) (gi r p : Nat) (ws : List (Nat × List Byte)) : State :=
  let far := s.farBytes p ws
  let s := ws.foldl (fun s w => s.laneStore l p w.1 w.2) s
  (granuleRuns far).foldl (fun s x =>
    match s.remoteOf x.1 with
    | some m => s.remoteStore l gi r m (x.1 % 2 ^ 42) x.2
    | none => s) s

/-- STG (R118, R121, R146, R147). -/
def execStg (l : CoreId) (gi : GroupId) (w : TWord) (s₀ : State) : Res :=
  s₀.threadIssue 0x181 l gi w fun s g b =>
    let width := w.opxBits 2 0
    let n := memBytes width
    let lanes := w.acting g
    match firstFault lanes fun k => s.globalFault l b (w.addrG g k) n true false with
    | some (k, code, a) => .next (s.groupFault l gi g b code k a)
    | none =>
      if s.globalStalls l lanes (w.addrG g) n then .next s₀
      else
        let s' := s.storeLanes l gi g.block ((s.partOf l).getD 16) (lanes.map fun k => (w.addrG g k, w.storeBytes g width k))
        .next (s'.modGroup l gi fun x => x.advance w)

/-- One lane's ATOMG: performed at the home of the translated address (R150). -/
def State.laneAtomic (s : State) (l : CoreId) (p : Nat) (w : TWord) (g : Group) (b : Block) (k : Nat) : W64 × State :=
  let code := w.opxBits 3 0
  let wide := atomLong code
  let a := (w.valA g true k).toNat
  match s.pinnedLocal p a (memOpBytes code) with
  | some ((t, _) :: _) =>
    s.memSide (.ve l)
      { src := .atomic (groupStream b.core b.gen g.block g.gi) (g.atomN + 1) k (w.dst != 255)
        code := Fin.ofNat 16 code, sgn := w.opx.getLsbD 4, addr := t, operand := w.valB g wide k, cmp := w.valC g wide k }
  | _ => (0, s)

/-- ATOMG (R118, R150, R151, R340): the acting lanes in ascending order; the matching L1 lines become invalid (R122). -/
def execAtomg (l : CoreId) (gi : GroupId) (w : TWord) (s₀ : State) : Res :=
  s₀.threadIssue 0x182 l gi w fun s g b =>
    let code := w.opxBits 3 0
    let n := memOpBytes code
    let lanes := accessLanes w g
    let addr (k : Nat) : Nat := (w.valA g true k).toNat
    match firstFault lanes fun k => s.globalFault l b (addr k) n true true with
    | some (k, c, a) => .next (s.groupFault l gi g b c k a)
    | none =>
      if s.globalStalls l lanes addr n then .next s₀
      else
        let r := lanes.foldl (fun (r : State × List (Nat × W64)) k =>
          let q := r.1.laneAtomic l ((s.partOf l).getD 16) w g b k
          (q.2, r.2 ++ [(k, q.1)])) (s, [])
        let s' := r.1.modVE l fun v => { v with l1 := v.l1.filter fun x => !(lanes.any fun k => addr k / 128 == x.line) }
        let g' := { putOlds w (atomLong code) r.2 g with atomN := g.atomN + (if lanes.isEmpty then 0 else 1) }
        .next (s'.finish l gi w g')

/-- PREF (R121, R146): the lines of the acting lanes' addresses that translate are fetched; it never faults. A line is
not asked for twice, and with every miss in use the instruction waits. -/
def execPref (l : CoreId) (gi : GroupId) (w : TWord) (s₀ : State) : Res :=
  s₀.threadIssue 0x183 l gi w fun s g _ =>
    let lines := ((w.acting g).map fun k => w.addrG g k / 128).eraseDups.filter fun x =>
      (match s.partOf l with
       | none => false
       | some p => (s.pinnedPieces p (x * 128) 128).isSome) &&
      !((s.core l).ve.l1.any fun y => y.line == x) && !(s.core l).ve.misses.contains x
    if s.l1Sets l = 0 then .next (s.finish l gi w g)
    else if missDepth < (s.core l).ve.misses.length + lines.length ∧ (s.core l).ve.misses.length ≠ 0 then .next s₀
    else .next ((s.finish l gi w g).modVE l fun v => { v with misses := v.misses ++ lines })

/-- FENCE (R152): a group's accesses are performed in its program order here, so FENCE.B and FENCE.M hold at once;
FENCE.S waits until the group's stores to other modules are acknowledged (R304). -/
def execFence (l : CoreId) (gi : GroupId) (w : TWord) (s₀ : State) : Res :=
  s₀.threadIssue 0x2C0 l gi w fun s g _ =>
    if w.opxBits 1 0 = 2 ∧ g.remoteWrites ≠ 0 ∧ !(w.acting g).isEmpty then .next s₀
    else .next (s.finish l gi w g)

end Sys2Proof.Machine
end

