-- ==== Sys2Proof/Machine/Access.lean ====
section
/-!
DEFINITION. Accesses of engines to targets of this module: local memory through a window, or memory at its homes; and
the direct and pinned addresses of a partition (10.1, R250).
-/

namespace Sys2Proof.Machine

open Sys2Proof

/-- A target of this module that exists: memory that a home serves, or local memory in force behind a window. -/
def State.targetHere (s : State) (t n : Nat) : Bool :=
  match windowOf t with
  | some (k, off) => decide (off + n ≤ s.lmSize k)
  | none => s.isMemoryRange t n

def State.readTarget (s : State) (u : Unit) (t n : Nat) : List Byte × State :=
  match windowOf t with
  | some (k, off) => (s.windowBytes k off n, s.countLocal u k n false)
  | none => s.readMem u t n

def State.writeTarget (s : State) (u : Unit) (t : Nat) (bs : List Byte) : State :=
  match windowOf t with
  | some (k, off) => s.writeWindow u k off bs
  | none => s.writeMem u t bs

def State.readTargets (s : State) (u : Unit) (l : List (Nat × Nat)) : List Byte × State :=
  l.foldl (fun (r : List Byte × State) p =>
    let q := r.2.readTarget u p.1 p.2
    (r.1 ++ q.1, q.2)) ([], s)
def State.writeTargets (s : State) (u : Unit) (l : List (Nat × Nat)) (bs : List Byte) : State :=
  (l.foldl (fun (r : List Byte × State) p => (r.1.drop p.2, r.2.writeTarget u p.1 (r.1.take p.2))) (bs, s)).2

/-- The pieces of a partition range in this module: a window of one of the partition's cores, its scratchpad, or through
the pinned map; none where the range fails. -/
def State.partPieces (s : State) (p a n : Nat) : Option (List (Nat × Nat)) :=
  if (windowOf a).isSome then if s.ownsWindow p a n then some [(a, n)] else none
  else
    match s.pinnedLocal p a n with
    | none => none
    | some l => if l.all fun x => s.isMemoryRange x.1 x.2 then some l else none

end Sys2Proof.Machine
end

