-- ==== Sys2Proof/Machine/Host.lean ====
section
/-!
DEFINITION. The host functions' own parts (12.7): accesses that stall, doorbells, counter triggers, the MSI-X tables and function-level resets.
-/

namespace Sys2Proof

/-- The agent that a host function is (R380), and its number among the functions. -/
def HostFn.agent : HostFn → Agent
  | .pf0 => .pf0
  | .vf p => .vf p
def HostFn.number : HostFn → Nat
  | .pf0 => 0
  | .vf p => p + 1
/-- The partition of a host function as a record names it. -/
def HostFn.part : HostFn → Nat
  | .pf0 => 0xFF
  | .vf p => p
/-- The function that an agent is; none for those inside the module. -/
def Agent.hostFn : Agent → Option HostFn
  | .pf0 => some .pf0
  | .vf p => some (.vf p)
  | .cc _ => none
  | .stoker => none
  | .debug => none

end Sys2Proof

namespace Sys2Proof.Machine

open Sys2Proof

/-- The function is present (R313). -/
def State.present (s : State) : HostFn → Bool
  | .pf0 => true
  | .vf p => (s.partCfg p).any (·.vf)

/-! ### Doorbells and accesses that stall (R230, R315) -/

/-- A doorbell sends the signal that a DB_CFG word names; kinds 2 and 3 are ignored, and one that its partition may not name is
dropped and logged (R315, Table 12.12). -/
def State.ringSignal (s : State) (f : HostFn) (p d : Nat) (w : W32) (x : W64) : State :=
  let h := bitsOf w 23 0
  if 2 ≤ bitsOf w 25 24 then s
  else if decide (2 ≤ handleScope h) && s.validHandle p h then
    s.signalNow (s.unitSrc (.host f)) (counterOf 0 h) (kindOf (bitsOf w 25 24)) x
  else s.ashNow (s.unitSrc (.host f)) 0x14 0 p d

/-- A doorbell in flight uses the old value of its configuration or the new one: which is free. -/
def State.bellWord (s : State) (p d : Nat) (w : W32) : W32 × State :=
  if s.reg .DB_CFG p d = w then (w, s)
  else (if s.freeBelow 2 = 0 then w else s.reg .DB_CFG p d, s.nextFree)

/-- An access of a host function that may not be made (R314, R375): Unsupported Request for a read, an entry of the AER log, and a
record of kind 0x14. -/
def State.hostRefuse (s : State) (f : HostFn) (read : Bool) (a : Nat) : State :=
  let s := s.ashNow (s.unitSrc (.host f)) 0x14 0 f.part 0 0xFFFF 0 a
  let s := { s with hostLink := { s.hostLink with aer := s.hostLink.aer ++ [(f.number, read, a)] } }
  if read then s.toHost (.ur f.number) else s

/-- A target of the host is read: in this module, or with the data that another module has returned (R300); none where the read was
refused. -/
def State.hostTake (s : State) (f : HostFn) (x : Nat × Nat) : Option (List Byte) × State :=
  match s.remoteOf x.1 with
  | none =>
    let r := s.readTarget (.host f) x.1 x.2
    (some r.1, r.2)
  | some m =>
    match s.remoteRead (.host f) none m (x.1 % 2 ^ 42) x.2 with
    | (.data bs, s) => (some bs, s)
    | (_, s) => (none, s)

/-- The targets of a host read in their order; none where one was refused. -/
def State.hostTakeAll (s : State) (f : HostFn) (l : List (Nat × Nat)) : Option (List Byte) × State :=
  l.foldl (fun (r : Option (List Byte) × State) x =>
    let y := r.2.hostTake f x
    (r.1.bind fun a => y.1.map fun b => a ++ b, y.2)) (some [], s)

/-- The targets of a host write are written, those of another module by WRITE (R300). -/
def State.hostPut (s : State) (f : HostFn) (l : List (Nat × Nat)) (bs : List Byte) : State :=
  (l.foldl (fun (r : List Byte × State) x =>
    (r.1.drop x.2,
      match r.2.remoteOf x.1 with
      | none => r.2.writeTarget (.host f) x.1 (r.1.take x.2)
      | some m => (r.2.request (.host f) none m opWrite (x.1 % 2 ^ 42) x.2 (r.1.take x.2)).2)) (bs, s)).2

/-- The view registers of a read that waited for their snapshot. -/
def State.hostView (s : State) (f : HostFn) (l : List RegRef) : List Byte × State :=
  l.foldl (fun (x : List Byte × State) r =>
    let y := x.2.readReg f.agent r
    (x.1 ++ leBytes 4 y.1.toNat, y.2)) ([], s)

/-- An access of the host as it completes, or a doorbell's signal as it is delivered. -/
def State.hostServe (s : State) (h : HostHeld) : State :=
  match h.bell, h.data with
  | some (p, d, w, x), _ =>
    let y := s.bellWord p d w
    y.2.ringSignal h.fn p d y.1 x
  | none, some bs => s.hostPut h.fn h.targets bs
  | none, none =>
    if h.view.isEmpty then
      match s.hostTakeAll h.fn h.targets with
      | (some bs, s) => s.toHost (.data h.fn.number bs)
      | (none, s) => s.hostRefuse h.fn true ((h.targets.headD (0, 0)).1)
    else
      let x := s.hostView h.fn h.view
      x.2.toHost (.data h.fn.number x.1)

/-- The answer of another module to a host read is not there yet. -/
def State.hostAway (s : State) (h : HostHeld) (x : Nat × Nat) : Bool :=
  match s.remoteOf x.1 with
  | none => false
  | some m => h.data.isNone && !(s.findRead (.host h.fn) none m (x.1 % 2 ^ 42) x.2).any fun r => r.2.resp.isSome || r.2.refused.isSome

/-- An access stalls at the window of a core that migrates (R230), at another module that has not answered (R300) and at a view whose
snapshot is on its way (R289); a doorbell waits for the writes of its function that were made before it (R315). -/
def State.hostStalls (s : State) (h : HostHeld) (before : List HostHeld) : Bool :=
  (h.targets.any fun x => s.targetStalls x.1 x.2 || s.hostAway h x) ||
    (!h.view.isEmpty && (s.reg .FCH_VIEW_SEL).getLsbD 31) ||
    (h.bell.isSome && before.any fun b => b.data.isSome && decide (b.fn = h.fn))

/-- The READs of an access that has none outstanding are sent (R300). -/
def State.hostAsk (s : State) (h : HostHeld) : State :=
  h.targets.foldl (fun s x =>
    match s.remoteOf x.1 with
    | none => s
    | some m =>
      if h.data.isNone && (s.findRead (.host h.fn) none m (x.1 % 2 ^ 42) x.2).isNone then
        (s.request (.host h.fn) none m opRead (x.1 % 2 ^ 42) x.2 []).2
      else s) s

/-- Accesses complete or stall, in the order of their arrival (R230, R342 step 7). -/
def State.hostTurn (s : State) (l : List HostHeld) : State :=
  let r := l.foldl (fun (r : State × List HostHeld) h =>
    let s := r.1.hostAsk h
    if s.hostStalls h r.2 then (s, r.2 ++ [h]) else (s.hostServe h, r.2)) (s, [])
  { r.1 with hostLink := { r.1.hostLink with held := r.2 } }

/-- The accesses that stall are tried again. -/
def State.hostDrain (s : State) : State := s.hostTurn s.hostLink.held

/-- An access of the host that its BAR admits. -/
def State.hostIssue (s : State) (h : HostHeld) : State :=
  let s := s.hostAsk h
  if s.hostStalls h s.hostLink.held then { s with hostLink := { s.hostLink with held := s.hostLink.held ++ [h] } }
  else s.hostServe h

/-- A doorbell is rung: its signal is delivered after every earlier write of the function that rings it (R315). -/
def State.ringDoorbell (s : State) (a : Agent) (p d : Nat) : State :=
  let x : W64 := BitVec.ofNat 64 ((s.reg .DB_RING_HI p d).toNat * 2 ^ 32 + (s.reg .DB_RING_LO p d).toNat)
  match a.hostFn with
  | some f => s.hostIssue { fn := f, targets := [], bell := some (p, d, s.reg .DB_CFG p d, x) }
  | none => s.ringSignal .pf0 p d (s.reg .DB_CFG p d) x

/-- A write of DB_RING_HI (Table 12.12). -/
def State.ringHiWrite (s : State) (a : Agent) (p d : Nat) (v : W32) : State :=
  (s.plainWrite { name := .DB_RING_HI, i := p, j := d } v).ringDoorbell a p d

/-- DOORBELL_RING (R315). -/
def execDoorbellRing (f : HostFn) (p : PartId) (d : Fin 64) (hi : W32) (s : State) : Res :=
  if s.present f && s.mayWrite f.agent { name := .DB_RING_HI, i := p, j := d } then .next (s.ringHiWrite f.agent p d hi) else .next s

/-! ### Counter triggers (R316) -/

/-- A write of a trigger's register: an armed trigger is disarmed first, and the home tests a trigger that is armed. -/
def State.trigWrite (s : State) (r : RegRef) (v : W32) : State :=
  let s := (s.setField .TRIG_CFG r.i r.j 31 31 0).plainWrite r v
  if r.name = .TRIG_CFG then s.testTrigger r.i r.j else s

/-- The vectors that are counter triggers (Table 12.13). -/
def trigVector (f : HostFn) (vec : Nat) : Bool :=
  match f with
  | .pf0 => decide (4 ≤ vec) && decide (vec < 128)
  | .vf _ => decide (8 ≤ vec) && decide (vec < 120)

/-- TRIGGER_ARM (R316): a write of TRIG_CFG. -/
def execTriggerArm (f : HostFn) (vec : Fin 128) (cfg : W32) (s : State) : Res :=
  if s.hostPort.isSome && s.present f && trigVector f vec then .next (s.trigWrite { name := .TRIG_CFG, i := f.number, j := vec } cfg) else .next s

/-! ### MSI-X tables (Table 12.11) -/

/-- A word of a function's MSI-X table written; a vector that is unmasked sends its pending message. -/
def State.msixWrite (s : State) (fn vec word : Nat) (v : W32) : State :=
  let s := { s with msixTable := SMap.set 0 s.msixTable (msixKey fn vec word) v }
  if s.msixPend.contains (fn, vec) && !s.msixMasked fn vec then
    { s with msixPend := s.msixPend.filter (· != (fn, vec)) }.toHost (.msix fn vec)
  else s

/-- A word of a function's MSI-X pending bits. -/
def State.msixPending (s : State) (fn word : Nat) : W32 :=
  BitVec.ofNat 32 ((List.range 32).foldl (fun m k => if s.msixPend.contains (fn, 32 * word + k) then m + 2 ^ k else m) 0)

/-! ### Function-level reset (R317) -/

def isDoorbell (n : RegName) : Bool := n == .DB_CFG || n == .DB_RING_LO || n == .DB_RING_HI
def isTrigger (n : RegName) : Bool := n == .TRIG_CFG || n == .TRIG_LO || n == .TRIG_HI

/-- A key of the register file is that of function `fn`'s doorbells or triggers. -/
def ofFunction (fn key : Nat) : Bool :=
  RegName.all.any fun n => decide (key / 2 ^ 24 = n.ctorIdx) &&
    ((isDoorbell n && decide (key / 2 ^ 12 % 2 ^ 12 + 1 = fn)) || (isTrigger n && decide (key / 2 ^ 12 % 2 ^ 12 = fn)))

/-- A function's doorbell configuration, MSI-X table and triggers are as at reset; its outstanding requests complete, one that stalls
as its window is served again. -/
def State.flr (s : State) (fn : Nat) : State :=
  { s with regs := s.regs.filter fun e => !ofFunction fn e.1
           effLo := s.effLo.filter fun e => !ofFunction fn e.1
           msixTable := s.msixTable.filter fun e => decide (e.1 / 512 ≠ fn)
           msixPend := s.msixPend.filter fun e => decide (e.1 ≠ fn) }

/-- VF_FLR (R317). -/
def execVfFlr (p : PartId) (s : State) : Res :=
  if s.hostPort.isSome && s.present (.vf p) then .next (s.flr (p + 1)) else .next s

/-- PF_FLR (R317): as for every function. -/
def execPfFlr (s : State) : Res := if s.hostPort.isSome then .next ((List.range 17).foldl (fun s fn => s.flr fn) s) else .next s

end Sys2Proof.Machine
end

