-- ==== Sys2Proof/Machine/Grate.lean ====
section
/-!
DEFINITION. Grate engines and their schedulers (08): ATTEND, the page table, the classification of spans, the partial
results and their order of operations, and engine failures.
-/

namespace Sys2Proof.Machine

open Sys2Proof

/-! ### The command (Table 8.3) -/

def Desc.seqt (d : Desc) : Nat := d.fld 72 8
def Desc.nseq (d : Desc) : Nat := d.fld 80 2
def Desc.heads (d : Desc) : Nat := d.fld 82 1
def Desc.headDim (d : Desc) : Nat := d.fld 83 1 * 16
def Desc.pageTokens (d : Desc) : Nat := 16 <<< (d.fld 85 1 % 4)
def Desc.spanPages (d : Desc) : Nat := 2 ^ d.fld 86 1
/-- Query and key-value formats: BF16, FP16, E4M3, E5M2. -/
def kvFmt (c : Nat) : Fmt := if c = 0 then bf16 else if c = 1 then fp16 else if c = 2 then e4m3 else e5m2
def kvBytes (c : Nat) : Nat := if c ≤ 1 then 2 else 1
def Desc.qFmt (d : Desc) : Nat := natBits (d.fld 84 1) 7 4
def Desc.kvFmt (d : Desc) : Nat := natBits (d.fld 84 1) 3 0
/-- Bytes of a page (R199), and of a partial record (Table 8.5). -/
def Desc.pageBytes (d : Desc) : Nat := 2 * d.pageTokens * d.headDim * kvBytes d.kvFmt
def Desc.partialBytes (d : Desc) : Nat := 64 + 4 * d.headDim
/-- The spans of a sequence of `n` pages (R203). -/
def Desc.spansOf (d : Desc) (n : Nat) : Nat := ceilDiv n d.spanPages

/-! ### The page table (R201, Table 8.11) -/

/-- A page-table entry (Table 8.1). -/
structure PtEntry where
  state : Nat
  stack : Nat
  gen : Nat
  first : Nat
  page : Nat
  count : Nat
deriving DecidableEq, Repr

def ptEntry (bs : List Byte) : PtEntry :=
  let b := fieldLe bs 0 1
  { state := b % 4, stack := natBits b 5 2, gen := fieldLe bs 2 2, first := fieldLe bs 4 4, page := fieldLe bs 8 4,
    count := fieldLe bs 12 2 }

/-- The partition address of entry `i`, none where the table has no such entry (R208, R217). -/
def State.ptAddr (s : State) (k p i : Nat) : Option Nat :=
  let n := if (s.reg .GRT_PT_CFG k p).getLsbD 2 then (s.reg .GRT_PT_COUNT k p).toNat else 0
  if i < n then some (s.pair .GRT_PT_BASE_LO .GRT_PT_BASE_HI k p + 16 * i) else none

/-- The near pieces of the `n` bytes at stack-local address `w` of stack `k`, by the inverse of the placement of R39; none
where no one share of an interleave entry on the stack holds them. -/
def State.nearPieces (s : State) (k w n : Nat) : Option (List (Nat × Nat)) :=
  (s.cfg.interleave.find? fun e =>
      decide (e.mode ≤ 1) && decide (e.targets.2 ≤ k) && decide (k < e.targets.2 + e.targets.1) && decide (e.offset ≤ w) &&
        decide (w + n ≤ e.offset + e.len / e.targets.1)).map fun e =>
    (cuts (2 ^ e.granule) (w - e.offset) n).map fun c =>
      (e.base + ((c.1 >>> e.granule) * e.targets.1 + (k - e.targets.2)) <<< e.granule + c.1 % 2 ^ e.granule, c.2)

/-- A near page lies within the partition's near pool on its stack, and in the span's arenas, piece by piece (R200,
R208). -/
def State.nearOk (s : State) (p : Nat) (as : List Arena) (m : W64) (k w n : Nat) : Bool :=
  match s.nearPieces k w n, SMap.get none s.cfg.pool p with
  | some ps, some pool => ps.all fun x =>
      decide (pool.nearBase ≤ x.1) && decide (x.1 + x.2 ≤ pool.nearBase + pool.nearLen) && inArenas as m 255 x.1 x.2
  | _, _ => false

/-! ### Taking a command (R203, R208) -/

/-- The masks of a descriptor's span, with no effect. -/
def State.masksOf (s : State) (l p t : Nat) : W64 × W64 := ((s.spanMasks l p t).1).getD (0, 0)

/-- The unit that accesses memory for a core's commands at a stack (R15). -/
def grateOf (k l : Nat) : Unit := .grate (Fin.ofNat 12 k) (Fin.ofNat 768 l)

/-- The page-table entry at an index that passes R208: its index exists, the entry lies in an arena and the pinned map, and a near
page of it lies where it may; none otherwise. -/
def State.pageEntry (s : State) (k l p : Nat) (d : Desc) (m : W64) (i : Nat) : Option PtEntry × State :=
  let as := (s.core l).arenas
  match s.ptAddr k p i with
  | none => (none, s)
  | some a =>
    match s.partPieces p a 16 with
    | none => (none, s)
    | some ps =>
      if !inArenas as m 255 a 16 then (none, s)
      else
        let r := s.readTargets (grateOf k l) ps
        let e := ptEntry r.1
        (if decide (e.state ≠ 1) || r.2.nearOk p as m e.stack (e.page * 512) d.pageBytes then some e else none, r.2)

/-- A sequence record as the scheduler checks it (R208). Lengths and alignments of Table 8.4a that a record breaks count as
failing checks (log entry 23). -/
def State.fetchSeq (s : State) (k l p : Nat) (d : Desc) (bs : List Byte) : GSeq × State :=
  let as := (s.core l).arenas
  let m := s.masksOf l p d.spanTag
  let all := m.1 ||| m.2
  let q := fieldLe bs 0 8
  let pl := fieldLe bs 8 8
  let np := fieldLe bs 16 4
  let dst := fieldLe bs 32 8
  let qn := d.heads * d.headDim * kvBytes d.qFmt
  let on := d.spansOf (min np (2 ^ 20)) * d.heads * d.partialBytes
  let outOk := decide (dst % 64 = 0) && inArenas as m.2 255 dst on && (decide (on = 0) || (s.partPieces p dst on).isSome)
  let base := decide (np ≤ 2 ^ 20) && decide (q % 64 = 0) && decide (pl % 8 = 0) && inArenas as all 255 q qn &&
    (s.partPieces p q qn).isSome && inArenas as all 255 pl (8 * np)
  let ps := if np = 0 then some [] else s.partPieces p pl (8 * np)
  let r : Bool × List (Nat × Nat) × State :=
    match base, ps with
    | true, some x =>
      let r := s.readTargets (grateOf k l) x
      let list := (List.range np).map fun i => (fieldLe r.1 (8 * i) 4, fieldLe r.1 (8 * i + 4) 2)
      let v := list.foldl (fun (v : Bool × State) e =>
        let c := v.2.pageEntry k l p d all e.1
        (v.1 && c.1.isSome, c.2)) (true, r.2)
      (v.1, list, v.2)
    | _, _ => (false, [], s)
  ({ q := q, pages := r.2.1, npage := min np (2 ^ 20), len := fieldLe bs 20 4, causal := fieldLe bs 24 4, id := fieldLe bs 28 4,
     dst := dst, ok := r.1 && outOk, outOk := outOk }, r.2.2)

/-- The sequences of a command fetched; each that fails is logged as kind 0x13 (R208). A record that can no longer be read
counts as one of zeros (log entry 23). -/
def State.fetchSeqs (s : State) (k l p : Nat) (d : Desc) : List GSeq × State :=
  let r : List Byte × State :=
    match s.partPieces p d.seqt (64 * d.nseq) with
    | some ps => s.readTargets (grateOf k l) ps
    | none => ([], s)
  (List.range d.nseq).foldl (fun (v : List GSeq × State) i =>
    let g := v.2.fetchSeq k l p d ((r.1.drop (64 * i)).take 64)
    let s := if g.1.ok then g.2 else g.2.ashNow (g.2.srcSched k) 0x13 0 p k l (BitVec.ofNat 32 d.spanTag) g.1.dst
      (d.spansOf g.1.npage * d.heads * d.partialBytes) g.1.id
    (v.1 ++ [g.1], s)) ([], r.2)

/-- The active commands of a core's queue at a stack. -/
def Stack.ofCore (k : Stack) (l : Nat) : Nat := (k.active.filter fun c => c.core == l).length

/-- The windows that a partition range names stall (R230). -/
def State.rangeStalls (s : State) (p a n : Nat) : Bool :=
  match s.partPieces p a n with
  | some ps => ps.any fun x => s.targetStalls x.1 x.2
  | none => false

/-- The stack's domain, or its die uncore's, is not ON: its scheduler and engines do nothing (R366). -/
def State.stackAsleep (s : State) (k : Nat) : Bool :=
  s.domainState (20 + k) != pwOn || s.domainState (16 + k / 3) != pwOn

/-- A scheduler takes the ATTEND at the head of a core's queue when it has room (R203); none where it cannot. -/
def State.startAttend (s : State) (k : StackId) (l : CoreId) : Option State :=
  match (s.queue l (4 + k)).oldestPending, s.partOf l with
  | some e, some p =>
    let x := s.stack k
    if e.desc.opcode ≠ 1 || e.void || !s.waitsMet l (4 + k) e || s.engineStopped l (4 + k.val) || decide (64 ≤ x.active.length) || decide (4 ≤ x.ofCore l) ||
        s.rangeStalls p e.desc.seqt (64 * e.desc.nseq) || s.stackAsleep k then none
    else
      let r := s.fetchSeqs k l p e.desc
      let s := (r.2.modEntry l (4 + k) e.acc fun y => { y with st := .taken }).modStack k fun x =>
        { x with active := x.active ++ [{ core := l, acc := e.acc, seqs := r.1 }] }
      some (s.traceStart l (4 + k) e)
  | _, _ => none

/-- ATTEND (R203). -/
def execAttend (st : StackId) (l : CoreId) (s : State) : Res := .next ((s.startAttend st l).getD s)

/-! ### Partial records (Table 8.5) -/

/-- A head's partial: m, s, status, flags, keys used, o. -/
structure Partial where
  m : Nat
  sum : Nat
  status : Nat
  flags : Nat
  used : Nat
  o : List Nat
deriving DecidableEq, Repr

def negInf : Nat := 0xFF800000

/-- The partial of a span with a status and no result (R212). -/
def failedPartial (status d : Nat) : Partial :=
  { m := negInf, sum := 0, status := status, flags := 0, used := 0, o := List.replicate d 0 }

def Partial.bytes (r : Partial) (h j : Nat) (drop : Nat × Nat) (id : Nat) : List Byte :=
  leBytes 4 r.m ++ leBytes 4 r.sum ++ leBytes 1 r.status ++ leBytes 1 r.flags ++ leBytes 2 h ++ leBytes 4 j ++
    leBytes 4 r.used ++ leBytes 4 drop.1 ++ leBytes 4 drop.2 ++ leBytes 4 id ++ leBytes 32 0 ++ r.o.flatMap (leBytes 4)

/-- The records of a span written (R206), unless the sequence's OUT range may not be. -/
def State.writePartials (s : State) (k core acc p : Nat) (d : Desc) (g : GSeq) (j : Nat) (drop : Nat × Nat) (rs : List Partial) :
    State :=
  if !g.outOk then s
  else
    let bs := rs.zipIdx.flatMap fun (r, h) => r.bytes h j drop g.id
    let s := s.modEntry core (4 + k) acc fun e => { e with wrote := e.wrote + bs.length }
    match s.partPieces p (g.dst + j * d.heads * d.partialBytes) bs.length with
    | some ps => s.writeTargets (grateOf k core) ps bs
    | none => s

/-- A span's end counted at its command: 2 to 5 are failures (R212). -/
def State.countSpan (s : State) (k core acc status : Nat) (onEngine : Bool) : State :=
  s.modStack k fun x => { x with active := x.active.map fun c =>
    if c.core = core ∧ c.acc = acc then
      { c with failed := c.failed + (if 2 ≤ status then 1 else 0),
               outstanding := if onEngine then c.outstanding - 1 else c.outstanding }
    else c }

/-! ### Dispatch (R203, R209) -/

/-- The next span of a command: sequences of no pages have none. `fuel` bounds the sequences passed over. -/
def GCmd.nextSpan (c : GCmd) (d : Desc) : Nat → Nat → Nat → Option (Nat × Nat)
  | 0, _, _ => none
  | fuel + 1, i, j =>
    match c.seqs[i]? with
    | none => none
    | some g => if j < d.spansOf g.npage then some (i, j) else c.nextSpan d fuel (i + 1) 0

/-- The span of a command that waits for its dispatch. -/
def GCmd.due (c : GCmd) (d : Desc) : Option (Nat × Nat) := c.nextSpan d (c.seqs.length + 1) c.seq c.span

/-- What the scheduler finds of a span (R209): its status, the first and last dropped tokens, and its pages. Its entries are read
and checked under R208 anew. -/
def State.classify (s : State) (k l p : Nat) (d : Desc) (g : GSeq) (j : Nat) :
    (Nat × (Nat × Nat) × List (Nat × Nat × Nat × Nat × Nat)) × State :=
  if !g.ok then ((5, (0, 0), []), s)
  else
    let list := (g.pages.drop (j * d.spanPages)).take d.spanPages
    let m := s.masksOf l p d.spanTag
    let r := list.foldl (fun (v : List (Option (Nat × Nat × PtEntry)) × State) e =>
      let q := v.2.pageEntry k l p d (m.1 ||| m.2) e.1
      (v.1 ++ [q.1.map fun x => (e.1, e.2, x)], q.2)) ([], s)
    let es := r.1.filterMap id
    let dropped := es.filter fun e => e.2.2.state == 3
    let st : Nat :=
      if es.length ≠ list.length then 5
      else if !dropped.isEmpty then 2
      else if es.any fun e => e.2.2.gen != e.2.1 then 4
      else if es.any fun e => e.2.2.state != 1 || e.2.2.stack != k then 3
      else 0
    let df := match dropped.head?, dropped.getLast? with
      | some a, some b => if st = 2 then (a.2.2.first, (b.2.2.first + b.2.2.count + 2 ^ 32 - 1) % 2 ^ 32) else (0, 0)
      | _, _ => (0, 0)
    ((st, df, es.map fun e => (e.1, e.2.1, e.2.2.page, e.2.2.first, e.2.2.count)), r.2)

/-- Working engines of a stack that hold no item. -/
def State.freeEngines (s : State) (k : Nat) : List Nat :=
  below 16 fun e => !(s.reg .GRT_ENGINES k).getLsbD e && (SMap.get none (s.stack k).engines e).isNone
def State.allFailed (s : State) (k : Nat) : Bool := s.field .GRT_ENGINES k 0 15 0 == 0xFFFF

/-- An item placed on a free engine. Which one is the scheduler's choice: a free value. -/
def State.placeItem (s : State) (k : Nat) (it : GItem) : State :=
  let free := s.freeEngines k
  let e := free.getD (s.freeBelow free.length) 0
  s.nextFree.modStack k fun x => { x with engines := SMap.set none x.engines e (some it) }

/-- The command whose turn it is: the first with a span due. -/
def State.turn (s : State) (k : Nat) : Option (GCmd × QEntry × Nat × Nat) :=
  (s.stack k).active.findSome? fun c =>
    match s.entry c.core (4 + k) c.acc with
    | none => none
    | some e => (c.due e.desc).map fun x => (c, e, x.1, x.2)

/-- The turn passes: the command's next span is `(i, j)`, and it goes behind the others. -/
def Stack.served (x : Stack) (c : GCmd) (i j : Nat) (onEngine : Bool) : Stack :=
  let c' := { c with seq := i, span := j, outstanding := if onEngine then c.outstanding + 1 else c.outstanding }
  { x with active := (x.active.filter fun y => !(y.core == c.core && y.acc == c.acc)) ++ [c'] }

def State.spanStalls (s : State) (p : Nat) (d : Desc) (g : GSeq) (j : Nat) : Bool :=
  s.rangeStalls p (g.dst + j * d.heads * d.partialBytes) (d.heads * d.partialBytes)

/-- An abandoned item on another engine; with none left working its span returns FAR (R205). -/
def State.reissueItem (s : State) (k : Nat) (it : GItem) (rest : List GItem) : State :=
  if s.allFailed k then
    match s.entry it.core (4 + k) it.acc, (s.stack k).active.find? fun c => c.core == it.core && c.acc == it.acc, s.partOf it.core with
    | some e, some c, some p =>
      match c.seqs[it.seq]? with
      | none => s
      | some g =>
        if s.spanStalls p e.desc g it.span then s
        else
          let s := s.writePartials k it.core it.acc p e.desc g it.span (0, 0) (List.replicate e.desc.heads (failedPartial 3 e.desc.headDim))
          (s.countSpan k it.core it.acc 3 true).modStack k fun x => { x with reissue := rest }
    | _, _, _ => s
  else if (s.freeEngines k).isEmpty then s
  else (s.modStack k fun x => { x with reissue := rest }).placeItem k it

/-- GRATE_DISPATCH (R203, R209): one work item goes to a free engine, or a span that fails is written with its status. With no
engine working every span is FAR (R205). -/
def execGrateDispatch (st : StackId) (s : State) : Res :=
  let k := st.val
  match (s.stack k).reissue with
  | it :: rest => .next (s.reissueItem k it rest)
  | [] =>
    if (s.stack k).stopped || s.stackAsleep k then .next s
    else
      match s.turn k with
      | none => .next s
      | some (c, e, i, j) =>
        match c.seqs[i]?, s.partOf c.core with
        | some g, some p =>
          let r := if s.allFailed k then ((3, (0, 0), []), s) else s.classify k c.core p e.desc g j
          let status := r.1.1
          if status = 0 then
            if (s.freeEngines k).isEmpty then .next s
            else
              .next ((r.2.modStack k fun x => x.served c i (j + 1) true).placeItem k
                { core := c.core, acc := c.acc, seq := i, span := j, ents := r.1.2.2 })
          else if g.outOk && s.spanStalls p e.desc g j then .next s
          else
            let s := r.2.writePartials k c.core c.acc p e.desc g j r.1.2.1 (List.replicate e.desc.heads (failedPartial status e.desc.headDim))
            .next ((s.modStack k fun x => x.served c i (j + 1) false).countSpan k c.core c.acc status false)
        | _, _ => .next s

/-! ### What an engine computes (R210) -/

/-- FP32 operations by RNE on codes. -/
def rneMul (a b : Nat) : Nat := (fp32.round .rne ((fp32.decode a).mul (fp32.decode b)).1).1
def rneAdd (a b : Nat) : Nat := (fp32.round .rne ((fp32.decode a).add false (fp32.decode b)).1).1
def rneFma (a b c : Nat) : Nat := (fp32.round .rne ((fp32.decode a).fma false (fp32.decode b) (fp32.decode c)).1).1
def negCode (a : Nat) : Nat := a ^^^ 0x80000000

/-- exp(y) = FEXP2(RNE(y × 0x3FB8AA3B)), and exp(−∞) = +0. -/
def expCode (y : Nat) : Nat := if y = negInf then 0 else (fexp2 (rneMul y 0x3FB8AA3B)).1

/-- Neighbours added in pairs. -/
def pairSums : List Nat → List Nat
  | a :: b :: t => rneAdd a b :: pairSums t
  | l => l

/-- A block of 16 products summed by the fixed pairwise tree. -/
def blockTree (l : List Nat) : Nat := (pairSums (pairSums (pairSums (pairSums l)))).headD 0

/-- The products in blocks of 16, and the block sums in ascending order. `fuel` bounds the blocks. -/
def dotBlocks : Nat → Option Nat → List Nat → Nat
  | 0, acc, _ => acc.getD 0
  | fuel + 1, acc, l =>
    if l.isEmpty then acc.getD 0
    else
      let b := blockTree (l.take 16)
      dotBlocks fuel (some (match acc with
        | none => b
        | some a => rneAdd a b)) (l.drop 16)

/-- dot(q, k): exact products, each rounded to FP32. -/
def dotCode (q k : List Val) : Nat :=
  let ps := List.zipWith (fun (a b : Val) => (fp32.round .rne (a.mul b).1).1) q k
  dotBlocks (ps.length + 1) none ps

/-- Values of `n` elements in bytes. -/
def elemsOf (fmt n : Nat) (bs : List Byte) : List Val :=
  (List.range n).map fun i => (kvFmt fmt).decode (fieldLe bs (i * kvBytes fmt) (kvBytes fmt))

/-- A running partial: m, s, o. -/
structure Running where
  m : Nat := negInf
  sum : Nat := 0
  o : List Nat

/-- Is a code an infinity or a NaN? -/
def nonFinite (c : Nat) : Bool := natBits c 30 23 == 255

/-- Step 3: m′ and the scaling by exp(m − m′). -/
def Running.rescale (r : Running) (xs : List Nat) : Running :=
  let m' := xs.foldl (fun a b => (fp32.round .rne ((fp32.decode a).max (fp32.decode b))).1) r.m
  if Val.lt false (fp32.decode r.m) (fp32.decode m') == some true then
    let a := expCode (rneAdd r.m (negCode m'))
    { m := m', sum := rneMul r.sum a, o := r.o.map fun x => rneMul x a }
  else { r with m := m' }

/-- Step 4, for one used key with its value. -/
def Running.addKey (r : Running) (x : Nat) (v : List Val) : Running :=
  let p := expCode (rneAdd x (negCode r.m))
  { r with sum := rneAdd r.sum p, o := List.zipWith (fun o w => rneFma p (fp32.round .rne w).1 o) r.o v }

/-- A page: its used keys' scores and values (steps 2 to 4). -/
def Running.page (r : Running) (xs : List (Nat × List Val)) : Running :=
  if xs.isEmpty then r
  else xs.foldl (fun (a : Running) x => a.addKey x.1 x.2) (r.rescale (xs.map (·.1)))

/-- The used keys of a page, in slot order: key and value (step 1). -/
def usedKeys (d : Desc) (g : GSeq) (first count : Nat) (bs : List Byte) : List (List Val × List Val) :=
  let v := d.headDim * kvBytes d.kvFmt
  (below (min count d.pageTokens) fun i => decide (first + i < g.len) && decide (first + i ≤ g.causal)).map fun i =>
    (elemsOf d.kvFmt d.headDim (bs.drop (i * v)), elemsOf d.kvFmt d.headDim (bs.drop ((d.pageTokens + i) * v)))

/-- The partial of one head over a span's pages (R210). -/
def headPartial (d : Desc) (q : List Val) (pages : List (List (List Val × List Val))) : Partial :=
  let scored := pages.map fun ks => ks.map fun kv => (rneMul (d.fld 88 4) (dotCode q kv.1), kv.2)
  let n := (scored.map (·.length)).foldl (· + ·) 0
  let r := scored.foldl (fun (a : Running) p => a.page p) { o := List.replicate d.headDim 0 }
  if n = 0 then failedPartial 1 d.headDim
  else if nonFinite r.m || nonFinite r.sum || r.o.any nonFinite || scored.any fun p => p.any fun x => nonFinite x.1 then
    { m := fp32.nanCode, sum := fp32.nanCode, status := 0, flags := 1, used := n, o := List.replicate d.headDim fp32.nanCode }
  else { m := r.m, sum := r.sum, status := 0, flags := 0, used := n, o := r.o }

/-! ### The end of a work item (R209 to R212) -/

/-- What an engine finds page by page: the data of every page, or the status that ends the span. -/
inductive PageWalk where
  | data (pages : List (Nat × Nat × List Byte))
  | stale
  | dropped (entry : Nat × Nat × Nat × Nat × Nat)

/-- The walk over a span's pages for core `l`: a page's data are read as its home holds them, with the lines that a control cache
holds recalled (R77), then its entry again (R209, R211). -/
def State.walkPages (s : State) (k l p : Nat) (d : Desc) :
    List (Nat × Nat × Nat × Nat × Nat) → PageWalk × State
  | [] => (.data [], s)
  | (i, gen, page, first, count) :: rest =>
    let ps := (s.nearPieces k (page * 512) d.pageBytes).getD []
    let c := s.peekTargets ps
    if ps.any fun x => c.2.isLost x.1 x.2 then (.dropped (i, gen, page, first, count), c.2)
    else
      let bs := c.1
      let s := c.2.addCount .STK_CNT_LO k 2 d.pageBytes
      let again : Option PtEntry × State :=
        match s.ptAddr k p i with
        | none => (none, s)
        | some a =>
          match s.partPieces p a 16 with
          | none => (none, s)
          | some x => let q := s.readTargets (grateOf k l) x; (some (ptEntry q.1), q.2)
      match again.1 with
      | none => (.stale, again.2)
      | some e =>
        if e.gen ≠ gen then (.stale, again.2)
        else
          let r := again.2.walkPages k l p d rest
          (match r.1 with
            | .data l => .data ((first, count, bs) :: l)
            | other => other, r.2)

/-- The hardware drop of a page (R211): its entry becomes dropped and its generation advances; the loss is logged. -/
def State.dropPage (s : State) (k e l p : Nat) (d : Desc) (i page : Nat) : State :=
  match s.ptAddr k p i with
  | none => s
  | some a =>
    match s.partPieces p a 16 with
    | none => s
    | some ps =>
      let r := s.readTargets (grateOf k l) ps
      let old := fieldLe r.1 0 1
      let bs := leBytes 1 (old / 4 * 4 + 3) ++ (r.1.drop 1).take 1 ++ leBytes 2 (fieldLe r.1 2 2 + 1) ++ r.1.drop 4
      (r.2.writeTargets (grateOf k l) ps bs).ashNow (s.srcGrate k e) 0x09 1 p k l (BitVec.ofNat 32 d.spanTag)
        (page * 512) d.pageBytes i

/-- GRATE_WORK_ITEM_END (R209 to R212). -/
def execGrateWorkItemEnd (st : StackId) (e : Fin 16) (s : State) : Res :=
  let k := st.val
  match SMap.get none (s.stack k).engines e with
  | none => .next s
  | some it =>
    match s.entry it.core (4 + k) it.acc, (s.stack k).active.find? fun c => c.core == it.core && c.acc == it.acc, s.partOf it.core with
    | some x, some c, some p =>
      match c.seqs[it.seq]? with
      | none => .next s
      | some g =>
        let d := x.desc
        if s.spanStalls p d g it.span || s.rangeStalls p g.q (d.heads * d.headDim * kvBytes d.qFmt) then .next s
        else
          let w := s.walkPages k it.core p d it.ents
          let fin (s : State) (status : Nat) (drop : Nat × Nat) (rs : List Partial) : Res :=
            let s := s.writePartials k it.core it.acc p d g it.span drop rs
            let status := (rs.head?.map (·.status)).getD status
            let s := s.traceUnit (some p) x.mode
              { unit := grateOf k it.core, src := s.srcGrate k e, kind := 8, epoch := 0, sel := 4 + k, op := 1, acc := it.acc, span := d.spanTag,
                arg := status + it.span * 2 ^ 32 }
            .next ((s.countSpan k it.core it.acc status true).modStack k fun y =>
              { y with engines := SMap.set none y.engines e none, items := (y.items + 1) % 2 ^ 48 })
          match w.1 with
          | .stale => fin w.2 4 (0, 0) (List.replicate d.heads (failedPartial 4 d.headDim))
          | .dropped (i, _, page, first, count) =>
            fin (w.2.dropPage k e it.core p d i page) 2 (first, (first + count + 2 ^ 32 - 1) % 2 ^ 32)
              (List.replicate d.heads (failedPartial 2 d.headDim))
          | .data pages =>
            let keys := pages.map fun y => usedKeys d g y.1 y.2.1 y.2.2
            let qb : List Byte × State :=
              match w.2.partPieces p g.q (d.heads * d.headDim * kvBytes d.qFmt) with
              | some ps => w.2.readTargets (grateOf k it.core) ps
              | none => ([], w.2)
            fin qb.2 0 (0, 0) ((List.range d.heads).map fun h =>
              headPartial d (elemsOf d.qFmt d.headDim (qb.1.drop (h * d.headDim * kvBytes d.qFmt))) keys)
    | _, _, _ => .next s

/-! ### Completion (R212) and failures (R205) -/

/-- The complete instructions at the head of a queue, before the first that is not: the writes of all earlier instructions are
visible (R88). -/
def Queue.completed (q : Queue) : List QEntry := q.entries.takeWhile fun e => e.st == .complete

/-- The signals of complete instructions join the queue's stream in order, once no earlier instruction is left to complete (R87,
R88). -/
def State.joinSignals (s : State) (l : CoreId) (q : Nat) : State :=
  (s.queue l q).completed.foldl (fun s e =>
    (e.sigs.foldl (fun s g =>
      s.queueSignal (queueStream l q) (s.mkSig l (queueStream l q) g.seq g.handle g.kind g.operand)) s).modEntry l q e.acc fun x =>
        { x with sigs := [] }) s

/-- An instruction completes: its record shows it, and its signals follow those of the instructions before it (R88, R338). `first`
is an ATTEND's event signal. -/
def State.completeEntry (s : State) (l : CoreId) (q : Nat) (e : QEntry) (first : List SigSlot) : State :=
  let slots := first ++ e.desc.sigSlots
  let s := s.modEntry l q e.acc fun x => { x with st := .complete, sigs := slots, unacked := slots.map (·.seq) }
  (s.traceInstr l q e 2 e.wrote).joinSignals l q

/-- ATTEND_COMPLETE (R212): every partial is visible; the event signal counts the spans of status 2 to 5, and the slots
follow it. -/
def execAttendComplete (st : StackId) (l : CoreId) (acc : Nat) (s : State) : Res :=
  let k := st.val
  match s.entry l (4 + k) acc, (s.stack k).active.find? fun c => c.core == l.val && c.acc == acc with
  | some e, some c =>
    if (c.due e.desc).isSome || decide (c.outstanding ≠ 0) || decide (e.st ≠ .taken) then
      .next s
    else
      let ev : List SigSlot :=
        if e.desc.fld 92 3 = 0 then []
        else [{ handle := e.desc.fld 92 3, kind := 0, seq := BitVec.ofNat 32 (e.desc.fld 96 4), operand := BitVec.ofNat 64 c.failed }]
      .next ((s.modStack k fun x => { x with active := x.active.filter fun y => !(y.core == l.val && y.acc == acc) }).completeEntry
        l (4 + k) e ev)
  | _, _ => .next s

/-- An engine newly marked failed (R205): logged, and the item it holds is abandoned and reissued. -/
def State.failEngine (s : State) (k e : Nat) : State :=
  let s := s.ashNow (s.srcGrate k e) 0x07 2 0xFF k 0xFFFF 0 0 0 e
  match SMap.get none (s.stack k).engines e with
  | none => s
  | some it => s.modStack k fun x => { x with engines := SMap.set none x.engines e none, reissue := x.reissue ++ [it] }

/-- A write of GRT_ENGINES (Table 8.8). -/
def State.grtEnginesWrite (s : State) (k : Nat) (v : W32) : State :=
  let old := s.reg .GRT_ENGINES k
  let s := s.setField .GRT_ENGINES k 0 15 0 (bitsOf v 15 0)
  (List.range 16).foldl (fun s e => if v.getLsbD e && !old.getLsbD e then s.failEngine k e else s) s

/-- GRATE_ENGINE_FAIL (R205). -/
def execGrateEngineFail (st : StackId) (e : Fin 16) (s : State) : Res :=
  .next (s.grtEnginesWrite st (s.reg .GRT_ENGINES st ||| BitVec.twoPow 32 e))

end Sys2Proof.Machine
end

