-- ==== Sys2Proof/Machine/Translate.lean ====
section
/-!
DEFINITION. The DMA engine's address translation (10.1 to 10.4): range tables, walks, range caches, direct addresses,
swaps of stage 2 and the pinned map, and invalidations.
-/

namespace Sys2Proof.Machine

open Sys2Proof

/-! ### Range tables (R241) -/

/-- A range within one row of the partition-address space, near memory to the windows (Table 3.1). -/
def inPartRow (a n : Nat) : Bool :=
  decide (a + n ≤ scratchBase) || (decide (scratchBase ≤ a) && decide (a + n ≤ scratchEnd)) ||
    (decide (windowBase ≤ a) && decide (a + n ≤ windowEnd))

/-- A target range of stage 2: a memory row within the fitted variant, or another module's memory row in the global space. -/
def State.inTargetRow (s : State) (t n : Nat) : Bool :=
  if t >>> 60 = 1 then
    let a := t % 2 ^ 42
    decide ((t + n - 1) >>> 42 = t >>> 42) &&
      (if (s.remoteOf t).isNone then s.inRow a n else decide (a + n ≤ nearEnd) || (decide (ringBase ≤ a) && decide (a + n ≤ ringBase + 2 ^ 40)) ||
        (decide (scratchBase ≤ a) && decide (a + n ≤ scratchEnd)))
  else s.inRow t n

/-- Alignments and length of an entry. -/
def RangeEntry.shaped (e : RangeEntry) : Bool :=
  decide (e.start % 4096 = 0) && decide (e.len % 4096 = 0) && decide (e.target % 4096 = 0) && decide (4096 ≤ e.len) &&
    decide (e.len ≤ 2 ^ 40)

/-- An entry of a stage-1 or stage-2 table obeys R241. -/
def State.entryOk (s : State) (stage : Nat) (e : RangeEntry) : Bool :=
  e.shaped && (if stage = 1 then inPartRow e.target e.len else s.inTargetRow e.target e.len)

def rangeEntry (bs : List Byte) : RangeEntry := { start := fieldLe bs 0 8, len := fieldLe bs 8 8, target := fieldLe bs 16 8 }

def RangeEntry.holds (e : RangeEntry) (a : Nat) : Bool := decide (e.start ≤ a) && decide (a < e.start + e.len)

/-! ### Walks (R244) -/

/-- What the search of one table answers. -/
inductive Search where
  | miss
  | unreadable
  | bad
  | found (e : RangeEntry)

/-- The binary search of R244 over indices `lo` to `hi − 1`. `below` and `above` bound what entries in order may cover.
`read` fetches an entry; `fuel` bounds the reads. -/
def searchTable (stage : Nat) (read : State → Nat → Option (List Byte) × State) (a : Nat) :
    Nat → Nat → Nat → Nat → Option Nat → State → Search × State
  | 0, _, _, _, _, s => (.miss, s)
  | fuel + 1, lo, hi, floor, ceil, s =>
    if hi ≤ lo then (.miss, s)
    else
      let mid := (lo + hi - 1) / 2
      let r := read s mid
      match r.1 with
      | none => (.unreadable, r.2)
      | some bs =>
        let e := rangeEntry bs
        let inOrder := decide (floor ≤ e.start) && (match ceil with
          | none => true
          | some c => decide (e.start + e.len ≤ c))
        if !r.2.entryOk stage e || !inOrder then (.bad, r.2)
        else if a < e.start then searchTable stage read a fuel lo mid floor (some e.start) r.2
        else if e.start + e.len ≤ a then searchTable stage read a fuel (mid + 1) hi (e.start + e.len) ceil r.2
        else (.found e, r.2)

/-- A range of partition memory read by a DE through the entries of the pinned map; none outside them (R244). -/
def State.deMapRead (s : State) (l : CoreId) (p a n : Nat) : Option (List Byte) × State :=
  match s.mappedPieces p a n with
  | none => (none, s)
  | some ps =>
    if ps.all fun x => (s.remoteOf x.1).isNone && s.isMemoryRange x.1 x.2 then
      let r := s.readPieces (.de l) ps
      (some r.1, r.2)
    else (none, s)

/-- A direct partition address: scratchpad or window (10.1). -/
def isDirect (a : Nat) : Bool := decide (scratchBase ≤ a)

/-- The check of a direct address (R240): the bytes from it on that pass. -/
def State.directLen (s : State) (p a : Nat) : Option Nat :=
  if s.ownsScratch p a 1 then some (scratchBase + (scratchGroup a + 1) * groupBytes - a)
  else if s.ownsWindow p a 1 then
    match windowOf a with
    | some (k, off) => some (s.lmSize k - off)
    | none => none
  else none

/-- The stage-1 entry of an address in a context: from the L2 range cache, else by a walk. On the left, a fault kind. -/
def State.stage1 (s : State) (l : CoreId) (p ctx a : Nat) (walk : Bool) : Option (Nat ⊕ RangeEntry) × State :=
  match (s.cluster (l / 8)).l2x.find? fun x => x.1 == 1 && x.2.1 == ctx && x.2.2.holds a with
  | some x => (some (.inr x.2.2), s)
  | none =>
    if !walk then (none, s)
    else
      let c := s.deMapRead l p (s.pair .MOD_XLT_CTX_LO .MOD_XLT_CTX_HI p + 16 * ctx) 16
      match c.1 with
      | none => (some (.inl 3), c.2)
      | some bs =>
        let base := fieldLe bs 0 8
        let n := fieldLe bs 8 4
        if n = 0 || decide (65536 < n) || decide (base % 32 ≠ 0) then (some (.inl 3), c.2)
        else
          let r := searchTable 1 (fun s i => s.deMapRead l p (base + 32 * i) 32) a 18 0 n 0 none c.2
          match r.1 with
          | .miss => (some (.inl 1), r.2)
          | .unreadable => (some (.inl 3), r.2)
          | .bad => (some (.inl 4), r.2)
          | .found e => (some (.inr e), r.2)

/-- The stage-2 entry of a translated partition address. -/
def State.stage2 (s : State) (l : CoreId) (p a : Nat) (walk : Bool) : Option (Nat ⊕ RangeEntry) × State :=
  match (s.cluster (l / 8)).l2x.find? fun x => x.1 == 2 && x.2.2.holds a with
  | some x => (some (.inr x.2.2), s)
  | none =>
    if !walk then (none, s)
    else
      match (s.part p).s2 with
      | none => (some (.inl 2), s)
      | some (root, n) =>
        let r := searchTable 2 (fun s i =>
          if s.isMemoryRange (root + 32 * i) 32 then
            let q := s.readMem (.de l) (root + 32 * i) 32
            (some q.1, q.2)
          else (none, s)) a 18 0 n 0 none s
        match r.1 with
        | .miss => (some (.inl 2), r.2)
        | .unreadable => (some (.inl 4), r.2)
        | .bad => (some (.inl 4), r.2)
        | .found e => (some (.inr e), r.2)

/-- Most recently used first, at most `n`. -/
def touchFirst {α : Type} [BEq α] (n : Nat) (x : α) (l : List α) : List α := (x :: l.filter fun y => !(y == x)).take n

def State.keepL2 (s : State) (l : Nat) (stage ctx : Nat) (e : RangeEntry) : State :=
  s.modCluster (l / 8) fun c => { c with l2x := touchFirst 512 (stage, ctx, e) c.l2x }
def State.keepL1 (s : State) (l : Nat) (e : XEntry) : State := s.modCore l fun c => { c with l1x := touchFirst 32 e c.l1x }

/-- The combined entry around an address in which both stages are linear (R245). -/
def combine (ctx : Nat) (e1 : Option RangeEntry) (e2 : Option RangeEntry) : XEntry :=
  match e1, e2 with
  | none, none => { ctx := ctx, start := 0, len := 0, target := 0, part := 0 }
  | none, some e => { ctx := ctx, start := e.start, len := e.len, target := e.target, part := e.start }
  | some e, none => { ctx := ctx, start := e.start, len := e.len, target := e.target, part := e.target, direct := true }
  | some e, some f =>
    let lo := max e.target f.start
    let hi := min (e.target + e.len) (f.start + f.len)
    { ctx := ctx, start := e.start + (lo - e.target), len := hi - lo, target := f.target + (lo - f.start), part := lo }

/-- What the translation of an address answers: the combined entry, a walk to do, or a fault with its partition address. -/
inductive Combined where
  | entry (e : XEntry)
  | walk
  | fault (kind paddr : Nat)

/-- Both stages of an address. With `walk` unset only the L2 range cache is asked; `keep` caches what was found. -/
def State.combined (s : State) (l : CoreId) (p ctx a : Nat) (walk keep : Bool) : Combined × State :=
  let r1 : Option (Nat ⊕ Option RangeEntry) × State :=
    if ctx = 255 then (some (.inr none), s)
    else
      let r := s.stage1 l p ctx a walk
      (r.1.map fun x => match x with
        | .inl k => .inl k
        | .inr e => .inr (some e), r.2)
  match r1.1 with
  | none => (.walk, r1.2)
  | some (.inl k) => (.fault k 0, r1.2)
  | some (.inr e1) =>
    let pa := match e1 with
      | some e => e.target + (a - e.start)
      | none => a
    let s := match e1, keep with
      | some e, true => r1.2.keepL2 l 1 ctx e
      | _, _ => r1.2
    if isDirect pa then
      let x := combine ctx e1 none
      (.entry x, if keep && e1.isSome then s.keepL1 l x else s)
    else
      let r2 := s.stage2 l p pa walk
      match r2.1 with
      | none => (.walk, r2.2)
      | some (.inl k) => (.fault k (if k = 2 then pa else 0), r2.2)
      | some (.inr e2) =>
        let x := combine ctx e1 (some e2)
        (.entry x, if keep then (r2.2.keepL2 l 2 0 e2).keepL1 l x else r2.2)

/-- What an access of a DE finds at an address: a target, the bytes that lie in line with it, and its partition address; a walk to
wait for, or a fault with the partition address. -/
inductive Xlt where
  | here (target len paddr : Nat)
  | walk
  | fault (kind paddr : Nat)

/-- The target through a combined entry (R240, check_target of R244), as far as its page goes: whether an address is served is
decided page by page (R265). -/
def State.throughEntry (s : State) (p : Nat) (e : XEntry) (a : Nat) : Xlt :=
  let pa := e.part + (a - e.start)
  if e.direct then
    match s.directLen p pa with
    | some n => .here pa (min n (e.start + e.len - a)) pa
    | none => .fault 5 pa
  else
    let t := s.localise (e.target + (a - e.start))
    if (s.remoteOf t).isSome || s.isMemory t then .here t (min (e.start + e.len - a) (4096 - t % 4096)) pa else .fault 5 pa

/-- The translation of an access of a running instruction (R240, R245). -/
def State.translate (s : State) (l : CoreId) (p ctx a : Nat) (held : Option XEntry) : Xlt × State :=
  let hit (e : XEntry) : Bool := e.ctx == ctx && decide (e.start ≤ a) && decide (a < e.start + e.len)
  if ctx = 255 ∧ isDirect a then
    match s.directLen p a with
    | some n => (.here a n a, s)
    | none => (.fault 5 a, s)
  else
    match held.filter hit, (s.core l).l1x.find? hit with
    | some e, _ => (s.throughEntry p e a, s)
    | none, some e => (s.throughEntry p e a, s.keepL1 l e)
    | none, none =>
      let r := s.combined l p ctx a false true
      match r.1 with
      | .entry e => (r.2.throughEntry p e a, r.2)
      | .walk => (.walk, r.2)
      | .fault k pa => (.fault k pa, r.2)

/-! ### Swaps (R243, R248, R249) -/

/-- The range table of `n` entries at a local physical address, none where it is not in readable memory. -/
def State.tableAt (s : State) (base n : Nat) : Option (List RangeEntry) :=
  if n = 0 then some []
  else if s.inRow base (32 * n) && s.isMemoryRange base (32 * n) then
    some ((List.range n).map fun i => rangeEntry (s.bytes (base + 32 * i) 32))
  else none

def risesFrom : Nat → List RangeEntry → Bool
  | _, [] => true
  | lo, e :: t => decide (lo ≤ e.start) && risesFrom (e.start + e.len) t

/-- The local targets of a table, as (first, length). -/
def State.localTargets (s : State) (m : List RangeEntry) : List (Nat × Nat) :=
  m.filterMap fun e =>
    let t := s.localise e.target
    if (s.remoteOf t).isSome then none else some (t, e.len)

/-- Two ranges share a byte. -/
def meets (a b : Nat × Nat) : Bool := decide (a.1 < b.1 + b.2) && decide (b.1 < a.1 + a.2)

/-- A range covered by a list of ranges. `fuel` bounds the pieces. -/
def covered (l : List (Nat × Nat)) : Nat → Nat → Nat → Bool
  | 0, _, n => decide (n = 0)
  | fuel + 1, a, n =>
    if n = 0 then true
    else
      match l.find? fun x => decide (x.1 ≤ a) && decide (a < x.1 + x.2) with
      | none => false
      | some x => let k := min n (x.1 + x.2 - a); covered l fuel (a + k) (n - k)

/-- A pinned entry maps as stage 2 does: its addresses lie below the direct apertures and reach the same targets. -/
def State.mapsAlike (s : State) (s2 : List RangeEntry) : Nat → Nat → Nat → Nat → Bool
  | 0, _, _, n => decide (n = 0)
  | fuel + 1, a, t, n =>
    if n = 0 then true
    else
      match s2.find? fun e => e.holds a with
      | none => false
      | some e =>
        let k := min n (e.start + e.len - a)
        decide (s.localise (e.target + (a - e.start)) = s.localise t) && s.mapsAlike s2 fuel (a + k) (t + k) (n - k)

/-- The stage-2 table that a partition has in force. -/
def State.s2Table (s : State) (p : Nat) : List RangeEntry :=
  match (s.part p).s2 with
  | some (root, n) => (s.tableAt root n).getD []
  | none => []
/-- Where a partition's installed stage-2 table lies. -/
def State.s2Place (s : State) (p : Nat) : Nat × Nat :=
  match (s.part p).s2 with
  | some (root, n) => (root, 32 * n)
  | none => (0, 0)

/-- Pools and golden copies of a partition, as local physical ranges (R41). -/
def State.mustReach (s : State) (p : Nat) : List (Nat × Nat) :=
  (match SMap.get none s.cfg.pool p with
    | some k => [(k.nearBase, k.nearLen), (k.farBase, k.farLen)]
    | none => []) ++ (s.goldens p).flatMap fun g => [(g.near, g.len), (g.ring, g.len)]

/-- A partition's declared pinned ranges all lie in a map (R248). -/
def State.declaredIn (s : State) (p : Nat) (m : List RangeEntry) : Bool :=
  (s.part p).declared.all fun r => (rangePieces m 65 r.1 r.2).isSome

/-- A partition is quiesced (R54): its quiesce mode change has completed, every engine queue of its cores is empty and every
replay record has committed. No DMA instruction is then paused on a fault (R268). -/
def State.partQuiesced (s : State) (p : Nat) : Bool :=
  (s.reg .MOD_MODE_CUR p).getLsbD 0 && !(s.reg .MOD_MODE_CTRL p).getLsbD 30 &&
    ((s.coresOf p).all fun l => (s.core l).queues.all fun q => q.2.entries.isEmpty) &&
    (s.clustersOf p).all fun c => (s.cluster c).blocksHeld == 0

/-- The reason for which a swap is refused, 0 for none (Table 10.17): the lowest of the reasons that apply, unreadable
tables first. -/
def State.swapReason (s : State) (p root n pin pn : Nat) : Nat × List RangeEntry × List RangeEntry :=
  if n = 0 ∨ 65536 < n ∨ 64 < pn then (2, [], [])
  else
    match s.tableAt root n, s.tableAt pin pn with
    | some m, some q =>
      let tabs := m ++ q
      let own := s.localTargets m
      let others := (List.range 16).filter (· != p)
      let all := own ++ others.flatMap fun o => s.localTargets (s.s2Table o)
      let tables := [(root, 32 * n), (pin, 32 * pn)].filter fun x => decide (x.2 ≠ 0)
      let held := others.flatMap fun o =>
        [s.s2Place o, ((s.part o).pinnedAt, 32 * (s.part o).pinned.length)].filter fun x =>
          decide (x.2 ≠ 0)
      let r :=
        if !risesFrom 0 m || !risesFrom 0 q then 1
        else if tabs.any fun e => !e.shaped then 2
        else if tabs.any fun e => !s.inTargetRow e.target e.len then 3
        else if q.any fun e => decide (scratchBase < e.start + e.len) || !s.mapsAlike m (n + 1) e.start e.target e.len then 4
        else if tables.any (fun t => all.any (meets t)) || held.any (fun t => own.any (meets t)) then 5
        else if q ≠ (s.part p).pinned && (s.part p).image.isSome && !s.partQuiesced p then 6
        else if !s.declaredIn p q then 7
        else if (s.mustReach p).any fun x => !covered own (n + 1) x.1 x.2 then 8
        else 0
      (r, m, q)
    | _, _ => (9, [], [])

/-- Walks of a partition's DEs that are in progress, marked so that no range cache keeps their results (R246, R249). -/
def State.markWalks (s : State) (p ctx : Nat) : State :=
  (s.coresOf p).foldl (fun s l => s.modQueue l 2 fun q =>
    { q with entries := q.entries.map fun e =>
        match e.walk with
        | some (a, _) => if ctx = 255 ∨ a.ctx = ctx then { e with walk := some (a, true) } else e
        | none => e }) s
def State.marked (s : State) (p : Nat) : Bool :=
  (s.coresOf p).any fun l => (s.queue l 2).entries.any fun e => match e.walk with
    | some (_, b) => b
    | none => false

/-- A write of MOD_XLT_SWAP (Table 10.17). -/
def State.xltSwapWrite (s : State) (p : Nat) (v : W32) : State :=
  let old := s.reg .MOD_XLT_SWAP p
  let s := (s.setReg .MOD_XLT_SWAP p 0 (old &&& ~~~(v &&& 0x30000000))).setField .MOD_XLT_SWAP p 0 16 0 (bitsOf v 16 0)
  if v.getLsbD 31 && !old.getLsbD 30 then
    let pin := s.pair .MOD_XLT_PIN_LO .MOD_XLT_PIN_HI p
    ((s.setField .MOD_XLT_SWAP p 0 30 30 1).modPart p fun x => { x with
      swap := some (s.pair .MOD_XLT_S2_LO .MOD_XLT_S2_HI p, bitsOf v 16 0, pin / 2048 * 2048, pin % 128) }).markWalks p 255
  else s

/-- XLT_SWAP_GO (R249). -/
def execXltSwapGo (a : Agent) (p : PartId) (v : W32) (s : State) : Res :=
  if s.mayWrite a { name := .MOD_XLT_SWAP, i := p } then .next (s.xltSwapWrite p v) else .next s

/-- Every range-cache entry of a partition that `drop` names is dropped. -/
def State.dropRanges (s : State) (p : Nat) (drop1 : XEntry → Bool) (drop2 : Nat × Nat × RangeEntry → Bool) : State :=
  let s := (s.clustersOf p).foldl (fun s c => s.modCluster c fun x => { x with l2x := x.l2x.filter fun e => !drop2 e }) s
  (s.coresOf p).foldl (fun s l => s.modCore l fun c => { c with l1x := c.l1x.filter fun e => !drop1 e }) s

/-! ### Invalidations (R246) -/

/-- A write of MOD_XLT_INV (Table 10.18). -/
def State.xltInvWrite (s : State) (p : Nat) (v : W32) : State :=
  let busy := (s.reg .MOD_XLT_INV p).getLsbD 31
  let s := s.setField .MOD_XLT_INV p 0 7 0 (bitsOf v 7 0)
  if v.getLsbD 31 && !busy then
    ((s.setField .MOD_XLT_INV p 0 31 31 1).modPart p fun x => { x with inval := some (bitsOf v 7 0) }).markWalks p (bitsOf v 7 0)
  else s

/-- XLT_INVALIDATE_GO (R246). -/
def execXltInvalidateGo (a : Agent) (p : PartId) (v : W32) (s : State) : Res :=
  if s.mayWrite a { name := .MOD_XLT_INV, i := p } then .next (s.xltInvWrite p v) else .next s

/-- XLT_INVALIDATE_DONE (R246): once no earlier walk is left, every range cache has dropped the context and GO clears. -/
def execXltInvalidateDone (p : PartId) (s : State) : Res :=
  match (s.part p).inval with
  | none => .next s
  | some ctx =>
    if s.marked p then .next s
    else
      let all := ctx == 255
      .next (((s.dropRanges p (fun e => e.ctx != 255 && (all || e.ctx == ctx)) (fun e => e.1 == 1 && (all || e.2.1 == ctx))).setField
        .MOD_XLT_INV p 0 31 31 0).modPart p fun x => { x with inval := none })

end Sys2Proof.Machine
end

