-- ==== Sys2Proof/Machine/Dma.lean ====
section
/-!
DEFINITION. The DMA engine (10.5, 10.6): COPY, GATHER, SCATTER, REDUCE, BUCKET and FILL as accesses in their order,
translation faults with their records, and resolutions. A command runs a started instruction until it is done, pauses on
a fault, or waits for a walk, another module or a stalled window.
-/

namespace Sys2Proof.Machine

open Sys2Proof

/-! ### Faults (R264 to R266) -/

/-- A fault record (Table 10.12). -/
def faultRecord (l : Nat) (e : QEntry) (f : DmaFault) : List Byte :=
  leBytes 4 f.src.toNat ++ leBytes 2 l ++ leBytes 2 f.fid.toNat ++ leBytes 8 f.time.toNat ++ leBytes 1 f.kind ++
    leBytes 1 f.at_.ctx ++ leBytes 1 e.desc.opcode ++ leBytes 1 f.at_.field ++ leBytes 4 f.progress ++ leBytes 8 f.at_.addr ++
    leBytes 8 f.paddr ++ leBytes 4 e.acc ++ leBytes 4 e.desc.spanTag ++ leBytes 16 0

/-- The pieces of a range of the pinned map, all in memory of this module. -/
def State.mappedHere (s : State) (p a n : Nat) : Option (List (Nat × Nat)) :=
  (s.mappedPieces p a n).filter fun l => l.all fun x => (s.remoteOf x.1).isNone && s.isMemoryRange x.1 x.2

/-- A place in a partition's fault ring: the pieces of slot TAIL in the pinned map, none where the ring is full or does not lie
within the map (R266, Table 10.20). -/
def State.faultSlot (s : State) (p : Nat) : Option (List (Nat × Nat)) :=
  let size := 2 ^ s.field .MOD_XLT_FR_CTRL p 0 21 17
  let tail := s.field .MOD_XLT_FR_CTRL p 0 16 0
  let head := s.field .MOD_XLT_FR_HEAD p 0 16 0
  let base := s.pair .MOD_XLT_FR_LO .MOD_XLT_FR_HI p
  if (tail + 2 ^ 17 - head) % 2 ^ 17 = size ∨ (s.mappedHere p base (64 * size)).isNone then none
  else s.mappedHere p (base + 64 * (tail % size)) 64

/-- Pending fault records written while there is room, each by the DE of its core and with the partition's vector for DE faults.
`fuel` bounds their number. -/
def State.flushFaults : Nat → Nat → State → State
  | 0, _, s => s
  | fuel + 1, p, s =>
    match (s.part p).faults, s.faultSlot p with
    | r :: rest, some ps =>
      let tail := s.field .MOD_XLT_FR_CTRL p 0 16 0
      let s := (s.writeTargets (.de (Fin.ofNat 768 (fieldLe r 4 2))) ps r).setField .MOD_XLT_FR_CTRL p 0 16 0 ((tail + 1) % 2 ^ 17)
      State.flushFaults fuel p ((s.modPart p fun x => { x with faults := rest }).msixVf p 2)
    | _, _ => s

def State.flush (s : State) (p : Nat) : State := State.flushFaults ((s.part p).faults.length + 1) p s

/-! ### Accesses -/

def DeAddr.plus (a : DeAddr) (n : Nat) : DeAddr := { a with addr := a.addr + n, off := a.off + n }

/-- Bytes from an access on to the access that the instruction was paused on before it began again (R268). -/
def QEntry.due (e : QEntry) (a : DeAddr) : Option Nat :=
  match e.fault with
  | none => none
  | some f =>
    if f.again && f.at_.field == a.field && f.progress == e.progress && decide (a.off ≤ f.at_.off) &&
        (decide (e.desc.opcode ≠ 4) || f.sub == e.sub) then some (f.at_.off - a.off) else none

/-- An instruction pauses on a fault: it takes the next fault ID, its record goes to the ash log at once and to the fault
ring when there is room (R265, R266). One that began again and comes back to its faulting access pauses there again, with its ID
and no second record (R268). -/
def State.deFault (s : State) (l : CoreId) (p acc kind : Nat) (a : DeAddr) (paddr : Nat) : State :=
  match s.entry l 2 acc with
  | none => s
  | some e =>
    if e.due a = some 0 then
      s.modEntry l 2 acc fun e => { e with fault := e.fault.map fun f => { f with again := false }, walk := none }
    else
      let fid := (s.core l).faultSeq + 1
      let f : DmaFault :=
        { fid := fid, kind := kind, at_ := a, progress := e.progress, sub := e.sub,
          paddr := if kind = 2 ∨ kind = 5 ∨ kind = 7 then paddr else 0, time := s.gtb (l / 192), src := s.srcCore l 3 }
      let s := (s.modCore l fun c => { c with faultSeq := fid }).modEntry l 2 acc fun e => { e with fault := some f, walk := none }
      let detail := ofLe (leBytes 2 fid.toNat ++ leBytes 1 kind ++ leBytes 1 a.ctx ++ leBytes 1 e.desc.opcode ++
        leBytes 1 a.field ++ leBytes 2 0 ++ leBytes 8 e.progress ++ leBytes 8 f.paddr)
      let s := s.ashNow f.src 0x0A 0 p (s.physOf l) l (BitVec.ofNat 32 e.desc.spanTag) a.addr 0 detail
      let s := s.traceUnit (some p) (s.mode 0 (.de l))
        { unit := .de l, src := f.src, kind := 9, epoch := 0, sel := 2, op := e.desc.opcode, acc := acc, span := e.desc.spanTag,
          arg := fid.toNat + kind * 2 ^ 32 }
      (s.modPart p fun x => { x with faults := x.faults ++ [faultRecord l e f] }).flush p

/-- What an access of an instruction comes to. A fault carries the partition address of the access. -/
inductive DeAcc (α : Type) where
  | ok (x : α)
  | wait
  | fault (kind paddr : Nat)

/-- The instruction waits for a walk. -/
def State.askWalk (s : State) (l acc : Nat) (a : DeAddr) : State :=
  s.modEntry l 2 acc fun e => { e with walk := some (a, false) }

/-- A remote write of a DE: it is sent and counted for its queue, and its answer awaited, since a refusal pauses the instruction at
this access (R255, R265, R301, R303, R304; log entry 51). Requests of one instruction are told apart by its accepted count. -/
def State.deRemoteWrite (s : State) (l : CoreId) (acc m a : Nat) (bs : List Byte) : RemoteRead × State :=
  let found := s.remotes.findSome? fun (tag, r) =>
    match r with
    | none => none
    | some r =>
      if r.unit = some (.de l) && r.grp == some acc && r.pk.op.toNat == opWrite && r.pk.dst.toNat == m && r.pk.addr.toNat == a &&
          r.pk.data == bs then some (tag, r) else none
  match found with
  | some (tag, r) =>
    match r.resp, r.refused with
    | some _, _ => (.data [], (s.dropRemote tag).addCount .CORE_CNT_LO (s.physOf l) 6 bs.length)
    | none, some why => (.refused why, s.dropRemote tag)
    | none, none => (.waiting tag, s)
  | none =>
    let r := s.request (.de l) (some acc) m opWrite a bs.length bs
    match (SMap.get none r.2.remotes r.1).bind (·.refused) with
    | some why => (.refused why, r.2.dropRemote r.1)
    | none => (.waiting r.1, r.2.modEntry l 2 acc fun e => { e with remoteWrites := e.remoteWrites + 1 })

/-- A read of at most `n` bytes at `x`, up to 4,096 and no further than the translation is linear. -/
def State.deRead (s : State) (l : CoreId) (p acc : Nat) (e : QEntry) (x : DeAddr) (n : Nat) : DeAcc (List Byte) × State :=
  if e.due x = some 0 then (.fault 0 0, s)
  else
    let t := s.translate l p x.ctx x.addr e.held
    match t.1 with
    | .walk => (.wait, t.2.askWalk l acc x)
    | .fault k pa => (.fault k pa, t.2)
    | .here a len pa =>
      let m := min (min (min n len) 4096) ((e.due x).getD n)
      match t.2.remoteOf a with
      | some dst =>
        let r := t.2.remoteRead (.de l) (some acc) dst (a % 2 ^ 42) m
        (match r.1 with
          | .data bs => .ok bs
          | .waiting _ => .wait
          | .refused _ => .fault 7 pa, r.2)
      | none =>
        if t.2.targetStalls a m then (.wait, t.2)
        else if t.2.targetHere a m then
          let r := t.2.readTarget (.de l) a m
          (.ok r.1, r.2)
        else (.fault 5 pa, t.2)

/-- A write of the first bytes of `bs` at `x`, as many as the translation is linear for: how many were written. A granule in a
stream queue's region is written by itself (R321). -/
def State.deWrite (s : State) (l : CoreId) (p acc : Nat) (e : QEntry) (x : DeAddr) (bs : List Byte) : DeAcc Nat × State :=
  if e.due x = some 0 then (.fault 0 0, s)
  else
    let t := s.translate l p x.ctx x.addr e.held
    match t.1 with
    | .walk => (.wait, t.2.askWalk l acc x)
    | .fault k pa => (.fault k pa, t.2)
    | .here a len pa =>
      let m := min (min bs.length len) ((e.due x).getD bs.length)
      match t.2.remoteOf a with
      | some dst =>
        let r := t.2.deRemoteWrite l acc dst (a % 2 ^ 42) (bs.take m)
        (match r.1 with
          | .data _ => .ok m
          | .waiting _ => .wait
          | .refused _ => .fault 7 pa, r.2)
      | none =>
        if t.2.targetStalls a m then (.wait, t.2)
        else
          match windowOf a with
          | some (k, off) =>
            let m := if t.2.blockLm k < off + m then min m (64 - off % 64) else m
            if !t.2.targetHere a m then (.fault 5 pa, t.2)
            else
              match t.2.windowWrite l true (.de acc) (windowWrites a (bs.take m)) with
              | .inl s' => (.wait, s')
              | .inr s' => (.ok m, s'.countLocal (.de l) k m true)
          | none => if t.2.targetHere a m then (.ok m, t.2.writeTarget (.de l) a (bs.take m)) else (.fault 5 pa, t.2)

/-! ### Moves -/

/-- How a move goes on: bytes advanced, or a stop with the access that caused it. -/
inductive Moved where
  | by (n : Nat)
  | wait
  | fault (kind : Nat) (at_ : DeAddr) (paddr : Nat)

/-- Bytes moved: counted for the trace record of the instruction and as nominal work of the DE (R346). -/
def State.movedDe (s : State) (l : CoreId) (acc m : Nat) : State :=
  (s.modEntry l 2 acc fun e => { e with held := none, wrote := e.wrote + m }).addNominal l 3 m

/-- Bytes of a move that can be written now: of `got` bytes in hand out of `n` those that fill whole 64-byte granules of the
destination, or all (R255, R286). -/
def wholeGranules (dst got n : Nat) : Nat := if n ≤ got then n else (dst + got) / 64 * 64 - dst

/-- One step of a move of `n` bytes from `src` to `dst`: what is read waits in the instruction's buffer until a granule of the
destination is whole, or the move's bytes are all there, and is then written (R255). With no source the bytes are `fill`. -/
def State.moveStep (s : State) (l : CoreId) (p acc : Nat) (src : Option DeAddr) (dst : DeAddr) (n : Nat) (fill : Nat → Byte) :
    Moved × State :=
  match s.entry l 2 acc with
  | none => (.wait, s)
  | some e =>
    let got := if src.isSome then e.buf.length else min n 4096
    let k := wholeGranules dst.addr got n
    match src, k with
    | some x, 0 =>
      let a := x.plus got
      let r := s.deRead l p acc e a (n - got)
      match r.1 with
      | .wait => (.wait, r.2)
      | .fault kind pa => (.fault kind a pa, r.2)
      | .ok bs => (.by 0, r.2.modEntry l 2 acc fun e => { e with buf := e.buf ++ bs, held := none })
    | _, _ =>
      let w := s.deWrite l p acc e dst (if src.isSome then e.buf.take k else (List.range k).map fill)
      match w.1 with
      | .wait => (.wait, w.2)
      | .fault kind pa => (.fault kind dst pa, w.2)
      | .ok m => (.by m, (w.2.modEntry l 2 acc fun e => { e with buf := e.buf.drop m }).movedDe l acc m)

/-- The instruction's place after `m` bytes of a unit of `n`: the next unit where it is full. -/
def State.advanceDe (s : State) (l acc m n : Nat) : State :=
  s.modEntry l 2 acc fun e =>
    if n ≤ e.sub + m then { e with progress := e.progress + 1, sub := 0, buf := [], index := none }
    else { e with sub := e.sub + m }
def State.doneDe (s : State) (l acc : Nat) : State :=
  s.modEntry l 2 acc fun e => { e with done := true, buf := [], index := none }

/-- One turn of an instruction: whether it goes on. -/
abbrev Turn := Bool × State

/-- A stopped turn: a wait, or a pause on a fault. -/
def State.stopTurn (s : State) (l : CoreId) (p acc : Nat) : Moved → Turn
  | .by _ => (true, s)
  | .wait => (false, s)
  | .fault k a pa => (false, s.deFault l p acc k a pa)

/-- An access of the unit in hand was discarded: at the byte (or phase) in hand, and at any access of a body field in `fields`,
all where there is none. -/
def QEntry.discardedAt (e : QEntry) (fields : List Nat) : Bool :=
  e.discs.any fun x => x.1 == e.progress && x.2.1 == e.sub && (fields.isEmpty || fields.contains x.2.2)

/-- Bytes of a unit from its place on, no further than a discarded access in it. -/
def QEntry.roomTo (e : QEntry) (n : Nat) : Nat :=
  e.discs.foldl (fun m x => if x.1 = e.progress ∧ e.sub < x.2.1 then min m (x.2.1 - e.sub) else m) (n - e.sub)

/-- A row of a COPY or FILL, one step (R257, R263). A discarded access ends the instruction (R267). -/
def State.rowTurn (s : State) (l : CoreId) (p acc : Nat) (e : QEntry) (rows len : Nat) (src : Option DeAddr) (dst : DeAddr)
    (fill : Nat → Byte) : Turn :=
  if rows ≤ e.progress || e.discardedAt [] then (false, s.doneDe l acc)
  else
    let r := s.moveStep l p acc src dst (e.roomTo len) fill
    match r.1 with
    | .by m => (true, r.2.advanceDe l acc m len)
    | other => r.2.stopTurn l p acc other

/-- The offset of row `i` of a COPY by its strides, i1 fastest (R257). -/
def rowOffset (dims : List (Nat × Nat × Nat)) (pick : Nat × Nat × Nat → Nat) (i : Nat) : Nat :=
  (dims.foldl (fun (v : Nat × Nat) x => (v.1 + v.2 % x.1 * pick x, v.2 / x.1)) (0, i)).1

def State.copyTurn (s : State) (l : CoreId) (p acc : Nat) (e : QEntry) : Turn :=
  let d := e.desc
  s.rowTurn l p acc e d.copyRows (d.fld 88 4)
    (some (DeAddr.plus { field := 72, ctx := d.fld 92 1, addr := d.fld 72 8 + rowOffset d.dims (·.2.1) e.progress } e.sub))
    (DeAddr.plus { field := 80, ctx := d.fld 93 1, addr := d.fld 80 8 + rowOffset d.dims (·.2.2) e.progress } e.sub) fun _ => 0

def State.fillTurn (s : State) (l : CoreId) (p acc : Nat) (e : QEntry) : Turn :=
  let d := e.desc
  s.rowTurn l p acc e (d.fld 92 4) (d.fld 88 4) none
    (DeAddr.plus { field := 72, ctx := d.fld 104 1, addr := d.fld 72 8 + e.progress * d.fld 96 8 } e.sub)
    fun j => BitVec.ofNat 8 (d.fld (80 + (e.sub + j) % 8) 1)

/-! ### Indexed operations (R258 to R260) -/

def Desc.esize (d : Desc) : Nat := d.fld 100 4
/-- A null index: an unsigned index of LIMIT or above (R258). -/
def Desc.isNull (d : Desc) (x : W64) : Bool := decide (d.fld 120 4 ≠ 0) && decide (d.fld 120 4 ≤ x.toNat)
/-- The indexed side's address of an element. -/
def Desc.elemAddr (d : Desc) (x : W64) : Nat := (d.fld 72 8 + x.toNat * d.fld 104 8) % 2 ^ 64
/-- The contiguous side's address of element `i`. -/
def Desc.dataAddr (d : Desc) (i : Nat) : DeAddr := { field := 88, ctx := d.fld 114 1, addr := d.fld 88 8 + i * d.esize }
def Desc.baseAddr (d : Desc) (x : W64) : DeAddr := { field := 72, ctx := d.fld 112 1, addr := d.elemAddr x }

/-- An element lies in the arenas that the operation needs, and a read of it not in the instruction's own written range
(R94, R253). -/
def State.elemOk (s : State) (l : CoreId) (p : Nat) (d : Desc) (x : W64) : Bool :=
  let a := d.elemAddr x
  let ctx := d.fld 112 1
  let m := s.masksOf l p d.spanTag
  let own : BodyRange := wrRange 88 (d.fld 114 1) (d.fld 88 8) (d.fld 96 4 * d.esize)
  (decide (ctx = 255) || decide (a + d.esize ≤ 2 ^ 56)) &&
    (if d.opcode = 2 then inArenas (s.core l).arenas (m.1 ||| m.2) ctx a d.esize && !own.meets (rdRange 72 ctx a d.esize)
     else inArenas (s.core l).arenas m.2 ctx a d.esize)

/-- The index of the element in hand: read once from the tensor, and kept (R258). A dense REDUCE has x_i = i. -/
def State.indexTurn (s : State) (l : CoreId) (p acc : Nat) (e : QEntry) : DeAcc W64 × DeAddr × State :=
  let d := e.desc
  let w := d.idxWidth
  let a : DeAddr := { field := 80, ctx := d.fld 113 1, addr := d.fld 80 8 + e.progress * w }
  if d.isDense then (.ok (BitVec.ofNat 64 e.progress), a, s)
  else
    match e.index with
    | some x => (.ok x, a, s)
    | none =>
      let r := s.deRead l p acc e a w
      match r.1 with
      | .wait => (.wait, a, r.2)
      | .fault k pa => (.fault k pa, a, r.2)
      | .ok bs =>
        let v := ofLe bs
        let x : W64 :=
          if (d.fld 115 1).testBit 1 && w == 4 then (BitVec.ofNat 32 v).signExtend 64 else BitVec.ofNat 64 v
        (.ok x, a, r.2.modEntry l 2 acc fun e => { e with index := some x, held := none })

/-- A null or discarded element: GATHER writes zeros in its place, the others nothing. Where those zeros cannot be written the
instruction faults as at any access; once that access is discarded, the element is left out (R267; log entry 24). -/
def State.skipTurn (s : State) (l : CoreId) (p acc : Nat) (e : QEntry) : Turn :=
  let d := e.desc
  if d.opcode ≠ 2 then (true, s.advanceDe l acc d.esize d.esize)
  else
    let r := s.moveStep l p acc none ((d.dataAddr e.progress).plus e.sub) (d.esize - e.sub) fun _ => 0
    match r.1 with
    | .by m => (true, r.2.advanceDe l acc m d.esize)
    | .fault k a pa =>
      if e.discardedAt [88] then (true, r.2.advanceDe l acc d.esize d.esize) else r.2.stopTurn l p acc (.fault k a pa)
    | .wait => (false, r.2)

/-- One word of a REDUCE (R260): the operand is read, and the operation performed at the home of its target. -/
def State.reduceTurn (s : State) (l : CoreId) (p acc : Nat) (e : QEntry) (x : W64) : Turn :=
  let d := e.desc
  let code := natBits (d.fld 116 1) 3 0
  let w := opWidth code
  let src := (d.dataAddr e.progress).plus e.sub
  let dst := (d.baseAddr x).plus e.sub
  let r : DeAcc (List Byte) × State :=
    if w ≤ e.buf.length then (.ok e.buf, s) else s.deRead l p acc e src w
  match r.1 with
  | .wait => (false, r.2)
  | .fault k pa => r.2.stopTurn l p acc (.fault k src pa)
  | .ok bs =>
    let s := r.2.modEntry l 2 acc fun e => { e with buf := bs }
    let t := s.translate l p dst.ctx dst.addr e.held
    if e.due dst = some 0 then s.stopTurn l p acc (.fault 0 dst 0)
    else
      match t.1 with
      | .walk => (false, t.2.askWalk l acc dst)
      | .fault k pa => t.2.stopTurn l p acc (.fault k dst pa)
      | .here a _ pa =>
        if (t.2.remoteOf a).isSome || (windowOf a).isSome || !t.2.isMemoryRange a w then t.2.stopTurn l p acc (.fault 5 dst pa)
        else if t.2.homesAsleep a w then (false, t.2)
        else
          let op : MemOp :=
            { src := .reduce (queueStream l 2) acc e.progress (e.sub / w), code := Fin.ofNat 16 code, sgn := (d.fld 116 1).testBit 4,
              addr := a, operand := BitVec.ofNat 64 (ofLe bs), cmp := 0 }
          let s := (t.2.memSide (.de l) op).2
          (true, ((s.modEntry l 2 acc fun e => { e with buf := [] }).movedDe l acc w).advanceDe l acc w d.esize)

/-- One step of a GATHER, SCATTER or REDUCE. -/
def State.indexedTurn (s : State) (l : CoreId) (p acc : Nat) (e : QEntry) : Turn :=
  let d := e.desc
  if d.fld 96 4 ≤ e.progress then (false, s.doneDe l acc)
  else if e.discs.any fun x => x.1 == e.progress then s.skipTurn l p acc e
  else
    let r := s.indexTurn l p acc e
    match r.1 with
    | .wait => (false, r.2.2)
    | .fault k pa => r.2.2.stopTurn l p acc (.fault k r.2.1 pa)
    | .ok x =>
      let s := r.2.2
      if d.isNull x then s.skipTurn l p acc e
      else if !d.isDense && (e.due (d.baseAddr x) == some 0 || !s.elemOk l p d x) then s.stopTurn l p acc (.fault 6 (d.baseAddr x) 0)
      else if d.opcode = 6 then s.reduceTurn l p acc e x
      else
        let base := (d.baseAddr x).plus e.sub
        let data := (d.dataAddr e.progress).plus e.sub
        let m := if d.opcode = 2 then s.moveStep l p acc (some base) data (d.esize - e.sub) (fun _ => 0)
          else s.moveStep l p acc (some data) base (d.esize - e.sub) (fun _ => 0)
        match m.1 with
        | .by n => (true, m.2.advanceDe l acc n d.esize)
        | other => m.2.stopTurn l p acc other

/-! ### BUCKET (R261, R262, R48) -/

/-- The bucket of a length: how many boundaries it has reached (R48). -/
def bucketOf (bounds : List Nat) (v : Nat) : Nat := (bounds.filter fun b => decide (b ≤ v)).length

def Desc.recBytes (d : Desc) : Nat := d.fld 100 1 * 8
def Desc.lengthOf (d : Desc) (bs : List Byte) : Nat := fieldLe bs (4 * d.fld 101 1) 4

/-- Records in buckets below `b`. -/
def startsOf (counts : List Nat) (b : Nat) : Nat := (counts.take b).foldl (· + ·) 0

def bump (l : List Nat) (i : Nat) : List Nat := l.set i (l.getD i 0 + 1)

/-- Phases of a BUCKET, held in `sub`: counting, writing records, and bytes of the count block written. -/
def bkCounting : Nat := 0
def bkWriting : Nat := 1
def bkCounts : Nat := 2

/-- The record in hand read, piece by piece, into the buffer. -/
def State.recordTurn (s : State) (l : CoreId) (p acc : Nat) (e : QEntry) : Moved × State :=
  let d := e.desc
  let a := DeAddr.plus { field := 72, ctx := d.fld 103 1, addr := d.fld 72 8 + e.progress * d.recBytes } e.buf.length
  let r := s.deRead l p acc e a (d.recBytes - e.buf.length)
  match r.1 with
  | .wait => (.wait, r.2)
  | .fault k pa => (.fault k a pa, r.2)
  | .ok bs => (.by bs.length, r.2.modEntry l 2 acc fun e => { e with buf := e.buf ++ bs, held := none })

/-- The count block: 32 counts and 32 starts. -/
def countBlock (counts : List Nat) : List Byte :=
  ((List.range 32).flatMap fun b => leBytes 4 (counts.getD b 0)) ++ (List.range 32).flatMap fun b => leBytes 4 (startsOf counts b)

/-- A buffered write of a BUCKET: bytes of `bs` that are not written yet, counted by `index`. -/
def State.putTurn (s : State) (l : CoreId) (p acc : Nat) (e : QEntry) (a : DeAddr) (bs : List Byte) (next : QEntry → QEntry) : Turn :=
  let k := (e.index.map (·.toNat)).getD 0
  let w := s.deWrite l p acc e (a.plus k) (bs.drop k)
  match w.1 with
  | .wait => (false, w.2)
  | .fault kind pa => w.2.stopTurn l p acc (.fault kind (a.plus k) pa)
  | .ok m =>
    (true, (w.2.movedDe l acc m).modEntry l 2 acc fun e =>
      if bs.length ≤ k + m then next { e with index := none, buf := [] } else { e with index := some (BitVec.ofNat 64 (k + m)) })

/-- One step of a BUCKET. -/
def State.bucketTurn (s : State) (l : CoreId) (p acc : Nat) (e : QEntry) : Turn :=
  let d := e.desc
  let n := d.fld 96 4
  let bounds := (SMap.get none s.cfg.bucket (16 * p + d.fld 102 1)).getD []
  let counts := if e.bkCount.isEmpty then List.replicate 32 0 else e.bkCount
  let done := if e.bkDone.isEmpty then List.replicate 32 0 else e.bkDone
  if e.discardedAt [] then (false, s.doneDe l acc)
  else if e.sub < bkCounts && decide (n ≤ e.progress) then
    (true, s.modEntry l 2 acc fun e => { e with progress := if e.sub = bkCounting then 0 else n, sub := e.sub + 1, buf := [] })
  else if e.sub < bkCounts && decide (e.buf.length < d.recBytes) then
    let r := s.recordTurn l p acc e
    match r.1 with
    | .by _ => (true, r.2)
    | other => r.2.stopTurn l p acc other
  else if e.sub = bkCounting then
    (true, s.modEntry l 2 acc fun e => { e with progress := e.progress + 1, buf := [],
                                                bkCount := bump counts (bucketOf bounds (d.lengthOf e.buf)) })
  else if e.sub = bkWriting then
    let b := bucketOf bounds (d.lengthOf e.buf)
    let at_ := startsOf counts b + done.getD b 0
    s.putTurn l p acc e { field := 80, ctx := d.fld 104 1, addr := d.fld 80 8 + at_ * d.recBytes } e.buf fun e =>
      { e with progress := e.progress + 1, bkDone := bump done b }
  else
    s.putTurn l p acc e { field := 88, ctx := d.fld 105 1, addr := d.fld 88 8 } (countBlock counts) fun e => { e with done := true }

/-! ### Running an instruction -/

/-- One step of a running instruction, by its opcode. -/
def State.deTurn (s : State) (l : CoreId) (p acc : Nat) (e : QEntry) : Turn :=
  match e.desc.opcode with
  | 1 => s.copyTurn l p acc e
  | 4 => s.bucketTurn l p acc e
  | 5 => s.fillTurn l p acc e
  | _ => s.indexedTurn l p acc e

/-- Steps until the instruction is done, paused or waits. `fuel` bounds them. -/
def State.runDe : Nat → CoreId → Nat → Nat → State → State
  | 0, _, _, _, s => s
  | fuel + 1, l, p, acc, s =>
    match s.entry l 2 acc with
    | none => s
    | some e =>
      if e.done then s
      else
        let r := s.deTurn l p acc e
        if r.1 then State.runDe fuel l p acc r.2 else r.2

/-- Enough steps for any descriptor that admission lets pass: each step moves at least a byte, or one record's phase. -/
def deFuel : Nat := 2 ^ 46

/-- A started instruction of the DE with the opcode of the command runs on. Nothing happens to one that is paused, waits for
a walk, or whose engine is stopped. -/
def State.runDma (s : State) (l : CoreId) (acc op : Nat) : State :=
  match s.entry l 2 acc, s.partOf l with
  | some e, some p =>
    if e.desc.opcode ≠ op || decide (e.st ≠ .running) || e.done || e.void || e.paused || e.walk.isSome || (s.core l).deStopped ||
        s.fenced l then s
    else s.runDe deFuel l p acc
  | _, _ => s

/-- COPY (R257). -/
def execCopy (l : CoreId) (acc : Nat) (s : State) : Res := .next (s.runDma l acc 1)
/-- GATHER (R259). -/
def execGather (l : CoreId) (acc : Nat) (s : State) : Res := .next (s.runDma l acc 2)
/-- SCATTER (R259). -/
def execScatter (l : CoreId) (acc : Nat) (s : State) : Res := .next (s.runDma l acc 3)
/-- BUCKET (R262). -/
def execBucket (l : CoreId) (acc : Nat) (s : State) : Res := .next (s.runDma l acc 4)
/-- FILL (R263). -/
def execFill (l : CoreId) (acc : Nat) (s : State) : Res := .next (s.runDma l acc 5)
/-- REDUCE (R260). -/
def execReduce (l : CoreId) (acc : Nat) (s : State) : Res := .next (s.runDma l acc 6)

/-- XLT_WALK_DONE (R244 to R246): the walk that an instruction waits for ends in its range caches, or in a fault. -/
def execXltWalkDone (l : CoreId) (acc : Nat) (s : State) : Res :=
  match s.entry l 2 acc, s.partOf l with
  | some e, some p =>
    match e.walk with
    | none => .next s
    | some (a, apart) =>
      let r := s.combined l p a.ctx a.addr true (!apart)
      let s := r.2.modEntry l 2 acc fun e => { e with walk := none }
      match r.1 with
      | .entry x => .next (if apart then s.modEntry l 2 acc fun e => { e with held := some x } else s)
      | .walk => .next s
      | .fault k pa =>
        if decide (e.desc.opcode = 2) && e.discardedAt [88] then .next (s.advanceDe l acc e.desc.esize e.desc.esize)
        else .next (s.deFault l p acc k a pa)
  | _, _ => .next s

/-! ### Resolutions (R267, Table 10.21) -/

/-- The instruction of a core whose pending fault an ID names. -/
def State.faulted (s : State) (l : Nat) (fid : W16) : Option QEntry :=
  (s.queue l 2).entries.find? fun e => match e.fault with
    | some f => f.fid == fid
    | none => false

/-- RETRY: the faulting access is made again; an index whose element lay outside the arenas is read again. -/
def QEntry.retry (e : QEntry) : QEntry :=
  { e with fault := none, index := if e.fault.any fun f => f.kind == 6 && !f.again then none else e.index }
def State.retryFault (s : State) (l : Nat) (e : QEntry) : State := s.modEntry l 2 e.acc QEntry.retry

/-- DISCARD: the element is skipped, or a COPY, FILL or BUCKET ends at the faulting access; one that began again comes to it
later. -/
def QEntry.discard (e : QEntry) : QEntry :=
  match e.fault with
  | none => e
  | some f =>
    let e := { e with fault := none, discs := e.discs ++ [(f.progress, f.sub, f.at_.field)] }
    if f.again then e
    else if e.desc.opcode = 1 ∨ e.desc.opcode = 4 ∨ e.desc.opcode = 5 then { e with done := true, index := none, buf := [] }
    else { e with sub := 0, index := none, buf := [] }
def State.discardFault (s : State) (l : Nat) (e : QEntry) : State := s.modEntry l 2 e.acc QEntry.discard

/-- A write of MOD_XLT_RESOLVE of partition `p`. -/
def State.xltResolveWrite (s : State) (p : Nat) (v : W32) : State :=
  let s := s.plainWrite { name := .MOD_XLT_RESOLVE, i := p } v
  let l := bitsOf v 25 16
  if s.partOf l ≠ some p then s
  else
    match s.faulted l (BitVec.ofNat 16 v.toNat) with
    | none => s
    | some e => if bitsOf v 31 30 = 1 then s.retryFault l e else if bitsOf v 31 30 = 2 then s.discardFault l e else s

def resolveWord (action l : Nat) (fid : W16) : W32 := BitVec.ofNat 32 (action * 2 ^ 30 + l * 2 ^ 16 + fid.toNat)

/-- FAULT_RESOLVE_RETRY (R267). -/
def execFaultResolveRetry (a : Agent) (p : PartId) (l : CoreId) (fid : W16) (s : State) : Res :=
  if s.mayWrite a { name := .MOD_XLT_RESOLVE, i := p } then .next (s.xltResolveWrite p (resolveWord 1 l fid)) else .next s

/-- FAULT_RESOLVE_DISCARD (R267). -/
def execFaultResolveDiscard (a : Agent) (p : PartId) (l : CoreId) (fid : W16) (s : State) : Res :=
  if s.mayWrite a { name := .MOD_XLT_RESOLVE, i := p } then .next (s.xltResolveWrite p (resolveWord 2 l fid)) else .next s

/-- A write of MOD_XLT_FR_HEAD, or of another register of the ring: it may release a pending record (R266). -/
def State.frWrite (s : State) (r : RegRef) (v : W32) : State := (s.plainWrite r v).flush r.i

/-- FR_HEAD_WRITE (R266). -/
def execFrHeadWrite (a : Agent) (p : PartId) (v : W32) (s : State) : Res :=
  if s.mayWrite a { name := .MOD_XLT_FR_HEAD, i := p } then .next (s.frWrite { name := .MOD_XLT_FR_HEAD, i := p } v) else .next s

/-- XLT_SWAP_DONE (R249): the Stoker ends its check. A refusal changes nothing but FAIL and REASON; a swap in order waits
for earlier walks, drops the stage-2 entries and is in force, and pending fault records may find their ring (R266). -/
def execXltSwapDone (p : PartId) (s : State) : Res :=
  match (s.part p).swap with
  | none => .next s
  | some (root, n, pin, pn) =>
    let r := s.swapReason p root n pin pn
    let fin (s : State) : State := (s.setField .MOD_XLT_SWAP p 0 30 30 0).modPart p fun x => { x with swap := none }
    if r.1 ≠ 0 then .next ((((fin s).setField .MOD_XLT_SWAP p 0 29 29 1).setField .MOD_XLT_SWAP p 0 27 24 r.1))
    else if s.marked p then .next s
    else
      let s := (fin s).dropRanges p (fun _ => true) (fun e => e.1 == 2)
      let s := s.modPart p fun x => { x with s2 := some (root, n), pinned := r.2.2, pinnedAt := pin }
      .next ((s.setField .MOD_XLT_SWAP p 0 28 28 1).flush p)

end Sys2Proof.Machine
end

