-- ==== Sys2Proof/Machine/QueueCmds.lean ====
section
/-!
DEFINITION. The life of an instruction in its queue (R80, R81, R87, R88, R334, R337, R338): start, completion, commit.
-/

namespace Sys2Proof.Machine

open Sys2Proof

/-- Two instructions of a DE may run at once (R254): neither is indexed, and no written range of one meets a range of the
other. -/
def mayOverlap (a b : Desc) : Bool :=
  !a.isIndexed && !b.isIndexed && a.deRanges.all fun x => b.deRanges.all fun y => !((x.wr || y.wr) && x.meets y)

/-- The instructions of a queue that have started and not completed. -/
def Queue.running (q : Queue) : List QEntry := q.entries.filter fun e => decide (e.st = .running)

/-- The start of an instruction as its engine records it, with its trace record. The counts of the core's stream queues
are noted (R324). -/
def State.markStarted (s : State) (l : CoreId) (q : Nat) (e : QEntry) (done : Bool) : State :=
  let s := s.modEntry l q e.acc fun x => { x with st := .running, done := done, pushBase := if q = 2 then s.pushCounts l else [] }
  s.traceStart l q e

/-- A NOP starts when its waits are satisfied and completes at once; its signals follow those of the instructions before it (R87). -/
def State.startNop (s : State) (l : CoreId) (q : Nat) (e : QEntry) : Option State :=
  if !s.waitsMet l q e || s.engineStopped l q || s.fenced l || (q == 2 && (s.queue l 2).running.any QEntry.paused) then none
  else some ((s.markStarted l q e true).completeEntry l q e [])

/-- A DMA instruction starts: at most four run, none is paused, and R254 lets it. -/
def State.startDma (s : State) (l : CoreId) (e : QEntry) : Option State :=
  let run := (s.queue l 2).running
  if !s.waitsMet l 2 e || s.engineStopped l 2 || s.fenced l || decide (4 ≤ run.length) || run.any QEntry.paused ||
      !run.all (fun r => mayOverlap r.desc e.desc) then none
  else some (s.markStarted l 2 e false)

/-- The oldest unstarted instruction of a queue starts, if it can (R81). -/
def State.startInstr (s : State) (l : CoreId) (q : Nat) (e : QEntry) : Option State :=
  if e.desc.opcode = 0 then s.startNop l q e
  else
    match q with
    | 0 => s.startLaunch l
    | 1 => s.startMma l
    | 2 => s.startDma l e
    | _ => s.startAttend (Fin.ofNat 12 (q - 4)) l

/-- The waits of an instruction that are not satisfied register at their homes (R278). -/
def State.registerWaits (s : State) (l q : Nat) (e : QEntry) : State :=
  e.desc.waitSlots.foldl (fun s w =>
    let who := entryWaiter l q e.acc
    let k := counterOf l w.1
    if s.waitMet who k w.2 then s else s.registerWait { who := who, expected := w.2 } k) s

/-- INSTR_START (R81): the oldest unstarted instruction of a queue starts, and its registrations are over, or those of its waits
that are not satisfied stand at their homes (R278). -/
def execInstrStart (l : CoreId) (q : QSel) (s : State) : Res :=
  if !isQueue q then .next s
  else
    match (s.queue l q).oldestPending with
    | none => .next s
    | some e =>
      if e.void then .next s
      else match s.startInstr l q e with
      | some s' => .next s'
      | none => .next (s.registerWaits l q e)

/-- INSTR_COMPLETE (R88, R338): a running instruction whose writes are visible completes; its signals join the queue's stream behind
those of earlier instructions. -/
def execInstrComplete (l : CoreId) (q : QSel) (acc : Nat) (s : State) : Res :=
  match s.entry l q acc with
  | none => .next s
  | some e =>
    if decide (e.st ≠ .running) || e.void || !e.done || e.paused || decide (e.remoteWrites ≠ 0) then .next s
    else
      let e := if q.val = 1 && e.desc.opcode == 1 then { e with wrote := e.desc.mmaM * e.desc.mmaN * outBytes e.desc.ofmt } else e
      .next (s.completeEntry l q e [])

/-- Answers that an instruction no longer waits for are dropped when it commits. -/
def State.dropAnswers (s : State) (l : CoreId) (acc : Nat) : State :=
  { s with remotes := s.remotes.filter fun e => match e.2 with
      | some r => !(decide (r.unit = some (.de l)) && r.grp == some acc)
      | none => true }

/-- The reduce marks of an instruction are released at its commit (Table 13.5). -/
def State.dropMarks (s : State) (stream : W32) (acc : Nat) : State :=
  { s with opRecords := s.opRecords.filter fun o => match o with
      | .reduceMark _ st a _ _ => !(st == stream && a == acc)
      | _ => true }

/-- Blocks of a LAUNCH's grid that still hold a record (R337). -/
def State.gridRecords (s : State) (l slot : Nat) : Bool :=
  match s.partOf l with
  | none => false
  | some p => (s.clustersOf p).any fun c => (s.cluster c).blocks.any fun b => match b.2 with
      | some x => x.publisher == l && x.pslot == slot
      | none => false

/-- The first signal sequence of an instruction (R86, R207). -/
def QEntry.firstSeq (e : QEntry) (q : Nat) : Option W32 :=
  if decide (4 ≤ q) && e.desc.opcode == 1 && e.desc.fld 92 3 != 0 then some (BitVec.ofNat 32 (e.desc.fld 96 4))
  else e.desc.sigSlots.head?.map (·.seq)

/-- The sequence up to which a queue's signals are of committed instructions (R276). -/
def Queue.committedSeq (x : Queue) (q : Nat) : W32 :=
  match x.entries.findSome? fun e => e.firstSeq q with
  | some n => n - 1
  | none => x.sigSeq

/-- INSTR_COMMIT (R337): a complete instruction whose signals are all acknowledged frees its slot and record, and releases
its signals; an MMA's flags are merged (R178), and a LAUNCH waits for the records of its grid's blocks. -/
def execInstrCommit (l : CoreId) (q : QSel) (acc : Nat) (s : State) : Res :=
  match s.entry l q acc with
  | none => .next s
  | some e =>
    let blocksLeft := match e.slot with
      | some k => s.gridRecords l k
      | none => false
    if decide (e.st ≠ .complete) || e.void || !e.unacked.isEmpty || decide (e.remoteWrites ≠ 0) || blocksLeft then .next s
    else
      let s := s.modQueue l q fun x => { x with entries := x.entries.filter fun y => y.acc != acc }
      let s := s.dropMarks (queueStream l q) acc
      let s := if q.val = 2 then s.dropAnswers l acc else s
      let s := s.release (queueStream l q) ((s.queue l q).committedSeq q)
      let s :=
        if q.val = 1 then
          (s.setMuFlags l (SMap.get 0 (s.core l).mu.pendFlags acc)).modMU l fun u =>
            { u with pendFlags := SMap.set 0 u.pendFlags acc 0 }
        else s
      .next (s.traceInstr l q e 3 0)

end Sys2Proof.Machine
end

