-- ==== Sys2Proof/Machine/ThreadSync.lean ====
section
/-!
DEFINITION. Counter waits and signals of groups, and MQPUSH (R115, R116, R154 to R156, R275).
-/

namespace Sys2Proof.Machine

open Sys2Proof

/-- A wait of a group is over (R154): the observed value goes to a uniform destination, and the L1 is invalidated where
the instruction asks for it. -/
def State.groupWake (s : State) (l gi : Nat) (dst : Option Nat) (inval : Bool) (v : W64) : State :=
  let s := s.modGroup l gi fun g =>
    let g := { g with status := .ready }
    match dst with
    | some r => g.putU r v
    | none => g
  if inval then s.modVE l fun x => { x with l1 := [] } else s

/-- GROUP_CWAIT (R115, R154): a wait not satisfied registers at the counter's home; the group goes on when it is woken. -/
def execGroupCwait (l : CoreId) (gi : GroupId) (w : TWord) (s : State) : Res :=
  s.threadIssue 0x240 l gi w fun s g b =>
    if (w.acting g).isEmpty then .next (s.finish l gi w g)
    else
      let h := (w.valA g true 0).toNat % 2 ^ 24
      let x := w.valB g true 0
      let dst := if w.ud then some w.dst.toNat else none
      let inval := w.opx.getLsbD 0
      if !s.coreHandle l h then .next (s.groupFault l gi g b 1 0 h)
      else
        let k := counterOf l h
        let s' := s.finish l gi w g
        if s.waitMet (.group l gi) k x then
          .next ((s'.groupWake l gi dst inval (s.value k)).traceWait l true (s.value k))
        else
          .next ((s'.setGroup l gi (some { g.advance w with status := .waiting dst k x inval })).registerWait
            { who := .group l gi, expected := x } k)

/-- Bits of a group's signal number n (R275). -/
def csigBits : Nat := 2 ^ 27

/-- The sequence number of a group's n-th signal (Table 11.5). -/
def groupSeq (gi n : Nat) : W32 := BitVec.ofNat 32 (gi % 32 * csigBits + n)

/-- GROUP_CSIG (R116, R155): the signal joins its block's stream, stamped with its group and number; the group goes on once
SIGNAL_SEND has sent it. -/
def execGroupCsig (l : CoreId) (gi : GroupId) (w : TWord) (s : State) : Res :=
  s.threadIssue 0x241 l gi w fun s g b =>
    if (w.acting g).isEmpty then .next (s.finish l gi w g)
    else
      let h := (w.valA g true 0).toNat % 2 ^ 24
      let kind := w.opxBits 1 0
      let ok := match s.partOf l with
        | none => false
        | some p => s.targetOk p kind h
      if !ok || decide (csigBits ≤ g.csigN) then .next (s.groupFault l gi g b 1 0 h)
      else
        let st := blockStream b.core b.gen g.block
        let n := groupSeq g.gi g.csigN
        let g' := if w.ud then g.putU w.dst.toNat (BitVec.ofNat 64 g.csigN) else g
        .next ((s.setGroup l gi (some { g'.advance w with csigN := g.csigN + 1, status := .signalling n })).queueSignal st
          (s.mkSig l st n h kind (w.valB g true 0)))

/-- MQPUSH (R156): the group stalls alone until the MU queue has a slot and the record store a record. -/
def execMqpush (l : CoreId) (gi : GroupId) (w : TWord) (s : State) : Res :=
  s.threadIssue 0x280 l gi w fun s g _ =>
    if (w.acting g).isEmpty then .next (s.finish l gi w g)
    else
      .next (((s.tidyRecords (l / 8)).setGroup l gi (some { g with
        status := .mqStall w.srcA.toNat (if w.ud then some w.dst.toNat else none) })).askRecord l)

/-- The descriptor that a vector register spells: lane l supplies bytes 4l to 4l + 3. -/
def groupDesc (g : Group) (src : Nat) : Desc :=
  descOf ((List.range 32).flatMap fun k => leBytes 4 (g.vreg src k).toNat)

/-- MQPUSH_ADMISSION (R156, R93): the descriptor of a stalled MQPUSH enters the MU queue, or the group halts with code 7
and the control core takes interrupt 16. A further fault makes the interrupt pending again while VALID is set (DESIGN CHOICE,
log entry 86). -/
def execMqpushAdmission (l : CoreId) (gi : GroupId) (s : State) : Res :=
  match s.group l gi with
  | none => .next s
  | some g =>
    match g.status, s.block (l / 8) g.block with
    | .mqStall src dst, some b =>
      if (s.core l).ve.stopped || s.fenced l then .next s
      else if !s.canAccept l 1 then .next (s.askRecord l)
      else
        match s.offerDesc l 1 (s.mode 0 (.cc l)) (groupDesc g src) with
        | .accepted n s' =>
          let g := { g with pc := g.pc + 8, status := .ready }
          .next (s'.setGroup l gi (some (match dst with
            | some r => g.putU r (BitVec.ofNat 64 n)
            | none => g)))
        | .failed f s' =>
          .next (((s'.recordAdmission l 1 gi 1 f g.pc).setMip l 16 true).groupFault l gi g b 7 0 g.pc)
    | _, _ => .next s

end Sys2Proof.Machine
end

