-- ==== Sys2Proof/Machine/SyncCmds.lean ====
section
/-!
DEFINITION. The commands of counters, waits and barrier slots (11): signals sent and applied, arrivals, registrations and
wakes, slot registers, and the view.
-/

namespace Sys2Proof

/-- The signal names a system counter. -/
def SigMsg.system (m : SigMsg) : Bool :=
  match m.kind, Machine.counterScope m.ctr with
  | .arrive, _ => false
  | _, some (3, _) => true
  | _, _ => false

/-- The registers of a barrier slot. -/
def RegName.ofSlot : RegName → Bool
  | .FCH_SLOT_CFG | .FCH_SLOT_COMP | .FCH_SLOT_PARENT | .FCH_SLOT_INDEX | .FCH_SLOT_MASK
  | .FCH_SLOT_PHASE_LO | .FCH_SLOT_PHASE_HI | .FCH_SLOT_STATUS => true
  | _ => false

end Sys2Proof

namespace Sys2Proof.Machine

open Sys2Proof

/-! ### Signals -/

/-- The sequence number of a group's signal names the group (Table 11.5). -/
def State.groupWrites (s : State) (st seq : W32) : Nat :=
  let c := bitsOf st 25 16 / 8
  let r := bitsOf st 7 0
  ((s.core (streamCore st)).ve.groups.filterMap (·.2)).foldl (fun n g =>
    if g.block = r ∧ g.gi % 32 = bitsOf seq 31 27 then n + g.remoteWrites else n)
    (match s.block c r with
    | some b => if b.st = .ended then b.remoteWrites else 0
    | none => 0)

/-- The source of a stream may send (R88, R67, R116, R304): its earlier stores are performed; before a signal to a system
counter, its remote writes are acknowledged. Nothing leaves a unit that is stopped (R393) or whose core migrates or is lost;
signals of grate commands leave all the same (R343). -/
def State.sourceReady (s : State) (st seq : W32) (system : Bool) : Bool :=
  let l := streamCore st
  let c := s.core l
  if st.getLsbD 31 then !s.fenced l && !c.ve.stopped && (!system || decide (s.groupWrites st seq = 0))
  else
    match bitsOf st 3 0 with
    | 3 => !s.fenced l && !c.cc.stopped && c.cc.stores.isEmpty && (!system || decide (c.cc.remoteWrites = 0))
    | q =>
      (decide (4 ≤ q) || !s.fenced l) && !s.engineStopped l q &&
        (!system || (s.queue l q).entries.all fun e => decide (e.remoteWrites = 0))

/-- The next signal of a stream may follow the ones sent before it (R275, R276): they are acknowledged, or went to the same
home; and for an ADD at a home of this module a delivery record is free. -/
def State.mayFollow (s : State) (x : SStream) (g : Sig) : Bool :=
  (x.sent.getLast?.all fun p => p.home == g.home) &&
    (decide (g.msg.kind = .arrive) || (homeModule g.home).isSome || s.sigOutcome g.msg != .held)

/-- A signal as it leaves: with the source number of the slot that its engine runs in then (R22), for the home that the directory
names then (R289). -/
def State.stamped (s : State) (stream : W32) (g : Sig) : Sig :=
  { g with home := if g.msg.kind = .arrive then g.home else s.sigHome g.msg.ctr, msg := { g.msg with src := s.streamSrc stream } }

/-- An ADD to another module leaves a delivery record there, which the stream's release discards (R276). -/
def SStream.note (x : SStream) (g : Sig) : SStream :=
  match homeModule g.home, g.msg.kind with
  | some m, .add => { x with away := (x.away.filter fun a => a.1 != m) ++ [(m, g.msg.seq)] }
  | _, _ => x

/-- A stream's signal on its way: it waits for its acknowledgement, and travels to another module as a SIGNAL packet (R277). -/
def State.sendSignal (s : State) (stream : W32) (g : Sig) : State :=
  let x := s.stream stream.toNat
  let s := s.setStream stream.toNat ({ x with sent := if x.sent.contains g then x.sent else x.sent ++ [g] }.note g)
  match homeModule g.home with
  | none => s
  | some m =>
    s.ask (sigKey stream g.msg.seq) m opSignal stream.toNat (handleOf g.msg.ctr + g.msg.kind.code <<< 24) 12 g.msg.seq.toNat
      (leBytes 8 g.msg.operand.toNat ++ leBytes 4 g.msg.src.toNat)

/-- The group whose CSIG has now left goes on (R116). -/
def State.signalled (s : State) (stream seq : W32) : State :=
  if !stream.getLsbD 31 then s
  else
    s.modVE (streamCore stream) fun v => { v with groups := v.groups.map fun e => (e.1, e.2.map fun g =>
      if g.block = bitsOf stream 7 0 ∧ g.status = .signalling seq then { g with status := .ready } else g) }

/-- SIGNAL_SEND (R275): the next signal of a stream leaves for its home; for a control core that is the signal of the CSIG it is
in, which then retires (R67). -/
def execSignalSend (stream : W32) (s : State) : Res :=
  let x := s.stream stream.toNat
  match x.unsent with
  | g :: rest =>
    let g := s.stamped stream g
    if !s.sourceReady stream g.msg.seq g.msg.system || !s.mayFollow x g then .next s
    else .next (((s.setStream stream.toNat { x with unsent := rest }).sendSignal stream g).signalled stream g.msg.seq)
  | [] =>
    let l := streamCore stream
    match s.csigReady l with
    | none => .next s
    | some (rd, g) =>
      if stream ≠ ccStream l || !s.sourceReady stream g.msg.seq g.msg.system || !s.mayFollow x g then .next s
      else .next ((s.csigLeave l rd g).sendSignal stream g)

/-- The trace record of a delivered signal (Table 15.11, kind 4): of the control core, the group's VE or the queue's engine
that sent it. -/
def State.traceSignal (s : State) (st : W32) (g : Sig) : State :=
  let l := streamCore st
  let h := if g.msg.kind = .arrive then 0x800000 + g.slot else handleOf g.msg.ctr
  let arg := h + g.msg.seq.toNat * 2 ^ 32
  if st.getLsbD 31 then
    s.traceUnit (s.partOf l) (s.mode 0 (.ve l)) { unit := .ve l, src := s.srcCore l 1, kind := 4, epoch := 0, arg := arg }
  else
    match bitsOf st 3 0 with
    | 3 => s.traceUnit (s.partOf l) (s.mode 0 (.cc l)) { unit := .cc l, src := s.srcCore l 0, kind := 4, epoch := 0, arg := arg }
    | q =>
      match (s.queue l q).entries.find? fun e => e.unacked.contains g.msg.seq with
      | none => s
      | some e => s.traceInstr l q e 4 arg

/-- The source hears that a signal of its stream was delivered (R274): the signal leaves the stream's list and its
instruction's; a block whose last signal it was may be released (R337), and a control core's stream is released up to it, since its
CSIG has then committed (R276). -/
def State.ackSignal (s : State) (st seq : W32) : State :=
  let s := match (s.stream st.toNat).sent.find? fun g => g.msg.seq == seq with
    | some g => s.traceSignal st g
    | none => s
  let s := s.ackStream st seq
  if st.getLsbD 31 then s.sweepBlocks (bitsOf st 25 16 / 8)
  else if bitsOf st 3 0 = 3 then s.release st seq
  else s

def State.ackMsg (s : State) (m : SigMsg) : State :=
  match m.stream with
  | some st => s.ackSignal st m.seq
  | none => s

/-- The signal waits at the home behind an earlier one of its stream (R275). -/
def State.behind (s : State) (m : SigMsg) : Bool :=
  match m.stream with
  | none => false
  | some st => ((s.stream st.toNat).sent.head?.any fun g => decide (g.msg ≠ m)) &&
      (s.stream st.toNat).sent.any fun g => decide (g.msg = m)

/-- A signal at its home, from a stream of this module: its effect, and the acknowledgement to the source. A refused
signal is recorded in the ash log and counts as delivered (R277). -/
def State.signalHome (s : State) (m : SigMsg) : State :=
  if s.behind m then s
  else
    match s.sigOutcome m with
    | .applied => (s.deliver m).ackMsg m
    | .duplicate => s.ackMsg m
    | .held => s
    | .refused => (s.ashNow m.src 0x0C 0 0xFF 0 0xFFFF 0 (handleOf m.ctr) 1 4).ackMsg m

/-- SIGNAL_ADD (R274, R276). -/
def execSignalAdd (m : SigMsg) (s : State) : Res := .next (s.signalHome { m with kind := .add })

/-- SIGNAL_RAISE (R274). -/
def execSignalRaise (m : SigMsg) (s : State) : Res := .next (s.signalHome { m with kind := .raise })

/-! ### Barrier slots -/

/-- An arrival of a core's engine that a slot acknowledges: the oldest sent signal of one of the core's streams. -/
def State.arrivalSent (s : State) (l slot : Nat) (phase : W64) : Option (W32 × W32) :=
  s.streams.findSome? fun e =>
    let st := BitVec.ofNat 32 e.1
    match e.2.sent with
    | [] => none
    | g :: _ =>
      if bitsOf st 25 16 = l ∧ g.msg.kind = .arrive ∧ g.slot = slot ∧ g.msg.operand = phase then some (st, g.msg.seq) else none

/-- An arrival of a core that waits behind an earlier signal of its stream (R275). -/
def State.arrivalBehind (s : State) (l slot : Nat) (phase : W64) : Bool :=
  s.streams.any fun e =>
    bitsOf (BitVec.ofNat 32 e.1) 25 16 == l &&
      e.2.sent.any fun g => decide (g.msg.kind = .arrive) && g.slot == slot && g.msg.operand == phase

/-- BARRIER_ARRIVE (R281, R282): the slot records or refuses the arrival, evaluates itself, and acknowledges. One that waits behind
an earlier signal of its stream, or for its node's domain (R366), has not arrived yet. -/
def execBarrierArrive (slot : Fin 64) (a : Arrival) (phase : W64) (s : State) : Res :=
  if !s.nodeAwake (slot / 16) then .next s
  else
    let s' := (s.arrive slot a phase).evaluate slot
    match a with
    | .child _ _ => .next s'
    | .core l =>
      match s.arrivalSent l slot phase with
      | some (st, seq) => .next (s'.ackSignal st seq)
      | none => if s.arrivalBehind l slot phase then .next s else .next s'

/-- The effect of a slot register's write (R282): clearing ENABLE discards the arrivals of both masks and keeps P. -/
def State.slotWrite (s : State) (r : RegRef) (v : W32) : State :=
  let s := s.plainWrite r v
  let s :=
    if r.name = .FCH_SLOT_CFG ∧ !(s.regOf r).getLsbD 31 then
      s.setBarrier r.i { s.barrier r.i with cur := 0, nxt := 0 }
    else s
  s.evaluate r.i

/-- SLOT_REG_WRITE (R282, R289). -/
def execSlotRegWrite (a : Agent) (r : RegRef) (v : W32) (s : State) : Res :=
  if r.name.ofSlot && s.mayWrite a r then .next (s.slotWrite r v) else .next s

/-! ### Waits -/

/-- The wait is one that its waiter stands in. -/
def State.standsIn (s : State) (w : Waiter) (k : Nat) (x : W64) : Bool :=
  match w with
  | .cc l =>
    match (s.cc l).stall with
    | some (.cwait _ k' x') => decide (k' = k) && decide (x' = x)
    | _ => false
  | .group l g =>
    match s.group l g with
    | some y =>
      match y.status with
      | .waiting _ k' x' _ => decide (k' = k) && decide (x' = x)
      | _ => false
    | none => false
  | .entry l q acc =>
    match s.entry l q acc with
    | some e => decide (e.st = .pending) && e.desc.waitSlots.any fun y => decide (counterOf l y.1 = k) && decide (y.2 = x)
    | none => false
  | .module m => decide (m.toNat ≠ s.moduleId) && (s.ownerElsewhere k).isNone

/-- One registration of a waiter removed. -/
def State.unregister (s : State) (w : Waiter) (k : Nat) (x : W64) : State :=
  let c := s.counter k
  s.setCounter k { c with waiters := c.waiters.filter fun y => !(decide (y.who = w) && y.expected == x) }

/-- The unit of a waiter cannot be woken now: its core migrates or is lost, or its region's clocks are off (R342, R366). -/
def State.wakeHeld (s : State) : Waiter → Bool
  | .cc l => s.fenced l
  | .group l _ => s.fenced l
  | .entry _ _ _ => false
  | .module _ => false

/-- A wait is over: the control core's CWAIT or the group goes on with the value; another module hears of it by WAKE
(R278). A waiting instruction starts when it is next tried. -/
def State.wake (s : State) (w : Wait) (k : Nat) (v : W64) : State :=
  match w.who with
  | .cc l =>
    match (s.cc l).stall with
    | some (.cwait rd _ _) => (s.ccRetire l rd v).traceWait l false v
    | _ => s
  | .group l g =>
    match s.group l g with
    | some y =>
      match y.status with
      | .waiting dst _ _ inval => (s.groupWake l g dst inval v).traceWait l true v
      | _ => s
    | none => s
  | .entry _ _ _ => s
  | .module m => (s.inject m.toNat opWake w.tag (handleOf k) 8 0 (leBytes 8 v.toNat)).2

/-- A wait reaches its home (R278): satisfied at once with the counter's value, registered, or to be asked again. A counter that
another module owns has its home there. -/
def State.reachHome (s : State) (w : Wait) (k : Nat) : State :=
  let v := s.value k
  if (s.ownerElsewhere k).isSome || decide (v.toNat < w.expected.toNat) then s.registerWait w k
  else if s.damperActive || s.wakeHeld w.who then s.addWaiter { w with met := some v } k
  else (s.unregister w.who k w.expected).wake w k v

/-- WAIT_REGISTER (R278): the registration reaches its home once the node is awake (R366). -/
def execWaitRegister (w : Waiter) (ctr : Nat) (expected : W64) (s : State) : Res :=
  if s.standsIn w ctr expected && s.nodeAwake (counterDie ctr) then .next (s.reachHome { who := w, expected := expected } ctr) else .next s

/-- WAIT_RETRY_TIMER (R278): a wait that found no registration free asks its home again. -/
def execWaitRetryTimer (w : Waiter) (s : State) : Res :=
  match s.retries.find? fun r => decide (r.2.who = w) with
  | none => .next s
  | some (k, x) =>
    let s' := { s with retries := s.retries.filter fun r => decide (r ≠ (k, x)) }
    if !s.nodeAwake (counterDie k) then .next s
    else if s.standsIn w k x.expected then .next (s'.reachHome x k) else .next s'

/-- A satisfied registration of a waiter, and the value that satisfied it. -/
def State.satisfied (s : State) (w : Waiter) : Option (Nat × Wait × W64) :=
  match s.waitOf w with
  | some (k, x) => x.met.map fun v => (k, x, v)
  | none => none

/-- The wake of a satisfied registration, with the value that satisfied it (R278). An instruction's registration stands until it
starts. -/
def State.deliverWake (s : State) (w : Waiter) : State :=
  match s.satisfied w, w with
  | none, _ => s
  | some _, .entry _ _ _ => s
  | some (k, x, v), _ => (s.unregister w k x.expected).wake x k v

/-- WAIT_WAKE (R278): the home wakes a satisfied waiter with the value that satisfied it; during a damper stop the wake is held
until the resume (R390), and while the core migrates until the spare has it (R342). -/
def execWaitWake (w : Waiter) (s : State) : Res :=
  if (s.satisfied w).isNone || s.wakeHeld w then .next s
  else if s.damperActive then
    if s.damper.heldWakes.contains w then .next s
    else .next { s with damper := { s.damper with heldWakes := s.damper.heldWakes ++ [w] } }
  else .next (s.deliverWake w)

/-! ### The view -/

/-- The counter that a selection names: its core or region from FCH_VIEW_WHERE (Table 11.15), the rest from the handle; none
where the handle lies outside the ranges of the agent's partition. PF0, the Stoker and the debugger see every counter. -/
def State.viewCounter (s : State) (a : Agent) (h : Nat) : Option Nat :=
  let i := handleIndex h
  let k := match handleScope h with
    | 0 => s.field .FCH_VIEW_WHERE 0 0 9 0 * 256 + i
    | 1 => 0x40000 + s.field .FCH_VIEW_WHERE 0 0 13 10 * 4096 + i
    | 2 => 0x60000 + i
    | _ => 0x80000 + i
  let fits := match handleScope h with
    | 0 => decide (i < 256)
    | 1 => decide (i < 4096)
    | 2 => decide (i < 16384)
    | _ => decide (i < 4096)
  match s.agentPart a with
  | some p => if fits && s.ownsCounter p k then some k else none
  | none => if fits && (counterScope k).isSome then some k else none

/-- The view filled with a snapshot (R283): value, SAT, waiters by source number, last signaller and its time. -/
def State.setView (s : State) (valid sat : Bool) (v : W64) (src : W32) (t : W64) (waiters : List W32) (more : Nat) : State :=
  let b (x : Bool) : Nat := if x then 1 else 0
  let s := s.setReg .FCH_VIEW_STATE 0 0 (BitVec.ofNat 32 (b valid * 2 ^ 31 + b sat * 2 ^ 30 + waiters.length * 2 ^ 16 + min more 65535))
  let s := (s.setReg .FCH_VIEW_VALUE_LO 0 0 (v.setWidth 32)).setReg .FCH_VIEW_VALUE_HI 0 0 ((v >>> 32).setWidth 32)
  let s := s.setReg .FCH_VIEW_LAST_SRC 0 0 src
  let s := (s.setReg .FCH_VIEW_LAST_TIME_LO 0 0 (t.setWidth 32)).setReg .FCH_VIEW_LAST_TIME_HI 0 0 ((t >>> 32).setWidth 32)
  (List.range 16).foldl (fun s n => s.setReg .FCH_VIEW_WAITER 0 n (waiters.getD n 0)) s

/-- A snapshot at a home of this module, in one step (R283). -/
def State.snapshot (s : State) (k : Nat) : State :=
  let c := s.counter k
  let named := (c.waiters.take 16).map s.waitSrc
  s.setView true c.sat c.value c.lastSrc c.lastTime named (c.waiters.length - 16)

/-- A write of FCH_VIEW_SEL (Table 11.16): ignored while BUSY; a counter of another module is asked for. -/
def State.viewWrite (s : State) (a : Agent) (v : W32) : State :=
  if (s.reg .FCH_VIEW_SEL).getLsbD 31 then s
  else
    let h := bitsOf v 23 0
    let s := s.setReg .FCH_VIEW_SEL 0 0 (BitVec.ofNat 32 h)
    match s.viewCounter a h with
    | none => s.setView false false 0 0 0 [] 0
    | some k =>
      match s.ownerElsewhere k with
      | none => s.snapshot k
      | some m =>
        let s' := s.takeTag.ask s.freshTag m opCounterRead s.freshTag (handleOf k) 0 0 []
        s'.setField .FCH_VIEW_SEL 0 0 31 31 1

/-- VIEW_SNAPSHOT (R283, R289). -/
def execViewSnapshot (a : Agent) (v : W32) (s : State) : Res :=
  if s.mayWrite a { name := .FCH_VIEW_SEL } then .next (s.viewWrite a v) else .next s

end Sys2Proof.Machine
end

