-- ==== Sys2Proof/Machine/Repair.lean ====
section
/-!
DEFINITION. Repair as operations (13.4, 13.5, 13.9): what a core loses when it fails, migration to the spare, replay of its
records, and the loss of data.
-/

namespace Sys2Proof.Machine

open Sys2Proof

/-! ### What a failing core loses (13.3) -/

/-- Data requests of a core's engines whose responses will be discarded (R342): all but the writes, which run on to their
acknowledgements (R343). A write of a group that stops stays counted for its block alone. -/
def State.dropRequests (s : State) (l : Nat) : State :=
  { s with remotes := (s.remotes.filter fun e =>
      match e.2 with
      | some r => !((r.unit.bind unitCore) == some l) || r.pk.op.toNat == opWrite
      | none => true).map fun e => (e.1, e.2.map fun r => match r.unit, r.grp with
        | some (.ve k), some g => if k.val = l then { r with grp := some (g / 64 * 64 + 63) } else r
        | _, _ => r) }

/-- The volatile state of a core is gone: pipelines, register files, banks, the L1, the range cache; a stalled instruction
of the control core has not retired (13.3, R336). -/
def State.loseVolatile (s : State) (l : CoreId) : State :=
  let s := (List.range 48).foldl (fun s g =>
    match s.group l g with
    | none => s
    | some _ => (s.setGroup l g none).dropWaiter (.group l (Fin.ofNat 48 g))) s
  let s := (s.dropWaiter (.cc l)).dropRequests l
  s.modCore l fun c =>
    { c with
      cc := { c.cc with stall := none }
      ve := { c.ve with groups := [], l1 := [], misses := [] }
      mu := c.mu.emptied
      l1x := [] }

/-! ### Replay (R341) -/

/-- A running DMA instruction or MMA begins again from its first access; accesses discarded before are discarded again, pushes are
counted from its start, and one that was paused on a fault pauses again at the same access with the same fault ID (R267, R268,
R324). Remote writes already sent stay counted (R343). -/
def QEntry.restart (e : QEntry) : QEntry :=
  { e with progress := 0, sub := 0, bkCount := [], bkDone := [], walk := none, held := none, buf := [], index := none,
           done := false, wrote := 0, fault := e.fault.map fun f => { f with again := true },
           pushNow := if e.pushBase.isEmpty then none else some e.pushBase }

/-- A queue's signals that were sent and not acknowledged are sent again (R341). -/
def State.resend (s : State) (stream : W32) : State :=
  let x := s.stream stream.toNat
  s.setStream stream.toNat { unsent := x.sent ++ x.unsent, sent := [] }

/-- An entry's state as Table 13.3 numbers it. -/
def QState.code : QState → Nat
  | .pending => 1
  | .running => 2
  | .complete => 3
  | .taken => 4

/-- The number of instructions and blocks restarted (Table 15.12, REPLAY). -/
def State.countReplay (s : State) (l n : Nat) : State := s.addCount .CORE_CNT_LO (s.physOf l) 9 n

/-- A replay that finds a record lost in both copies raises a service event (R353), and the instruction goes no further. -/
def State.voidEntry (s : State) (l : CoreId) (q : Nat) (e : QEntry) : State :=
  if !e.lost || e.void then s
  else
    (s.serviceEvent ((s.partOf l).getD 0xFF) (s.physOf l) l (BitVec.ofNat 32 e.desc.spanTag) e.acc 1).modEntry l q e.acc fun e =>
      { e with void := true }

/-- An instruction that a replay restarts: one of the MU's or the DE's that runs (R341). -/
def QEntry.restarts (q : Nat) (e : QEntry) : Bool :=
  (decide (q = 1) || decide (q = 2)) && decide (e.st = .running) && !e.void

/-- The uncommitted records of one queue replay, with a trace record each. A grate command that was taken runs on (R343). -/
def State.replayQueue (s : State) (l : CoreId) (q : Nat) : State :=
  let s := (s.queue l q).entries.foldl (fun s e => s.voidEntry l q e) s
  let es := (s.queue l q).entries
  let s := es.foldl (fun s e => if e.void then s else s.traceInstr l q e 10 e.st.code) s
  let s := s.modQueue l q fun x => { x with entries := x.entries.map fun e => if e.restarts q then e.restart else e }
  (s.resend (queueStream l q)).countReplay l (es.filter (·.restarts q)).length

/-- The signals of a block that restarts are sent afresh by its groups. -/
def State.clearStream (s : State) (st : W32) : State := s.setStream st.toNat {}

/-- A resident block restarts from its first instruction (R127): its groups and its local memory are allocated again, at its own
place where no other is free. Remote writes that it has sent stay counted (R343). -/
def State.restartBlock (s : State) (l r : Nat) (b : Block) : State :=
  let b := { b with st := .resident, lmBase := (s.findLm l b.lmSize).getD b.lmBase, groups := [], arrived := [],
                    pushNow := some b.pushBase }
  let r' := (s.setBlock (l / 8) r (some b)).startGroups l r b (groupsOf b.body) 0 []
  ((r'.1.setBlock (l / 8) r (some { b with groups := r'.2 })).clearStream (blockStream b.core b.gen r)).countReplay l 1

/-- The resident blocks of a core. -/
def State.residentBlocks (s : State) (l : Nat) : List (Nat × Block) :=
  (s.cluster (l / 8)).blocks.filterMap fun e =>
    match e.2 with
    | some b => if b.core = l && decide (b.st = .resident) then some (e.1, b) else none
    | none => none

/-- A service event of an UNPROT block that would have to restart (R340, R353). -/
def State.unprotEvent (s : State) (l : Nat) (b : Block) : State :=
  s.serviceEvent ((s.partOf l).getD 0xFF) (s.physOf l) l b.span b.index 1

/-- Every resident block of a core restarts, in the order of the records; a block that is not protected cannot. -/
def State.restartBlocks (s : State) (l : Nat) : State :=
  let bs := s.residentBlocks l
  let s := bs.foldl (fun s x => s.setBlock (l / 8) x.1 (some { x.2 with st := .pulled })) s
  bs.foldl (fun s x =>
    if x.2.unprot then (s.setBlock (l / 8) x.1 (some { x.2 with groups := [], arrived := [] })).unprotEvent l x.2
    else s.restartBlock l x.1 x.2) s

/-- The MMAs in the array begin again, but for those whose records are lost. -/
def State.restartMmas (s : State) (l : Nat) : State :=
  (s.modMU l fun u => { u with runs := u.runs.filter fun r => (s.entry l 1 r.acc).any fun e => !e.void }).restartMma l

/-- A core's uncommitted records replay, in the order of each queue (R341). -/
def State.replay (s : State) (l : CoreId) : State :=
  let s := ((List.range 16).filter isQueue).foldl (fun s q => s.replayQueue l q) s
  (s.restartMmas l).restartBlocks l

/-! ### Migration (R342) -/

/-- The cluster has a working spare that no migration has taken. -/
def State.hasSpare (s : State) (c : Nat) : Bool :=
  s.field .CLU_SPARE c 0 3 0 != 15 && (s.cluster c).migrating.isEmpty && (s.cluster c).test.isNone

/-- The spare of a cluster named, with its DEGRADED bit (Table 13.10). -/
def State.setSpare (s : State) (c slot : Nat) : State :=
  (s.setField .CLU_SPARE c 0 3 0 slot).setField .CLU_SPARE c 0 30 30
    (if slot < 9 ∧ (s.cluster c).degraded.contains slot then 1 else 0)

/-- A slot is marked FAILED. -/
def State.markFailed (s : State) (c slot : Nat) : State := s.setField .CLU_SPARE c 0 (16 + slot) (16 + slot) 1

/-- Steps 1 and 2: the slot is fenced, and the logical core migrates. -/
def State.beginMigration (s : State) (l : CoreId) (failed : Bool) : State :=
  let c := l.val / 8
  let s := s.loseVolatile l
  (s.modCluster c fun x => { x with migrating := x.migrating ++ [(l.val, failed, s.slotOf l)] }).setField .CLU_SPARE c 0 31 31 1

/-- A core fails with no working spare: its ID stays on no slot, and a service event is raised (R344). -/
def State.loseCore (s : State) (l : CoreId) : State :=
  let c := l.val / 8
  let slot := s.slotOf l
  let k := s.physOf l
  let s := (s.loseVolatile l).modCore l fun x => { x with lost := true, oldSlot := slot }
  let s := (s.setField .CLU_CORE_MAP c 0 (4 * (l.val % 8) + 3) (4 * (l.val % 8)) 15).markFailed c slot
  s.serviceEvent ((s.partOf l).getD 0xFF) k l

/-- A core fails (R331): it migrates to its cluster's spare, or is lost. -/
def State.failCore (s : State) (l : CoreId) : State :=
  if s.unplaced l then s
  else if s.hasSpare (l.val / 8) then s.beginMigration l true
  else s.loseCore l

/-- Registers of a physical core that a migration copies to the spare (R342 steps 3 and 4). -/
def migratedRegs : List (RegName × Nat) :=
  [(.CORE_CC_CFG, 1), (.CORE_VE_CFG, 1), (.CORE_SPAN_BASE_LO, 1), (.CORE_SPAN_BASE_HI, 1), (.CORE_SPAN_COUNT, 1),
   (.CORE_SQ_CFG, 8), (.CORE_SQ_RING, 8), (.CORE_SQ_RESV, 1)]

/-- The spare takes the failed slot's configuration; its sticky flags join those that the spare holds (R178). -/
def State.copyRegs (s : State) (k k' : Nat) : State :=
  let flags := s.reg .CORE_FP_FLAGS k ||| s.reg .CORE_FP_FLAGS k'
  let s := s.setReg .CORE_FP_FLAGS k' 0 flags
  let s := migratedRegs.foldl (fun s x => (List.range x.2).foldl (fun s j => s.setReg x.1 k' j (s.reg x.1 k j)) s) s
  let lo (i : Nat) : Nat := ({ name := .CORE_SPAN_BASE_LO, i := i } : RegRef).key
  { s with effLo := SMap.set 0 s.effLo (lo k') (SMap.get 0 s.effLo (lo k)) }

/-- Steps 3 to 8 for the logical core that migrates: configuration, core map, replay; the control core resumes after its
last retirement. -/
def State.finishMigration (s : State) (l : CoreId) (failed : Bool) (old : Nat) : State :=
  let c := l.val / 8
  let spare := s.field .CLU_SPARE c 0 3 0
  let k := c * 9 + old
  let test := (s.cluster c).test.isSome
  let s := s.copyRegs k (c * 9 + spare)
  let s := s.setField .CLU_CORE_MAP c 0 (4 * (l.val % 8) + 3) (4 * (l.val % 8)) spare
  let s := s.modCluster c fun x =>
    { x with migrating := x.migrating.drop 1, degraded := if failed || test then x.degraded else x.degraded ++ [old] }
  let s := (if failed then s.markFailed c old else s).setSpare c (if failed || test then 15 else old)
  let s := (s.setField .CLU_SPARE c 0 31 31 0).bumpField .CLU_SPARE c 0 15 8 1
  let s := if test then s else s.ashNow s.srcStoker (if failed then 3 else 4) 1 ((s.partOf l).getD 0xFF) k l
  s.replay l

/-! ### Errors that are contained (R14, R330, R345) -/

/-- The row in which an address lies. -/
def State.ceUnit (s : State) (a : Nat) : CeUnit :=
  let at' (kind unit w : Nat) : CeUnit := { kind := kind, unit := unit, row := Config.rowOf kind unit w }
  match windowOf a, s.place a with
  | some (l, off), _ => at' 0 (s.physOf l) off
  | none, some x => at' (if x.ring then 4 else 3) x.unit x.within
  | none, none => at' 2 ((s.homeOf a).getD 0) a

/-- The row of the Hearth slice in which an address lies (R225). -/
def State.hearthUnit (s : State) (a : Nat) : CeUnit :=
  let h := if s.isScratch a then scratchGroup a else (s.homeOf a).getD 0
  { kind := 2, unit := h, row := Config.rowOf 2 h a }

/-- A spare row takes the place of a row (R226, R345), and stays in use until reset; log entry 67. -/
def State.spareRow (s : State) (u : CeUnit) : State :=
  let s := { s with spared := s.spared ++ [u], erred := s.erred.filter (· != u) }
  let s := if u.kind = 3 then s.bumpField .STK_REPAIR u.unit 0 31 16 1 else s
  s.ashNow s.srcStoker 0x02 1 0xFF u.unit 0xFFFF 0 u.row 1 u.kind

/-- The row is one that spare rows protect (Table 13.1): of a core, a record store, a Hearth slice or a stack. -/
def CeUnit.hasRows (u : CeUnit) : Bool := decide (u.kind ≤ 3)

/-- An error met in a row: one whose errors recur is faulty, and is spared (R226). -/
def State.errorIn (s : State) (u : CeUnit) : State :=
  if !u.hasRows then s
  else if s.erred.contains u then s.spareRow u
  else { s with erred := s.erred ++ [u] }

/-- Errors counted for a part in the present second. -/
def bumpCe (u : CeUnit) : List (CeUnit × Nat) → List (CeUnit × Nat)
  | [] => [(u, 1)]
  | (v, n) :: t => if v = u then (v, n + 1) :: t else (v, n) :: bumpCe u t

/-- An error is corrected in the access that meets it: counted for its row or unit, to be recorded once a second (R330). -/
def State.correctError (s : State) (u : CeUnit) : State :=
  let s := { s with corrected := bumpCe u s.corrected }
  let s := if u.kind = 3 then s.bumpField .STK_CE_COUNT u.unit 0 31 0 1 else s
  s.errorIn u

/-! ### Lost data (13.9) -/

/-- A granule is lost: it reads as all-ones until it is written (R351). -/
def State.markLost (s : State) (a : Nat) : State :=
  let g := granuleOf a
  if s.lost.contains g then s else { s with lost := s.lost ++ [g] }

/-- A range of local physical addresses meets the granule of `a`. -/
def meetsGranule (a : Nat) (r : Nat × Nat) : Bool :=
  decide (r.1 < (granuleOf a + 1) * 64) && decide (granuleOf a * 64 < r.1 + r.2)

/-- The targets of a DMA range, piece by piece; `fuel` bounds the pieces. -/
def State.deTargets (s : State) (l : CoreId) (p ctx : Nat) : Nat → Nat → Nat → List (Nat × Nat)
  | 0, _, _ => []
  | fuel + 1, a, n =>
    if n = 0 then []
    else
      let x : Xlt :=
        if ctx = 255 ∧ isDirect a then
          match s.directLen p a with
          | some k => .here a k a
          | none => .fault 5 a
        else
          match (s.combined l p ctx a true false).1 with
          | .entry e => s.throughEntry p e a
          | .walk => .walk
          | .fault k pa => .fault k pa
      match x with
      | .here t k _ => (t, min n k) :: s.deTargets l p ctx fuel (a + min n k) (n - min n k)
      | _ => []

/-- The OUT ranges of an ATTEND, by its sequence records as they stand (Table 8.4a, R208). -/
def State.attendOuts (s : State) (p : Nat) (d : Desc) : List (Nat × Nat) :=
  match s.partPieces p d.seqt (64 * d.nseq) with
  | none => []
  | some ps =>
    let bs := (s.peekTargets ps).1
    (List.range d.nseq).flatMap fun i =>
      let r := (bs.drop (64 * i)).take 64
      let n := d.spansOf (min (fieldLe r 16 4) (2 ^ 20)) * d.heads * d.partialBytes
      (s.partPieces p (fieldLe r 32 8) n).getD []

/-- A range that an unfinished instruction of a queue writes meets the granule. -/
def State.entryCovers (s : State) (l : CoreId) (q a : Nat) (e : QEntry) : Bool :=
  match s.partOf l with
  | none => false
  | some p =>
    match q with
    | 1 =>
      e.desc.opcode == 1 && (List.range e.desc.mmaM).any fun i =>
        ((s.muPieces l p (e.desc.fld 88 8 + i * (e.desc.fld 116 2 * 16)) (e.desc.mmaN * outBytes e.desc.ofmt)).getD []).any
          (meetsGranule a)
    | 2 => e.desc.deRanges.any fun r => r.wr && (s.deTargets l p r.ctx (r.len + 1) r.start r.len).any (meetsGranule a)
    | 0 => false
    | _ => e.desc.opcode == 1 && (s.attendOuts p e.desc).any (meetsGranule a)

/-- The records whose replay rewrites the granule: unfinished instructions that write it, of any queue (R351 step 1). One that has
not started writes the granule when it runs; one that is complete is not executed again (R338), nor one that a stack's scheduler
has taken (R343), nor one whose record is lost. -/
def State.coveringEntries (s : State) (a : Nat) : List (CoreId × Nat × QEntry) :=
  (s.cores.map (·.1)).flatMap fun k =>
    let l : CoreId := Fin.ofNat 768 k
    ((List.range 16).filter isQueue).flatMap fun q => ((s.queue l q).entries.filter fun e =>
      (decide (e.st = .running) || decide (e.st = .pending)) && s.entryCovers l q a e).map fun e => (l, q, e)

/-- The resident blocks whose allocation holds the granule. -/
def State.coveringBlocks (s : State) (a : Nat) : List (Nat × Nat × Block) :=
  match windowOf a with
  | none => []
  | some (l, off) =>
    ((s.residentBlocks l).filter fun x => decide (x.2.lmBase ≤ off) && decide (off < x.2.lmBase + x.2.lmSize)).map
      fun x => (l, x.1, x.2)

/-- One instruction restarts on its core. -/
def State.restartEntry (s : State) (l : CoreId) (q : Nat) (e : QEntry) : State :=
  if e.st = .pending then s
  else
    let s := (s.modEntry l q e.acc QEntry.restart).countReplay l 1
    let s := if q = 1 then s.restartMmas l else s
    s.traceInstr l q e 10 2

/-- One block restarts on its core: its groups stop, and it begins again. -/
def State.restartOne (s : State) (l r : Nat) (b : Block) : State :=
  if b.unprot then s.unprotEvent l b
  else
    let s := b.groups.foldl (fun s g => (s.setGroup l g none).dropWaiter (.group (Fin.ofNat 768 l) (Fin.ofNat 48 g))) s
    (s.setBlock (l / 8) r (some { b with st := .pulled })).restartBlock l r b

/-- A partition's stage 2 or scratchpad reaches an address, or it owns the core whose memory it is. -/
def State.reaches (s : State) (p a : Nat) : Bool :=
  match windowOf a with
  | some (l, _) => s.partOf l == some p
  | none => s.ownsScratch p a 1 || (s.localTargets (s.s2Table p)).any fun r => decide (r.1 ≤ a) && decide (a < r.1 + r.2)

/-- A partition stops after a loss without copy (R351 step 2): its control cores and vector engines at their next
instruction, its other engines before the next instruction they would start; HALTED sets and a service event is raised. -/
def State.haltPart (s : State) (p unit lcore a : Nat) : State :=
  let s := (s.coresOf p).foldl (fun s l =>
    s.modCore l fun c => { c with cc := { c.cc with stopped := true }, ve := { c.ve with stopped := true } }) s
  let s := (s.clustersOf p).foldl (fun s c => s.modCluster c fun x => { x with stopped := true }) s
  (s.setField .MOD_LOSS_CFG p 0 31 31 1).serviceEvent p unit lcore 0 a 64

/-- A loss, in the row `u`, of a granule that has no copy elsewhere (R351): records that cover it restart, which contains the error, and the ash log
counts it as corrected (R14, log entry 95); or the partitions that reach it stop and it reads as all-ones. -/
def State.loseGranule (s : State) (u : CeUnit) (a unit lcore : Nat) : State :=
  let all := s.coveringEntries a
  let s := all.foldl (fun s x => s.voidEntry x.1 x.2.1 x.2.2) s
  let es := all.filter fun x => !x.2.2.lost
  let bs := s.coveringBlocks a
  let base := granuleOf a * 64
  if es.isEmpty && bs.isEmpty then
    let s := s.markLost a
    let ps := (List.range 16).filter fun p => (s.partCfg p).isSome && s.reaches p a
    if ps.isEmpty then s.serviceEvent 0xFF unit lcore 0 base 64
    else ps.foldl (fun s p => s.haltPart p unit lcore base) s
  else
    let s := (s.markLost a).correctError u
    let s := es.foldl (fun s x => s.restartEntry x.1 x.2.1 x.2.2) s
    bs.foldl (fun s x => s.restartOne x.1 x.2.1 x.2.2) s

/-- The entries of a partition's page table, as a reader finds them (R201, R217). -/
def State.tableEntries (s : State) (k p : Nat) : List PtEntry :=
  (List.range (s.reg .GRT_PT_COUNT k p).toNat).filterMap fun i =>
    match s.ptAddr k p i with
    | none => none
    | some a => (s.partPieces p a 16).map fun ps => ptEntry (s.peekTargets ps).1

/-- The physical page that holds an address of a pool (R201): of the partition's entries for its stack, or for far pages, the one
that begins last at or before it; where there is none, the page that begins with the address's own 512 bytes (log entry 95). -/
def State.lostPage (s : State) (p a : Nat) : Nat :=
  match s.place a with
  | none => 0
  | some x =>
    let w := (if x.ring then a - ringBase else x.within) / 512
    let all := s.tableEntries (if x.ring then 0 else x.unit) p
    let near := all.filter fun e =>
      (if x.ring then decide (e.state = 2) else decide (e.state = 1) && decide (e.stack = x.unit)) && decide (e.page ≤ w)
    match near.map (·.page) with
    | [] => w
    | y :: t => t.foldl max y

/-- A granule of a KV pool, lost in the row `u` and met by a reader that is no grate engine (R349): it reads as all-ones, the row is
spared where it is faulty, the loss is logged with the physical page, and counted. -/
def State.loseKv (s : State) (u : CeUnit) (p unit a : Nat) : State :=
  let s := (s.markLost a).errorIn u
  let s := s.ashNow s.srcStoker 0x09 1 p unit 0xFFFF 0 (s.lostPage p a * 512) 64
  let h := s.field .MOD_LOSS_CFG p 0 23 0
  if h ≠ 0 ∧ 2 ≤ handleScope h ∧ s.validHandle p h then s.signalNow s.srcStoker (counterOf 0 h) .add 1 else s

end Sys2Proof.Machine
end

