-- ==== Sys2Proof/Machine/Links.lean ====
section
/-!
DEFINITION. Flue links (12.1 to 12.3): training by the state table, wavelengths and lasers, flits received, link retry and
acknowledgement, and the change to new routes.
-/

namespace Sys2Proof.Machine

open Sys2Proof

/-! ### Link training (R293) -/

/-- Training states, events and actions of Table 12.1, as far as the model names them. -/
def lkDisabled : Nat := 0
def lkDown : Nat := 1
def lkParam : Nat := 3
def lkCredit : Nat := 4
def lkActive : Nat := 5
def lkRecover : Nat := 6
def evDisable : Nat := 1
def evLight : Nat := 2
def evLocked : Nat := 3
def evParamOk : Nat := 4
def evParamBad : Nat := 5
def evCredits : Nat := 6
def evTimeout : Nat := 7
def evErrburst : Nat := 8
def evLanefail : Nat := 9
def evLost : Nat := 10
def evRecovered : Nat := 11

/-- The built-in training table (Table 12.2). -/
def builtinTraining : List STEntry :=
  [⟨0, 0, 1, 1, 0⟩, ⟨1, 2, 2, 2, 1000000⟩, ⟨2, 3, 3, 3, 100000⟩, ⟨2, 7, 1, 7, 0⟩, ⟨3, 4, 4, 4, 100000⟩,
   ⟨3, 5, 1, 7, 0⟩, ⟨3, 7, 1, 7, 0⟩, ⟨4, 6, 5, 5, 0⟩, ⟨4, 7, 1, 7, 0⟩, ⟨5, 9, 6, 8, 100000⟩, ⟨5, 8, 6, 6, 100000⟩,
   ⟨5, 10, 1, 9, 0⟩, ⟨6, 10, 1, 9, 0⟩, ⟨6, 11, 5, 5, 0⟩, ⟨6, 7, 1, 9, 0⟩] ++
  [1, 2, 3, 4, 5, 6].map fun st => ⟨st, 1, 0, 9, 0⟩

/-- The state table of an ID in force: the stream's, or the built-in one (R44). -/
def State.stateTable (s : State) (id : Nat) (builtin : List STEntry) : List STEntry :=
  match SMap.get [] s.cfg.tables id with
  | [] => builtin
  | t => t

/-- The entry of a table for a state and an event; an event with no entry is ignored (R44). -/
def findEntry (t : List STEntry) (st ev : Nat) : Option STEntry := t.find? fun e => e.cur == st && e.ev == ev

def State.linkState (s : State) (p : Nat) : Nat := s.field .FLP_STATUS p 0 31 28

/-- The record of a link transition in the ash log (R294): state and event, with the peer's module and port. -/
def State.linkAsh (s : State) (p ev : Nat) : State :=
  let peer := match (s.port p).peer with
    | some k => k.module.toNat * 2 ^ 16 + k.port * 2 ^ 40
    | none => 0
  s.ashNow (s.srcPort p) 0x0C 0 0xFF p 0xFFFF 0 0 0 (s.linkState p + ev * 2 ^ 8 + peer)

/-- FLUSH (R295): the replay buffer and every flit queued for the port are discarded; the next link starts afresh. -/
def State.flushPort (s : State) (p : Nat) : State :=
  s.setPort p { s.port p with txSeq := 0, replay := [], rxNext := 0, nakSent := false, unackedRx := 0, credits := [],
                              txq := [], owed := [], rx := [], naksAt := [], slots := [] }

/-- Wavelengths in use (Table 12.18): LANES, and SPARED when the ninth wavelength carries data. -/
def State.showLanes (s : State) (p : Nat) (m : BitVec 9) : State :=
  (s.setField .FLP_STATUS p 0 27 24 (popcount m.toNat 9)).setField .FLP_STATUS p 0 23 23 (if m.getLsbD 8 then 1 else 0)

/-- The parameters this end sends (R294): module ID, port, role and the TIME_ROLE byte. -/
def State.linkParams (s : State) (p : Nat) : Nat :=
  s.moduleId + p * 2 ^ 18 + s.field .FLP_STATUS p 0 22 21 * 2 ^ 24 + s.cfg.timeRole * 2 ^ 26

/-- The data wavelengths chosen of those that work: the eight lowest; the ninth is the spare (log entry 29). -/
def mapWaves (working : BitVec 9) : BitVec 9 := if popcount working.toNat 9 = 9 then working &&& 0xFF else working

/-- Wavelengths marked failed, and the map of the rest in force. -/
def State.setWaves (s : State) (p : Nat) (failed : BitVec 9) : State :=
  let m := mapWaves (~~~failed)
  ((s.setField .FLP_STATUS p 0 8 0 failed.toNat).setPort p { s.port p with mapped := m }).showLanes p m

def State.failedWaves (s : State) (p : Nat) : BitVec 9 := BitVec.ofNat 9 (s.field .FLP_STATUS p 0 8 0)

/-- The spare wavelength came into use: the ash log's record (Table 13.9). -/
def State.sparedAsh (s : State) (p : Nat) (was : Bool) : State :=
  if !was && (s.port p).mapped.getLsbD 8 then s.ashNow (s.srcPort p) 0x02 1 0xFF p 0xFFFF 0 8 1 else s

/-- The initial credits as a port sends them: sixteen bits for each virtual channel (Table 12.4). -/
def creditWord : Nat := vcBuffers.foldr (fun n v => v * 2 ^ 16 + n) 0

/-- The action of a transition (Table 12.1). MAP chooses the wavelengths of those that lock; SWAP chooses them again without those
that have failed. -/
def State.linkAct (s : State) (p act ev : Nat) : State :=
  match act with
  | 1 => s.emit (.link p 1 0)
  | 2 => s.setWaves p (~~~(s.port p).lit)
  | 3 => s.emit (.link p 3 (s.linkParams p))
  | 4 => s.emit (.link p 4 creditWord)
  | 5 => ((s.setPort p { s.port p with closed := false }).resendFlits p).pump p
  | 6 => s.setPort p { s.port p with closed := true }
  | 7 => s.linkAsh p ev
  | 8 =>
    let was := (s.port p).mapped.getLsbD 8
    ((s.setPort p { s.port p with closed := true }).setWaves p (s.failedWaves p)).sparedAsh p was
  | 9 => s.flushPort p
  | _ => s

/-- The host endpoint goes on where a port's change has moved it (R318). -/
def State.hostFollow (s : State) (before : Option Nat) : State := if s.hostPort = before then s else s.hostResume

/-- An event of link training: the transition, its action, its timeout. A port that enters DOWN sends the training pattern;
a transition to ACTIVE is recorded with the peer (R293, R294). -/
def State.linkEvent (s : State) (p ev : Nat) : State :=
  match findEntry (s.stateTable 5 builtinTraining) (s.linkState p) ev with
  | none => s
  | some e =>
    let host := s.hostPort
    let s := s.setField .FLP_STATUS p 0 31 28 e.nxt
    let s := s.setPort p { s.port p with
      deadline := if e.timeout = 0 then none else some (s.gtb (p / 9) + BitVec.ofNat 64 e.timeout) }
    let s := s.linkAct p e.act ev
    let s := if e.nxt = lkDown ∨ e.nxt = lkDisabled then s.showLanes p 0 else s
    let s := if e.nxt = lkDown ∧ e.act ≠ 1 then s.emit (.link p 1 0) else s
    let s := if e.nxt = lkActive then s.linkAsh p ev else s
    s.hostFollow host

/-- The link goes DOWN whatever it was doing (R292, Table 14.4). -/
def State.linkDown (s : State) (p : Nat) : State :=
  let s := if s.linkState p = lkActive ∨ s.linkState p = lkRecover then s.linkEvent p evLost else s.linkEvent p evTimeout
  let host := s.hostPort
  if s.linkState p ≤ lkDown then s
  else ((((s.flushPort p).setField .FLP_STATUS p 0 31 28 lkDown).showLanes p 0).emit (.link p 1 0)).hostFollow host

/-- LINK_ENABLE (R293): a port whose role is disabled never receives it. -/
def execLinkEnable (p : PortId) (s : State) : Res :=
  if s.field .FLP_STATUS p 0 22 21 = 2 then .next s
  else
    let d := p.val / 9
    let b (i : Nat) : Nat := if s.lasers.getLsbD i then 1 else 0
    .next (((s.setField .FLP_STATUS p 0 19 19 (b (2 * d))).setField .FLP_STATUS p 0 20 20 (b (2 * d + 1))).linkEvent p 0)

/-- LINK_DISABLE (R293). -/
def execLinkDisable (p : PortId) (s : State) : Res := .next (s.linkEvent p evDisable)

/-! ### Wavelengths (R290 to R292, R295) -/

/-- LINK_LIGHT (R293): light and clock lock on at least four wavelengths. -/
def execLinkLight (p : PortId) (locked : BitVec 9) (s : State) : Res :=
  if popcount locked.toNat 9 < 4 then .next s
  else .next ((s.setPort p { s.port p with lit := locked }).linkEvent p evLight)

/-- LINK_LOCKED (R293). -/
def execLinkLocked (p : PortId) (s : State) : Res := .next (s.linkEvent p evLocked)

/-- LINK_PARAM_RECEIVE (R294): PARAM_BAD when the roles differ or the peer has this module's own ID. -/
def execLinkParamReceive (p : PortId) (peer : LinkParams) (s : State) : Res :=
  if s.linkState p ≠ lkParam then .next s
  else
    let s := s.setPort p { s.port p with peer := some peer }
    let bad := peer.role.toNat ≠ s.field .FLP_STATUS p 0 22 21 ∨ peer.module.toNat = s.moduleId
    .next (s.linkEvent p (if bad then evParamBad else evParamOk))

/-- LINK_CREDITS_RECEIVE (R293): the peer's credits, by virtual channel. -/
def execLinkCreditsReceive (p : PortId) (credits : List Nat) (s : State) : Res :=
  if s.linkState p ≠ lkCredit then .next s
  else
    let m := (List.range 8).foldl (fun m v => SMap.set 0 m v (credits.getD v 0)) []
    .next ((s.setPort p { s.port p with credits := m }).linkEvent p evCredits)

/-- LINK_TRAINING_TIMEOUT (R293): no other transition was taken within the timeout of the last one. -/
def execLinkTrainingTimeout (p : PortId) (s : State) : Res :=
  if (s.port p).deadline.isNone then .next s else .next (s.linkEvent p evTimeout)

/-- LINK_LANEFAIL (R291): a wavelength fails. The traffic of a mapped one moves by the table's SWAP to the spare, or the port goes on
with those that work; below four the link is lost. While the link trains no traffic has to move: the choice of MAP is made again. -/
def execLinkLanefail (p : PortId) (wave : Fin 9) (s : State) : Res :=
  if s.linkState p = lkDisabled ∨ s.linkState p = lkDown then .next s
  else
    let failed := s.failedWaves p ||| (1#9 <<< wave.val)
    let s := s.setField .FLP_STATUS p 0 8 0 failed.toNat
    let up := s.linkState p = lkActive ∨ s.linkState p = lkRecover
    if !(s.port p).mapped.getLsbD wave then .next s
    else if popcount (mapWaves (~~~failed)).toNat 9 < 4 then .next (if up then s.linkEvent p evLost else s.linkDown p)
    else if up then .next (s.linkEvent p evLanefail)
    else .next ((s.setWaves p failed).sparedAsh p ((s.port p).mapped.getLsbD 8))

/-- LINK_MAP_RECEIVE (R295): in RECOVER both ends measure again and compare their maps. A wavelength that has failed before
comes back only by training (R345). -/
def execLinkMapReceive (p : PortId) (measured : BitVec 9) (map : BitVec 9) (s : State) : Res :=
  if s.linkState p ≠ lkRecover then .next s
  else
    let was := (s.port p).mapped.getLsbD 8
    let s := (s.setWaves p (s.failedWaves p ||| ~~~measured)).sparedAsh p was
    let m := (s.port p).mapped
    let s := s.emit (.link p 6 m.toNat)
    if popcount m.toNat 9 < 4 then .next (s.linkEvent p evLost)
    else if m = map then .next (s.linkEvent p evRecovered)
    else .next s

/-- The LASER bits of a die's ports. -/
def State.showLaser (s : State) (i : Nat) (on : Bool) : State :=
  let b := if i % 2 = 0 then 19 else 20
  (List.range 9).foldl (fun s k => s.setField .FLP_STATUS (i / 2 * 9 + k) 0 b b (if on then 1 else 0)) s

/-- LASER_INPUT_LOSS (R292): losing both inputs of a die takes its links DOWN. -/
def execLaserInputLoss (i : Fin 8) (s : State) : Res :=
  let d := i.val / 2
  let s := { s with lasers := s.lasers &&& ~~~(1#8 <<< i.val) }.showLaser i false
  if s.lasers.getLsbD (2 * d) || s.lasers.getLsbD (2 * d + 1) then .next s
  else .next ((List.range 9).foldl (fun s k => s.linkDown (d * 9 + k)) s)

/-- LASER_INPUT_RETURN (R292): the die's ports that are DOWN send their training pattern again. -/
def execLaserInputReturn (i : Fin 8) (s : State) : Res :=
  let d := i.val / 2
  let s := { s with lasers := s.lasers ||| (1#8 <<< i.val) }.showLaser i true
  .next ((List.range 9).foldl (fun s k => if s.linkState (d * 9 + k) = lkDown then s.emit (.link (d * 9 + k) 1 0) else s) s)

/-! ### Flits (R297, R298) -/

/-- Credits that a flit returns (Table 12.3). -/
def State.takeCredits (s : State) (p : Nat) (f : Flit) : State :=
  let x := s.port p
  let add (m : SMap Nat) (v n : Nat) : SMap Nat := SMap.set 0 m v (SMap.get 0 m v + n)
  s.setPort p { x with credits := add (add x.credits f.vc0.toNat f.cnt0.toNat) f.vc1.toNat f.cnt1.toNat }

/-- A NAK: flits up to `ack` leave the replay buffer, the rest go again in order; more than 16 NAKs in 10 µs raise
ERRBURST (Table 12.1). -/
def State.takeNak (s : State) (p : Nat) (ack : BitVec 12) : State :=
  let now := s.gtb (p / 9)
  let x := (s.port p).acked ack
  let recent := (x.naksAt.filter fun t => decide ((now - t).toNat < 10000)) ++ [now]
  let s := (s.setPort p { x with naksAt := recent }).resendFlits p
  if 16 < recent.length then s.linkEvent p evErrburst else s

/-- One NAK names the last good flit, until the missing one comes (R297). -/
def State.sendNak (s : State) (p : Nat) : State :=
  if (s.port p).nakSent then s
  else
    let s := s.setPort p { s.port p with nakSent := true }
    (s.bumpField .FLP_ERRS p 0 31 16 1).sendFlit p { idleFlit with nak := true }

/-- A packet flit that is next in order: its payload joins its packet, which is whole with the tail; every 32 flits are
acknowledged. -/
def State.takeFlit (s : State) (p : Nat) (f : Flit) : State :=
  let x := s.port p
  let v := f.vc.toNat
  let bs := (if f.head then [] else SMap.get [] x.rx v) ++ f.payload
  let x := { x with rxNext := x.rxNext + 1, nakSent := false, unackedRx := x.unackedRx + 1,
                    rx := SMap.set [] x.rx v (if f.tail then [] else bs) }
  let pk := packetOf f.vc bs
  let s := s.setPort p (if f.tail then { x with inbox := x.inbox ++ [pk] } else x)
  if 32 ≤ x.unackedRx then s.sendFlit p idleFlit else s

/-- A flit of the host link (R312, R318): its acknowledgement ends the replay of what has reached the host, and a NAK starts it
(log entry 78). Its transactions arrive as commands of their own. -/
def State.hostFlit (s : State) (p : Nat) (nak : Bool) (ack : BitVec 12) : State :=
  if s.hostPort ≠ some p then s else if nak then (s.hostAcked ack).hostReplay else s.hostAcked ack

/-- A flit with a good CRC: its acknowledgement and credits, then its packet flit (R297, R298). -/
def State.goodFlit (s : State) (p : Nat) (f : Flit) : State :=
  if s.hostRole p then s.hostFlit p f.nak f.ack
  else if 2 ≤ f.type.toNat then s
  else
    let s := s.takeCredits p f
    let s := if f.nak then s.takeNak p f.ack else s.setPort p ((s.port p).acked f.ack)
    let s := if f.type.toNat ≠ 1 then s else if f.seq = (s.port p).rxNext then s.takeFlit p f else s.sendNak p
    s.pump p

/-- FLIT_RECEIVE (R296 to R298): 256 bytes whose CRC fails are discarded, counted as an error that retry corrects (Table 13.1), and
one NAK is sent. -/
def execFlitReceive (p : PortId) (bytes : List Byte) (s : State) : Res :=
  if !s.portActive p then .next s
  else
    match flitOf bytes with
    | none => .next ((s.correctError { kind := 6, unit := p }).sendNak p)
    | some f => .next (s.goodFlit p f)

/-- NAK_RECEIVE (R297). -/
def execNakReceive (p : PortId) (ack : BitVec 12) (s : State) : Res :=
  if !s.portActive p then .next s
  else if s.hostRole p then .next (s.hostFlit p true ack)
  else .next ((s.takeNak p ack).pump p)

/-- ACK_TIMER (R297): what is received is acknowledged at least every 200 ns, and credits return. -/
def execAckTimer (p : PortId) (s : State) : Res :=
  if s.portActive p && (decide (0 < (s.port p).unackedRx) || !(s.port p).owed.isEmpty) then .next (s.sendFlit p idleFlit)
  else .next s

/-! ### Routes (R50) -/

/-- ROUTE_SWAP_TIME (R50): the port takes the shadow tables. Packets of the module's own are routed by the new tables from the
first port's change on (log entry 30). -/
def execRouteSwapTime (p : PortId) (s : State) : Res :=
  let x := s.port p
  match x.swapTime with
  | none => .next s
  | some _ =>
    let s := s.setPort p { x with groupRoutes := x.shadowGroup, memberRoutes := x.shadowMember, swapTime := none }
    .next { s with cfg := { s.cfg with groupRoutes := x.shadowGroup, memberRoutes := x.shadowMember } }

end Sys2Proof.Machine
end

