-- ==== Sys2Proof/Machine/Time.lean ====
section
/-!
DEFINITION. Time (12.6, 14.1): the global timebase and its ticks, the exchange with the upstream module, the pulse input and
the reference clock.
-/

namespace Sys2Proof.Machine

open Sys2Proof

/-! ### Operating points -/

def State.curve (s : State) (r : Nat) : List DvfsPoint := SMap.get [] s.cfg.dvfs r
def State.point (s : State) (r : Nat) : Nat := s.field .RGN_DVFS_STATUS r 0 31 28
/-- The clock of a region, in MHz. -/
def State.mhz (s : State) (r : Nat) : Nat :=
  match (s.curve r)[s.point r]? with
  | some d => d.mhz
  | none => 0

/-! ### Ticks -/

/-- The GTB of every die moved by an offset. -/
def State.shiftGtb (s : State) (d : Int) : State :=
  { s with time := { s.time with gtb := (List.range 4).foldl (fun m k =>
      SMap.set 0 m k (SMap.get 0 m k + BitVec.ofInt 64 d)) s.time.gtb } }

/-- Ticks between two corrections of a slew: 200 ppm (R309). -/
def slewTicks : Nat := 5000

/-- The correction of a slew at this tick: one tick more or one less, at most every 5,000 ticks (R309). -/
def Time.step (t : Time) : Int :=
  if (t.phase + 1) % slewTicks ≠ 0 then 0 else if 0 < t.offset then 1 else if t.offset < 0 then -1 else 0

/-- The copies count a tick, by `d` in a slew; a die whose copy had run ahead leaves its next one out, so that no copy ever steps
back (R309, R357). -/
def Time.count (t : Time) (d : Int) : Time :=
  { t with
    gtb := (List.range 4).foldl (fun m k =>
      SMap.set 0 m k (SMap.get 0 m k + BitVec.ofInt 64 (if t.hold.contains k then d else 1 + d))) t.gtb
    hold := [] }

/-- The errors corrected in the second that ends, one record for each row, link or unit (R330). -/
def State.flushCorrected (s : State) : State :=
  let s' := s.corrected.foldl (fun s e =>
    s.ashNow s.srcStoker 0x01 0 0xFF e.1.unit 0xFFFF 0 e.1.row 1 (e.2 + e.1.kind * 2 ^ 64)) s
  { s' with corrected := [] }

/-- An engine has an instruction started and not completed, or a group resident and not waiting on a counter (R346). -/
def Core.busyEngine (c : Core) (e : Nat) : Bool :=
  ((SMap.get {} c.queues (e - 1)).entries.any fun x => decide (x.st = .running)) ||
    (e == 1 && c.ve.groups.any fun g => match g.2 with
      | none => false
      | some x =>
        match x.status with
        | .waiting _ _ _ _ => false
        | .ended => false
        | _ => true)

/-- BUSY of a core's engines advances by a tick's cycles of its region, in thousandths (R346). -/
def State.countBusy (s : State) : State :=
  (s.cores.map (·.1)).foldl (fun s l =>
    let f := s.mhz (l / 48)
    s.modCore l fun c => { c with busy := [1, 2, 3].foldl (fun m e =>
      if c.busyEngine e then SMap.set 0 m e (SMap.get 0 m e + f) else m) c.busy }) s

/-- One tick of the global timebase on every die. -/
def State.tick (s : State) : State :=
  let d := s.time.step
  let d := if d < 0 && !s.time.hold.isEmpty then 0 else d
  let s := { s with time := { s.time.count d with offset := s.time.offset - d, phase := (s.time.phase + 1) % slewTicks } }
  let s := s.countBusy
  if s.gtb.toNat % 10 ^ 9 = 0 ∧ !s.corrected.isEmpty then s.flushCorrected else s

/-! ### The upstream module (R308, R309, R311) -/

/-- The port on which a follower takes its time: the primary while it is ACTIVE, else the alternate (R311). -/
def State.upstream (s : State) : Option Nat :=
  if s.cfg.timeRole ≠ 0 then none
  else [s.cfg.upPrimary, s.cfg.upAlternate].find? fun p => decide (p < 36) && s.portActive p

/-- A record whose kind the spec does not give (log entry 31). -/
def State.timeAsh (s : State) (detail : Nat) : State := s.ashOpen s.srcStoker 0xFF 0xFFFF 0 detail

/-- A packet of the time class, over one hop to the port's peer on its own channel, against a credit (Table 12.4, R298). -/
def State.sendTime (s : State) (p op : Nat) (bs : List Byte) : State :=
  let dst := match (s.port p).peer with
    | some k => k.module.toNat
    | none => 0
  s.sendPacket p (s.mkPacket dst op 0 0 bs.length 0 (baseVc op) bs)

/-- The packet of the time class that a port has received is taken: its flit buffer is free (R298). -/
def State.takeTime (s : State) (p op : Nat) : State :=
  match (s.port p).inbox.find? fun pk => pk.op.toNat == op with
  | none => s
  | some pk => (s.setPort p { s.port p with inbox := (s.port p).inbox.erase pk }).freeFlits p pk.vc.toNat 1

/-- TIME_SYNC_SEND (R308): with no upstream a follower runs in holdover and records the loss (R311). -/
def execTimeSyncSend (s : State) : Res :=
  if s.cfg.timeRole ≠ 0 then .next s
  else
    match s.upstream with
    | some p => .next ({ s with time := { s.time with holdover := false } }.sendTime p opTimeSync (leBytes 8 (s.gtb (p / 9)).toNat))
    | none =>
      if s.time.holdover then .next s
      else .next ({ s with time := { s.time with holdover := true } }.timeAsh 1)

/-- TIME_SYNC (R308): the upstream module answers with its arrival stamp and its own departure. -/
def execTimeSync (p : PortId) (_t1 t2 : W64) (s : State) : Res :=
  if s.portActive p then
    .next ((s.takeTime p opTimeSync).sendTime p opTimeReply (leBytes 8 t2.toNat ++ leBytes 8 (s.gtb (p / 9)).toNat))
  else .next s

/-- The follower's offset (R308). Half a tick is rounded towards zero. -/
def syncOffset (t1 t2 t3 t4 : W64) : Int := ((t2 - t1).toInt - (t4 - t3).toInt).tdiv 2

/-- An offset to remove: set outright at the first lock before ready, else slewed out; above 100 µs after ready it is recorded
(R309). -/
def State.takeOffset (s : State) (d : Int) : State :=
  if !s.sto.ready && !s.time.locked then
    { s.shiftGtb d with time := { (s.shiftGtb d).time with offset := 0, locked := true } }
  else
    let s := { s with time := { s.time with offset := d, locked := true } }
    if s.sto.ready && decide (100000 < d.natAbs) then s.timeAsh 2 else s

/-- TIME_REPLY (R308). -/
def execTimeReply (p : PortId) (t1 t2 t3 t4 : W64) (s : State) : Res :=
  if s.upstream ≠ some p.val then .next s
  else
    let s := (s.takeTime p opTimeReply).takeOffset (syncOffset t1 t2 t3 t4)
    .next { s with time := { s.time with lastSync := s.gtb } }

/-! ### The pulse input (R310) -/

/-- The distance of the GTB from the nearest whole second. -/
def State.secondOffset (s : State) : Int :=
  let r : Nat := s.gtb.toNat % 1000000000
  if r ≤ 500000000 then - Int.ofNat r else Int.ofNat (1000000000 - r)

/-- PPS_EDGE (R310): the first pulse before ready sets the GTB; later ones are slewed to, and an offset above 100 µs after ready is
recorded (R309). -/
def execPpsEdge (s : State) : Res :=
  if s.cfg.timeRole ≠ 1 || !s.cfg.pulse then .next s
  else
    let d := s.secondOffset
    let s := if !s.sto.ready && s.time.pps.isNone then s.shiftGtb d
             else
               let s := { s with time := { s.time with offset := d } }
               if s.sto.ready && decide (100000 < d.natAbs) then s.timeAsh 2 else s
    .next { s with time := { s.time with pps := some s.gtb, ppsLost := false } }

/-- PPS_LOSS_TIMEOUT (R310): the root runs on the reference alone and records the loss. -/
def execPpsLossTimeout (s : State) : Res :=
  if s.cfg.timeRole ≠ 1 || !s.cfg.pulse || s.time.ppsLost then .next s
  else .next ({ s with time := { s.time with ppsLost := true, offset := 0 } }.timeAsh 3)

/-- GTB_DIE_CHECK (R357): a die's copy is slewed by one tick towards die 0's: one that is behind gains a tick, one that is ahead leaves
its next tick out, since no read may decrease (R68, R309). -/
def execGtbDieCheck (d : DieId) (s : State) : Res :=
  let a := s.gtb
  let b := s.gtb d
  if b = a then .next s
  else if 0 < (a - b).toInt then .next { s with time := { s.time with gtb := SMap.set 0 s.time.gtb d (b + 1) } }
  else if s.time.hold.contains d.val then .next s
  else .next { s with time := { s.time with hold := s.time.hold ++ [d.val] } }

/-- REFCLK_LOSS (R358). -/
def execRefclkLoss (s : State) : Res :=
  if s.time.refOk then .next ({ s with time := { s.time with refOk := false } }.ashNow s.srcStoker 0x0F 2) else .next s

/-- REFCLK_RETURN (R358): the record; an offset that has grown is slewed out by the exchanges that follow (R309). -/
def execRefclkReturn (s : State) : Res :=
  if s.time.refOk then .next s else .next ({ s with time := { s.time with refOk := true } }.ashNow s.srcStoker 0x0F 0)

end Sys2Proof.Machine
end

