-- ==== Sys2Proof/Machine/Power.lean ====
section
/-!
DEFINITION. Operating points (14.3), power domains (14.4), temperature sensors and throttling (R43, R236, R359, R410).
-/

namespace Sys2Proof.Machine

open Sys2Proof

/-! ### Power domains (R363 to R366) -/

/-- The table ID of a domain (Table 14.4). -/
def domainTable (d : Nat) : Nat := if d < 16 then 0 else if d < 20 then 1 else if d < 32 then 2 else if d < 40 then 3 else 4

/-- The built-in power table of an ID (Table 14.6); that of port groups has no IDLE. -/
def builtinPower (id : Nat) : List STEntry :=
  [⟨0, 0, 1, 1, 10000000⟩, ⟨0, 1, 1, 1, 10000000⟩, ⟨1, 5, 2, 0, 0⟩, ⟨1, 7, 5, 5, 0⟩, ⟨1, 9, 5, 5, 0⟩,
   ⟨2, 3, 3, 3, 1000000⟩, ⟨2, 8, 3, 3, 1000000⟩, ⟨3, 6, 4, 0, 0⟩, ⟨3, 7, 2, 5, 0⟩, ⟨4, 1, 1, 2, 10000000⟩,
   ⟨4, 4, 0, 4, 0⟩, ⟨2, 9, 5, 5, 0⟩, ⟨4, 9, 5, 5, 0⟩, ⟨5, 9, 5, 0, 0⟩, ⟨5, 7, 5, 0, 0⟩] ++
  if id = 4 then [] else [⟨2, 2, 3, 3, 1000000⟩]

/-- A ring-pair domain of a module without a ring stays OFF (R6, R422). -/
def State.absentDomain (s : State) (d : Nat) : Bool := s.variant == 2 && decide (32 ≤ d) && decide (d < 40)

/-- Bytes of memory, and lost granules, for whose address `gone` holds are erased. -/
def State.eraseMem (s : State) (gone : Nat → Bool) : State :=
  { s with mem := s.mem.filter fun e => !gone e.1, lost := s.lost.filter fun g => !gone (g * 64) }

/-- What a domain loses when its rail goes off (Table 14.4): a region its SRAM, a die uncore its Hearth and its Chimney
node, a stack or ring pair its DRAM. A counter keeps its value: nothing but a module reset sets it to 0 (R270). -/
def State.loseDomain (s : State) (d : Nat) : State :=
  if d < 16 then
    let s := s.eraseMem fun a => match windowOf a with
      | some (l, _) => l / 48 == d
      | none => false
    { s with cores := s.cores.filter fun e => e.1 / 48 != d
             clusters := s.clusters.filter fun e => e.1 / 6 != d }
  else if d < 20 then
    let k := d - 16
    let s := s.eraseMem fun a => decide (scratchBase ≤ a) && decide (a < scratchEnd) && scratchGroup a / 8 == k
    { s with hearth := s.hearth.filter fun e => e.1 / 64 != k
             deliveries := s.deliveries.filter fun x => x.home != k
             barriers := s.barriers.filter fun e => e.1 / 16 != k }
  else if d < 32 then s.eraseMem fun a => match s.place a with
    | some x => !x.ring && x.unit == d - 20
    | none => false
  else if d < 40 then s.eraseMem fun a => match s.place a with
    | some x => x.ring && x.unit / 2 == d - 32
    | none => false
  else s

/-- The action of a power transition (Table 14.5). The action goes on until the domain reports; a port group that parks or
goes off takes its links DOWN (Table 14.4). -/
def State.pwrAct (s : State) (d act ev : Nat) : State :=
  let links (s : State) : State :=
    if 40 ≤ d then (List.range 4).foldl (fun s k => s.linkDown (4 * (d - 40) + k)) s else s
  let busy (s : State) : State := { s with pwrBusy := SMap.set false s.pwrBusy d true }
  match act with
  | 1 => busy s
  | 2 => busy s
  | 3 => busy (links s)
  | 4 => busy ((links s).loseDomain d)
  | 5 => s.ashOpen s.srcStoker 0xFF 0xFFFF 0 (d + ev * 2 ^ 8)
  | _ => s

/-- An event that a domain takes: the transition of its table, its action and its timeout. While the module is shut down for
overtemperature no event wakes a domain (R410). -/
def State.pwrTake (s : State) (d ev : Nat) : State :=
  match findEntry (s.stateTable (domainTable d) (builtinPower (domainTable d))) (s.domainState d) ev with
  | none => s
  | some e =>
    if s.sto.overtemp && decide (ev ≤ peDemand) then s
    else
      let s := s.setReg .MOD_PWR_STATE d 0 (BitVec.ofNat 32 (ev * 2 ^ 8 + e.nxt))
      let dl : Option W64 := if e.timeout = 0 then none else some (s.gtb + BitVec.ofNat 64 e.timeout)
      { s with pwrDeadline := SMap.set none s.pwrDeadline d dl }.pwrAct d e.act ev

/-- Events that end an action: READY, DONE, TIMEOUT, FAULT (log entry 32). -/
def endsAction (ev : Nat) : Bool := ev == 5 || ev == 6 || ev == 7 || ev == 9

/-- The events held during an action are considered in their order of arrival, until one starts an action (R364). -/
def State.pwrHeldNext (d : Nat) : Nat → State → State
  | 0, s => s
  | fuel + 1, s =>
    if SMap.get false s.pwrBusy d then s
    else
      match SMap.get [] s.pwrHeld d with
      | [] => s
      | ev :: rest => State.pwrHeldNext d fuel (({ s with pwrHeld := SMap.set [] s.pwrHeld d rest }).pwrTake d ev)

/-- An event posted to a domain (R364). -/
def State.pwrPost (s : State) (d ev : Nat) : State :=
  if s.absentDomain d || decide (49 ≤ d) then s
  else if SMap.get false s.pwrBusy d && !endsAction ev then
    { s with pwrHeld := SMap.set [] s.pwrHeld d (SMap.get [] s.pwrHeld d ++ [ev]) }
  else
    let s := if endsAction ev then { s with pwrBusy := SMap.set false s.pwrBusy d false } else s
    let s := s.pwrTake d ev
    State.pwrHeldNext d (SMap.get [] s.pwrHeld d).length s

/-- A domain that is PARKED or OFF is woken (R366). -/
def State.wakeDomain (s : State) (d : Nat) : State :=
  if s.domainState d = pwParked ∨ s.domainState d = pwOff then s.pwrPost d peDemand else s

/-- The targets that an interleave entry's part of a range reaches. -/
def ILEntry.hits (e : ILEntry) (a n : Nat) (ring : Bool) (unit : Nat) : Bool :=
  let lo := max a e.base
  let hi := min (a + n) (e.base + e.len)
  if hi ≤ lo ∨ ring ≠ decide (2 ≤ e.mode) then false
  else
    let g0 := (lo - e.base) >>> e.granule
    let g1 := (hi - 1 - e.base) >>> e.granule
    (List.range (min (g1 + 1 - g0) e.targets.1)).any fun i => e.targets.2 + (g0 + i) % e.targets.1 == unit

/-- A partition's stage 2 or pinned map targets a stack, or a ring channel (R366). -/
def State.targeted (s : State) (ring : Bool) (unit : Nat) : Bool :=
  (List.range 16).any fun p =>
    (s.localTargets (s.s2Table p ++ (s.part p).pinned)).any fun r => s.cfg.interleave.any fun e => e.hits r.1 r.2 ring unit

/-- An OFF_REQ is ignored, because the domain is in use (R366). -/
def State.offRefused (s : State) (d : Nat) : Bool :=
  let notOff (k : Nat) : Bool := s.domainState k != pwOff
  if d < 16 then (List.range 6).any fun i => (s.partOfCluster (6 * d + i)).isSome
  else if d < 20 then
    let k := d - 16
    (List.range 4).any (fun i => notOff (4 * k + i)) || (List.range 3).any (fun i => notOff (20 + 3 * k + i)) ||
      (List.range 2).any fun i => notOff (32 + 2 * k + i)
  else if d < 32 then s.targeted false (d - 20)
  else if d < 40 then s.targeted true (2 * (d - 32)) || s.targeted true (2 * (d - 32) + 1)
  else false

/-- A write of MOD_PWR_EVENT (Table 14.13). -/
def State.pwrEventWrite (s : State) (v : W32) : State :=
  let d := bitsOf v 15 8
  let ev := bitsOf v 7 0
  let s := s.plainWrite { name := .MOD_PWR_EVENT } v
  if 49 ≤ d then s
  else if ev = peDemand ∨ ev = peParkReq then s.pwrPost d ev
  else if ev = peOffReq then
    if s.offRefused d then s.ashNow s.srcStoker 0x10 0 0xFF d 0xFFFF 0 0 0 ev else s.pwrPost d ev
  else s

/-- The word that names a domain and an event. -/
def pwrWord (d : Fin 50) (ev : Nat) : W32 := BitVec.ofNat 32 (d.val * 2 ^ 8 + ev)

def State.pwrEventBy (s : State) (a : Agent) (d : Fin 50) (ev : Nat) : State :=
  if s.mayWrite a { name := .MOD_PWR_EVENT } then s.pwrEventWrite (pwrWord d ev) else s

/-- PWR_EVENT_DEMAND (R364). -/
def execPwrEventDemand (a : Agent) (d : Fin 50) (s : State) : Res := .next (s.pwrEventBy a d peDemand)
/-- PWR_EVENT_PARK_REQ (R364). -/
def execPwrEventParkReq (a : Agent) (d : Fin 50) (s : State) : Res := .next (s.pwrEventBy a d peParkReq)
/-- PWR_EVENT_OFF_REQ (R366). -/
def execPwrEventOffReq (a : Agent) (d : Fin 50) (s : State) : Res := .next (s.pwrEventBy a d peOffReq)

/-- DOMAIN_DEMAND (R366): an access, signal or flit needs a domain that is not ON. -/
def execDomainDemand (d : Fin 50) (s : State) : Res :=
  if s.domainState d = pwOn then .next s else .next (s.pwrPost d peDemand)

/-- A stalled access names a window of a region's core. -/
def State.windowsAwaited (s : State) (r : Nat) : Bool :=
  s.hostLink.held.any fun h => h.targets.any fun x => (windowOf x.1).any fun w => w.1 / 48 == r

/-- A region has nothing to do (R365): no resident group, no uncompleted instruction, no stalled window access. -/
def State.regionIdle (s : State) (r : Nat) : Bool :=
  !s.windowsAwaited r && (List.range 48).all fun i =>
    let c := s.core (48 * r + i)
    decide (c.ve.resident = 0) && c.queues.all fun q => q.2.entries.all fun e => decide (e.st = .complete)

/-- The condition of IDLE (R365); the command says for how long the domain has had no request. -/
def State.domainIdles (s : State) (d idle : Nat) : Bool :=
  let down (k : Nat) : Bool := s.domainState k == pwParked || s.domainState k == pwOff
  if d < 16 then decide (1000000 ≤ idle) && s.regionIdle d
  else if d < 20 then
    (List.range 4).all (fun i => down (4 * (d - 16) + i)) && (List.range 3).all fun i => down (20 + 3 * (d - 16) + i)
  else if d < 40 then decide (1000000 ≤ idle)
  else false

/-- DOMAIN_IDLE (R365). -/
def execDomainIdle (d : Fin 50) (idleTicks : Nat) (s : State) : Res :=
  if s.domainIdles d idleTicks then .next (s.pwrPost d 2) else .next s

/-- An event that may bring a domain back to ON: what the host's accesses wait for may then complete (R366). -/
def State.pwrPostOn (s : State) (d ev : Nat) : State := (s.pwrPost d ev).hostDrain

/-- DOMAIN_READY (Table 14.5): rails and clocks are good. -/
def execDomainReady (d : Fin 50) (s : State) : Res := .next (s.pwrPostOn d 5)
/-- DOMAIN_ACTION_DONE (Table 14.5): the action has finished. -/
def execDomainActionDone (d : Fin 50) (s : State) : Res := .next (s.pwrPost d 6)
/-- DOMAIN_TIMEOUT (R364): the timeout of the last transition expires. -/
def execDomainTimeout (d : Fin 50) (s : State) : Res :=
  if (SMap.get none s.pwrDeadline d).isNone then .next s else .next (s.pwrPostOn d 7)
/-- DOMAIN_OVERTEMP (R364). -/
def execDomainOvertemp (d : Fin 50) (s : State) : Res := .next (s.pwrPost d peOvertemp)
/-- DOMAIN_FAULT (Table 14.5): a rail or a PLL fails. -/
def execDomainFault (d : Fin 50) (s : State) : Res := .next (s.pwrPost d 9)

/-! ### Operating points (R360 to R362) -/

/-- The target of a region (R360): the highest valid request of a partition with cores there, or point 0. -/
def State.target (s : State) (r : Nat) : Nat :=
  (List.range 16).foldl (fun m p =>
    let w := s.reg .RGN_PERF_REQ r p
    if w.getLsbD 31 && s.inRegion p r then max m (bitsOf w 3 0) else m) 0

/-- The region decides on its next one-point step (R360, R361), and shows its target and its caps. -/
def State.regionDecide (s : State) (r : Nat) : State :=
  let x := s.region r
  let t := s.target r
  let b (c : Nat) : Nat := if c < t then 1 else 0
  let s := (((s.setField .RGN_DVFS_STATUS r 0 27 24 t).setField .RGN_DVFS_STATUS r 0 23 23 (b x.thermCap)).setField
    .RGN_DVFS_STATUS r 0 22 22 (b x.powerCap)).setField .RGN_DVFS_STATUS r 0 21 21 (b x.neighCap)
  let want := min (min t x.thermCap) (min x.powerCap x.neighCap)
  let cur := s.point r
  if x.move.isSome || (s.curve r).isEmpty then s
  else if want = cur then s.setField .RGN_DVFS_STATUS r 0 20 20 0
  else
    (s.setRegion r { x with move := some (if cur < want then .slewUp (cur + 1) else .switchDown (cur - 1)) }).setField
      .RGN_DVFS_STATUS r 0 20 20 1

/-- A write of RGN_PERF_REQ (Table 14.9). -/
def State.perfReqWrite (s : State) (r p : Nat) (v : W32) : State :=
  (s.plainWrite { name := .RGN_PERF_REQ, i := r, j := p } v).regionDecide r

/-- PERF_REQ_WRITE (R360, R374). -/
def execPerfReqWrite (a : Agent) (r : RegionId) (p : PartId) (v : W32) (s : State) : Res :=
  if s.mayWrite a { name := .RGN_PERF_REQ, i := r, j := p } then .next (s.perfReqWrite r p v) else .next s

/-- A point comes into force; the region decides again when its move is over. -/
def State.atPoint (s : State) (r pt : Nat) : State := s.setField .RGN_DVFS_STATUS r 0 31 28 pt

def State.pointMv (s : State) (r pt : Nat) : Nat :=
  match (s.curve r)[pt]? with
  | some x => x.mv
  | none => (s.region r).mv

/-- VOLTAGE_SLEW_DONE (R361). -/
def execVoltageSlewDone (r : RegionId) (s : State) : Res :=
  let x := s.region r
  match x.move with
  | some (.slewUp pt) => .next (s.setRegion r { x with mv := s.pointMv r pt, move := some (.switchUp pt) })
  | some (.slewDown pt) => .next ((s.setRegion r { x with mv := s.pointMv r pt, move := none }).regionDecide r)
  | _ => .next s

/-- CLOCK_SWITCH_DONE (R361). -/
def execClockSwitchDone (r : RegionId) (s : State) : Res :=
  let x := s.region r
  match x.move with
  | some (.switchUp pt) => .next (((s.setRegion r { x with move := none }).atPoint r pt).regionDecide r)
  | some (.switchDown pt) => .next ((s.setRegion r { x with move := some (.slewDown pt) }).atPoint r pt)
  | _ => .next s

/-- The power cap after a sample (R362): one point down while the power exceeds the limit of the point in force, one up after
1 ms below 90 % of it. -/
def Region.powerSample (x : Region) (pt limit power : Nat) (now : W64) : Region :=
  if limit * 10 < power then { x with powerCap := pt - 1, lowSince := none }
  else if power * 10 < limit * 90 then
    match x.lowSince with
    | none => { x with lowSince := some now }
    | some t => if 1000000 ≤ (now - t).toNat then { x with powerCap := min 15 (x.powerCap + 1), lowSince := some now } else x
  else { x with lowSince := none }

/-- POWER_CAP_SAMPLE (R362): the power is in 0.1 W units. -/
def execPowerCapSample (r : RegionId) (power : W16) (s : State) : Res :=
  let s := s.setReg .RGN_POWER r 0 (power.setWidth 32)
  match (s.curve r)[s.point r]? with
  | none => .next s
  | some d =>
    .next ((s.setRegion r ((s.region r).powerSample (s.point r) d.watts power.toNat (s.gtb (r / 4)))).regionDecide r)

/-- Temperatures of a region and of a stack, in 0.1 °C. -/
def State.regionTemp (s : State) (r : Nat) : Nat := s.field .RGN_DVFS_STATUS r 0 15 0
def State.stackTemp (s : State) (k : Nat) : Nat := s.field .STK_TEMP k 0 15 0

/-- The neighbours of a region: of the same die, with a number that differs in one bit (14.2). -/
def neighbours (r : Nat) : List Nat := [r ^^^ 1, r ^^^ 2]

/-- The cap of R359 lifts once the region is at most 25.0 °C hotter than each neighbour. -/
def State.liftNeigh (s : State) (r : Nat) : State :=
  if (neighbours r).all fun n => decide (s.regionTemp r ≤ s.regionTemp n + 250) then
    (s.modRegion r fun x => { x with neighCap := 15 }).regionDecide r
  else s

/-- NEIGHBOUR_CAP_STEP (R359). -/
def execNeighbourCapStep (r : RegionId) (s : State) : Res :=
  if (neighbours r).any fun n => decide (s.regionTemp n + 300 < s.regionTemp r) && decide (s.point n < s.point r) then
    .next ((s.modRegion r fun x => { x with neighCap := s.point r - 1 }).regionDecide r)
  else .next (s.liftNeigh r)

/-! ### Temperature (R43, R236, R410) -/

/-- The step of a throttle curve after a sample (R43): a step begins above its threshold and ends below its threshold minus
its hysteresis. Steps are numbered from 1; 0 is none. -/
def throttleDown (cv : List ThStep) (temp : Nat) : Nat → Nat
  | 0 => 0
  | k + 1 =>
    match cv[k]? with
    | none => throttleDown cv temp k
    | some x => if temp + x.hyst < x.thr then throttleDown cv temp k else k + 1
def throttleStep (c : List ThStep) (old temp : Nat) : Nat :=
  max (c.filter fun x => decide (x.thr < temp)).length (throttleDown c temp old)

/-- The default curves (R43). -/
def defaultStackCurve : List ThStep := [⟨950, 75, 1, 20⟩, ⟨1000, 50, 2, 20⟩]
def defaultRegionCurve : List ThStep := [⟨1000, 75, 1, 20⟩, ⟨1050, 50, 1, 20⟩]
def State.stackCurve (s : State) (k : Nat) : List ThStep :=
  match SMap.get [] s.cfg.thStack k with
  | [] => defaultStackCurve
  | c => c
def State.regionCurve (s : State) (r : Nat) : List ThStep :=
  match SMap.get [] s.cfg.thRegion r with
  | [] => defaultRegionCurve
  | c => c

/-- Shutdown for overtemperature (R410): a service event, OVERTEMP to every domain, all of them kept PARKED, READY
deasserted. -/
def State.overtemp (s : State) (unit : Nat) : State :=
  if s.sto.overtemp then s
  else
    let s := s.serviceEvent 0xFF unit 0xFFFF
    let s := (List.range 49).foldl (fun s d => s.pwrPost d peOvertemp) s
    { s with sto := { s.sto with overtemp := true, ready := false } }.setField .STO_BOOT_STATUS 0 0 27 27 0

/-- STK_TEMP_SAMPLE (R236): the step of the curve, the fixed floor of 25 % from 105.0 °C until below 103.0 °C, and the
shutdown at 110.0 °C. A change of step sends PF0's vector 3 (Table 12.13). -/
def execStkTempSample (st : StackId) (temp : W16) (s : State) : Res :=
  let t := temp.toNat
  let old := s.field .STK_TEMP st 0 23 20
  let cv := s.stackCurve st
  let k := throttleStep cv old t
  let floor := decide (1050 ≤ t) || ((s.reg .STK_TEMP st).getLsbD 25 && decide (1030 ≤ t))
  let double := floor || (match cv[k - 1]? with
    | some x => decide (0 < k) && x.refx == 2
    | none => false)
  let b (x : Bool) : Nat := if x then 1 else 0
  let s := s.setReg .STK_TEMP st 0 (BitVec.ofNat 32 (b floor * 2 ^ 25 + b double * 2 ^ 24 + k * 2 ^ 20 + t))
  let s := s.setField .STK_TEMP_MAX st 0 15 0 (max t (s.field .STK_TEMP_MAX st 0 15 0))
  let s := if 0 < old then (s.addCount .STK_CNT_LO st 4 (Config.freeNat s.freeCtr)).nextFree else s
  let s := if k = old then s else s.msix 0 3
  if 1100 ≤ t then .next (s.overtemp st) else .next s

/-- The highest point whose frequency is at most a percentage of point 15's; point 0 when none is (R43). -/
def ratePoint (cv : List DvfsPoint) (rate : Nat) : Nat :=
  match cv[15]? with
  | none => 15
  | some top => (cv.zipIdx.filter fun x => decide (x.1.mhz * 100 ≤ top.mhz * rate)).foldl (fun m x => max m x.2) 0

/-- A region reads its sensor and applies its throttle curve (R43, R359). -/
def State.regionSample (s : State) (r : RegionId) (t : Nat) : State :=
  let cv := s.regionCurve r
  let k := throttleStep cv (s.region r).thermStep t
  let cap := match cv[k - 1]? with
    | some x => if k = 0 then 15 else ratePoint (s.curve r) x.rate
    | none => 15
  let s := s.setField .RGN_DVFS_STATUS r 0 15 0 t
  let s := (s.modRegion r fun x => { x with thermStep := k, thermCap := cap }).regionDecide r
  ((r : Nat) :: neighbours r).foldl (fun s n => s.liftNeigh n) s

/-- REGION_TEMP_SAMPLE (R43, R359, R410): of a region's sensor, or of a die uncore's, which bears on the shutdown alone. -/
def execRegionTempSample (sensor : TempSensor) (temp : W16) (s : State) : Res :=
  let t := temp.toNat
  match sensor with
  | .region r => if 1150 ≤ t then .next ((s.regionSample r t).overtemp (16 + r)) else .next (s.regionSample r t)
  | .dieUncore d =>
    let s := { s with sto := { s.sto with dieTemps := SMap.set none s.sto.dieTemps d (some t) } }
    if 1150 ≤ t then .next (s.overtemp (32 + d)) else .next s

end Sys2Proof.Machine
end

