-- ==== Sys2Proof/Machine/MemEvents.lean ====
section
/-!
DEFINITION. Events of the memories (9.3 to 9.8, 13.6, 13.9): golden copies armed and compared, uncorrectable errors in DRAM and
in the Hearth, patrol, and spare parts taken into use.
-/

namespace Sys2Proof.Machine

open Sys2Proof

/-! ### Golden copies (R234) -/

/-- A write of MOD_GOLD_CTRL (Table 9.13) that leaves the word `new`, and sets the bits of `sets`: a bit set starts or restarts
the compare of an entry that is not armed, a bit that reads 0 disarms. Bits of entries that are not defined are ignored. -/
def State.goldWrite (s : State) (p : Nat) (new sets : W32) : State :=
  let m : W32 := BitVec.ofNat 32 (2 ^ (s.goldens p).length - 1)
  let arm := new &&& m
  let st := s.reg .MOD_GOLD_STATUS p
  let armed := st &&& arm
  let busy := ((st >>> 16) &&& arm) ||| (sets &&& arm &&& ~~~armed)
  (s.setReg .MOD_GOLD_CTRL p 0 arm).setReg .MOD_GOLD_STATUS p 0
    ((st &&& 0xFF00#32) ||| (armed &&& 0xFF#32) ||| ((busy &&& 0xFF#32) <<< 16))

/-- GOLD_ARM (R234): a plain write of MOD_GOLD_CTRL. -/
def execGoldArm (a : Agent) (p : PartId) (v : W32) (s : State) : Res :=
  if s.mayWrite a { name := .MOD_GOLD_CTRL, i := p } then .next (s.goldWrite p v v) else .next s

/-- GOLD_DISARM (R234): a plain write of MOD_GOLD_CTRL. -/
def execGoldDisarm (a : Agent) (p : PartId) (v : W32) (s : State) : Res :=
  if s.mayWrite a { name := .MOD_GOLD_CTRL, i := p } then .next (s.goldWrite p v v) else .next s

/-- Lines of the control caches in a range reach their homes, as a read by the Stoker has it (R77). -/
def State.settleRange (s : State) (a n : Nat) : State :=
  let lines := s.cores.flatMap fun e => (e.2.cache ++ e.2.evict).map (·.line)
  (lines.filter fun x => decide (a < (x + 1) * 256) && decide (x * 256 < a + n)).foldl (fun s x => s.recall x false) s

/-- The offsets in a range at which memory holds anything but its blank contents. -/
def State.offsetsIn (s : State) (a n : Nat) : List Nat :=
  (s.mem.filterMap fun e => if a ≤ e.1 ∧ e.1 < a + n then some (e.1 - a) else none) ++
  s.lost.flatMap fun g => ((List.range 64).map (g * 64 + ·)).filterMap fun x => if a ≤ x ∧ x < a + n then some (x - a) else none

/-- The two copies of an entry hold the same bytes. -/
def State.copiesMatch (s : State) (g : Golden) : Bool :=
  (s.offsetsIn g.near g.len ++ s.offsetsIn g.ring g.len).all fun o => s.byte (g.near + o) == s.byte (g.ring + o)

/-- GOLD_COMPARE_DONE (R234): the entry is armed, or its MISMATCH bit sets. -/
def execGoldCompareDone (p : PartId) (e : Fin 8) (s : State) : Res :=
  match (s.goldens p)[e.val]? with
  | none => .next s
  | some g =>
    if !(s.reg .MOD_GOLD_STATUS p).getLsbD (16 + e.val) then .next s
    else
      let s := (s.settleRange g.near g.len).settleRange g.ring g.len
      let ok := s.copiesMatch g
      let b (x : Bool) : Nat := if x then 1 else 0
      .next (((s.setField .MOD_GOLD_STATUS p 0 (16 + e.val) (16 + e.val) 0).setField .MOD_GOLD_STATUS p 0 (8 + e.val)
        (8 + e.val) (b !ok)).setField .MOD_GOLD_STATUS p 0 e.val e.val (b ok))

/-! ### Uncorrectable errors (Table 9.3, R225, R228, R349 to R351) -/

/-- A line is rewritten from its other copy (R235, R350): it is no longer lost, and a record says so. -/
def State.refetch (s : State) (to' src unit : Nat) : State :=
  let line := to' / 128 * 128
  let bs := s.bytes (src / 128 * 128) 128
  let s := { s.pokes line bs with lost := s.lost.filter fun g => g != granuleOf line && g != granuleOf (line + 64) }
  s.ashNow s.srcStoker 0x08 1 0xFF unit 0xFFFF 0 line 128

/-- Both granules of a line can be read. -/
def State.lineReads (s : State) (a : Nat) : Bool :=
  !(s.lost.contains (granuleOf (a / 128 * 128)) || s.lost.contains (granuleOf (a / 128 * 128 + 64)))

/-- An uncorrectable error of near memory, by the class of the data (Table 9.3). A row that is faulty is spared first (R235). -/
def State.nearError (s : State) (a k : Nat) (grate : Bool) : State :=
  let u := s.ceUnit a
  match s.armedAt a with
  | some (p, e, _) =>
    match (s.goldens p)[e]? with
    | none => s.loseGranule u a k 0xFFFF
    | some g =>
      let r := g.ring + (a - g.near)
      if s.lineReads r then (s.errorIn u).refetch a r k else s.loseGranule u a k 0xFFFF
  | none =>
    match s.nearPoolOf a with
    | some p => if grate then (s.markLost a).errorIn u else s.loseKv u p k a
    | none => s.loseGranule u a k 0xFFFF

/-- An uncorrectable error of the ring (R228, R350). -/
def State.ringError (s : State) (a f : Nat) : State :=
  let u := s.ceUnit a
  match s.armedAt a with
  | some (p, e, _) =>
    match (s.goldens p)[e]? with
    | none => s.loseGranule u a f 0xFFFF
    | some g =>
      let n := g.near + (a - g.ring)
      if s.lineReads n then s.refetch a n f else s.loseGranule u a f 0xFFFF
  | none =>
    match s.farPoolOf a with
    | some p => s.loseKv u p f a
    | none => s.loseGranule u a f 0xFFFF

/-- NEAR_UE (R226). An address of another memory has no such error. -/
def execNearUe (addr : Nat) (who : UeReader) (s : State) : Res :=
  match s.place addr with
  | none => if s.isScratch addr then .next s else .fault .noSuchAddress
  | some x =>
    if x.ring then .next s
    else .next (s.nearError addr x.unit (match who with
      | .grate _ _ => true
      | .other => false))

/-- RING_UE (R228). -/
def execRingUe (addr : Nat) (s : State) : Res :=
  match s.place addr with
  | none => if s.isScratch addr then .next s else .fault .noSuchAddress
  | some x => if x.ring then .next (s.ringError addr x.unit) else .next s

/-- The Hearth's tag of a line leaves its slice. -/
def State.hearthDrop (s : State) (h line : Nat) : State :=
  { s with hearth := SMap.set [] s.hearth h ((SMap.get [] s.hearth h).filter fun e => e.1 != line) }

/-- Data of a dirty Hearth line is lost: of a KV page (R349), or any other (R351). -/
def State.dirtyError (s : State) (u : CeUnit) (a h : Nat) : State :=
  match s.nearPoolOf a, s.farPoolOf a with
  | some p, _ => s.loseKv u p h a
  | none, some p => s.loseKv u p h a
  | none, none => s.loseGranule u a h 0xFFFF

/-- HEARTH_UE (R225): a clean line is discarded, fetched again by the next access, and the event is logged (R14, log entry 95); a
dirty line or scratchpad loses data. An error that the code corrects is counted (R330). -/
def execHearthUe (error : EccAt Nat) (s : State) : Res :=
  let addr := error.place
  let r := error.result
  let u := s.hearthUnit addr
  if s.isScratch addr then
    match r with
    | .clean => .next s
    | .corrected => .next (s.correctError u)
    | .uncorrectable => .next (s.loseGranule u addr u.unit 0xFFFF)
  else
    match s.homeOf addr with
    | none => .fault .noSuchAddress
    | some h =>
      match (SMap.get [] s.hearth h).find? fun e => e.1 == addr / 128 with
      | none => .next s
      | some (line, dirty, _) =>
        match r with
        | .clean => .next s
        | .corrected => .next (s.correctError u)
        | .uncorrectable =>
          let s := s.hearthDrop h line
          .next (if dirty then s.dirtyError u addr h else s.correctError u)

/-- PATROL_SCRUB (R226, R228, R235): an error that it corrects is counted, and recorded once a second (R330, Table 9.12). A domain that is
not ON is woken to patrol (R365). -/
def execPatrolScrub (addr : Nat) (r : EccResult) (s : State) : Res :=
  match s.place addr with
  | none => if s.isScratch addr then .next s else .fault .noSuchAddress
  | some x =>
    if s.domainState x.domain ≠ pwOn then .next (s.wakeDomain x.domain)
    else
      match r with
      | .clean => .next s
      | .corrected => .next (s.correctError (s.ceUnit addr))
      | .uncorrectable => .next (if x.ring then s.ringError addr x.unit else s.nearError addr x.unit false)

/-! ### Spare parts -/

/-- PSEUDO_CHANNEL_FAIL (R226): the stack's spare takes its place, and stays in use (R345). With the spare in use, errors are
met as they are read (Table 9.3). -/
def execPseudoChannelFail (st : StackId) (pc : Fin 64) (s : State) : Res :=
  if (s.reg .STK_REPAIR st).getLsbD 8 then .next s
  else
    .next (((s.setField .STK_REPAIR st 0 8 8 1).setField .STK_REPAIR st 0 5 0 pc).ashNow s.srcStoker 0x02 1 0xFF st 0xFFFF 0 pc 1)

/-- BRIDGE_LANE_FAIL (Table 13.1, R345): one spare lane per 32 data lanes; beyond it the bridge runs at the rate of its working
lanes. Without a lane, a flit's CRC failed on the bridge and its retry carried it over: an error corrected (R330). -/
def execBridgeLaneFail (bridge : Fin 4) (lane : Option Nat) (s : State) : Res :=
  match lane with
  | none => .next (s.correctError { kind := 5, unit := bridge })
  | some lane =>
    let k := bridge * 1024 + lane / 32
    let n := SMap.get 0 s.bridgeLanes k
    let s := { s with bridgeLanes := SMap.set 0 s.bridgeLanes k (n + 1) }
    if n = 0 then .next (s.ashNow s.srcStoker 0x02 1 0xFF bridge 0xFFFF 0 lane 1) else .next s

end Sys2Proof.Machine
end

