-- ==== Sys2Proof/Machine/FaultCmds.lean ====
section
/-!
DEFINITION. The commands of faults and repair (7.7, 13): failing cores and cubes, migrations, the record store, the lag monitor,
test slices, losses, and the ash log's registers.
-/

namespace Sys2Proof.Machine

open Sys2Proof

/-! ### Failing cores (R331, R342, R344) -/

/-- DATAPATH_CHECK_FAIL (R331). -/
def execDatapathCheckFail (l : CoreId) (s : State) : Res := .next (s.failCore l)
/-- An error that the code of a core's volatile memory, or of a record store, corrects (R194, R330); which row it is met in is free. -/
def State.correctIn (s : State) (kind unit : Nat) : State :=
  s.nextFree.correctError { kind := kind, unit := unit, row := Config.freeNat s.freeCtr }
/-- VOLATILE_UE (R331): an error of a register file, queue, L1, bank or accumulation buffer that its code corrects is counted; one
that it does not fails the core. -/
def execVolatileUe (error : EccAt CoreId) (s : State) : Res :=
  match error.result with
  | .clean => .next s
  | .corrected => .next (s.correctIn 0 (s.physOf error.place))
  | .uncorrectable => .next (s.failCore error.place)

/-- HEARTBEAT_TIMEOUT (R331). -/
def execHeartbeatTimeout (l : CoreId) (s : State) : Res := .next (s.failCore l)

/-- The snapshot records of a core's units show that it migrated during a damper stop (R395). -/
def State.markMigrated (s : State) (l : CoreId) : State :=
  if !s.damperActive then s
  else
    let keys := [ModeUnit.cc l, .ve l, .mu l, .de l].map (modeKey 0)
    let stops := s.damper.stops.map fun e => if keys.contains e.1 then (e.1, e.2.1, e.2.2.1, e.2.2.2 ||| 4) else e
    { s with damper := { s.damper with stops := stops } }

/-- MIGRATION_COMPLETE (R342 steps 3 to 8): of the core that the cluster is migrating. The host's accesses that stalled complete, in the
order of their arrival (R230). -/
def execMigrationComplete (c : ClusterId) (s : State) : Res :=
  match (s.cluster c).migrating with
  | [] => .next s
  | (l, failed, old) :: _ =>
    .next ((s.finishMigration (Fin.ofNat 768 l) failed old).markMigrated (Fin.ofNat 768 l)).hostDrain

/-- RECORD_STORE_UE (R332): a copy that is lost is rewritten from the other, which corrects the error (R14, log entry 95); with both
lost, it matters when the record is needed. -/
def execRecordStoreUe (l : CoreId) (q : QSel) (acc : Nat) (r : RecordUe) (s : State) : Res :=
  match r with
  | .corrected => .next (s.correctIn 1 (l / 8))
  | .oneCopy => .next (s.correctIn 1 (l / 8))
  | .bothCopies => .next (s.modEntry l q acc fun e => { e with lost := true })

/-! ### Cubes (R193 to R195) -/

/-- The MU works under its new map: its mode, the instructions in the array restarted, and with fewer than two working cubes
its core failed (R194, R195). -/
def State.cubesChanged (s : State) (k : Nat) : State :=
  let s := s.setMuMode k
  match s.logicalOf k with
  | none => s
  | some l =>
    let s := (s.restartMmas l).countReplay l (s.core l).mu.runs.length
    if s.workingCubes k < 2 then s.failCore (Fin.ofNat 768 l) else s

/-- CUBE_ERROR (R194): the cube is failed and the spare takes its place, or the MU enters broadcast mode. An error of a bank or of the
accumulation buffer that its code corrects is logged, and nothing else happens. -/
def execCubeError (l : CoreId) (cube : EccAt (Fin 9)) (s : State) : Res :=
  let k := s.physOf l
  let i := cube.place.val
  match cube.result with
  | .clean => .next s
  | .corrected => .next (s.correctIn 0 k)
  | .uncorrectable =>
    if (s.reg .CORE_MU_CUBES k).getLsbD (16 + i) then .next s
    else
      let s := (s.setField .CORE_MU_CUBES k 0 (16 + i) (16 + i) 1).setField .CORE_MU_CUBES k 0 3 0 15
      let sev := if 8 ≤ s.workingCubes k then 1 else 2
      let s := s.ashNow s.srcStoker 0x06 sev ((s.partOf l).getD 0xFF) k l 0 i 1
      .next (s.cubesChanged k)

/-- A write of CORE_MU_CUBES (Table 7.9). -/
def State.muCubesWrite (s : State) (k : Nat) (v : W32) : State :=
  (s.plainWrite { name := .CORE_MU_CUBES, i := k } v).cubesChanged k

/-- MU_CUBES_WRITE (R193, R198): only the Stoker's. -/
def execMuCubesWrite (a : Agent) (k : PhysId) (v : W32) (s : State) : Res :=
  if s.mayWrite a { name := .CORE_MU_CUBES, i := k } then .next (s.muCubesWrite k v) else .next s

/-! ### The lag monitor (R346, R347) -/

/-- Engine codes of Table 13.14. -/
def lagCode : LagEngine → Nat
  | .ve => 1
  | .mu => 2
  | .de => 3

/-- The pace of an engine of a core over a sample. -/
structure LagPace where
  core : CoreId
  engine : LagEngine
  pace : Rat
deriving DecidableEq, Repr

/-- ΔNOMINAL ÷ ΔBUSY: both in thousandths of a cycle, but for a DE's NOMINAL, which is the bytes it moved ÷ 64 (R346). -/
def Core.pace (c : Core) (e : LagEngine) : Rat :=
  let n := SMap.get 0 c.nominal (lagCode e)
  (if e = .de then (n : Rat) / 64 * 1000 else (n : Rat)) / ((SMap.get 0 c.busy (lagCode e) : Nat) : Rat)

/-- A number put in its place in a rising list. -/
def insertRat (x : Rat) : List Rat → List Rat
  | [] => [x]
  | y :: t => if x ≤ y then x :: y :: t else y :: insertRat x t

/-- The median: of an even number of values, the mean of the two in the middle. -/
def median (xs : List Rat) : Rat :=
  let l := xs.foldr insertRat []
  let n := l.length
  (l.getD ((n - 1) / 2) 0 + l.getD (n / 2) 0) / 2

/-- A sample judges an engine whose ΔBUSY is at least one tenth of the 64 µs. -/
def State.judged (s : State) (r : Nat) (c : Core) (e : LagEngine) : Bool :=
  let b := SMap.get 0 c.busy (lagCode e)
  decide (0 < b) && decide (64 * 1000 * s.mhz r ≤ 10 * b)

/-- The paces of a region's engines over the sample that ends. -/
def State.paces (s : State) (r : Nat) : List LagPace :=
  (s.cores.filter fun c => decide (c.1 / 48 = r) && !s.fenced c.1).flatMap fun c =>
    ([LagEngine.ve, .mu, .de].filter (s.judged r c.2)).map fun e => { core := Fin.ofNat 768 c.1, engine := e, pace := c.2.pace e }

/-- The pace is below the threshold against the region's cores of the same partition. -/
def State.slow (s : State) (r : Nat) (xs : List LagPace) (x : LagPace) : Bool :=
  let peers := xs.filter fun y => decide (y.engine = x.engine) && decide (s.partOf y.core = s.partOf x.core)
  decide (x.pace * 100 < ((100 : Nat) - s.field .RGN_LAG_CFG r 0 7 0 : Nat) * median (peers.map (·.pace)))

def lagKey (l : Nat) (e : LagEngine) : Nat := l * 4 + lagCode e

/-- The samples in a row in which an engine was slow span the window (R346). -/
def State.lags (s : State) (r : Nat) (m : SMap Nat) (l : Nat) (e : LagEngine) : Bool :=
  decide (1 ≤ SMap.get 0 m (lagKey l e)) && decide (s.field .RGN_LAG_CFG r 0 15 8 * 1000 ≤ SMap.get 0 m (lagKey l e) * 64)

/-- A core lags by one of its engines: it migrates to a spare that is not degraded; without one the lag is recorded, once as it begins
(R347). -/
def State.lagFound (s : State) (r : Nat) (began : Bool) (l : CoreId) (e : LagEngine) : State :=
  let c := l.val / 8
  let s := (s.setField .RGN_LAG_STATUS r 0 19 10 l).setField .RGN_LAG_STATUS r 0 9 8 (lagCode e)
  if s.hasSpare c && !(s.reg .CLU_SPARE c).getLsbD 30 then
    (s.modRegion r fun y => { y with lag := y.lag.filter fun e => e.1 / 4 != l.val }).beginMigration l false
  else
    let s := s.setField .RGN_LAG_STATUS r 0 31 31 1
    if began then
      (s.bumpField .RGN_LAG_STATUS r 0 7 0 1).ashNow s.srcStoker 0x0D 2 ((s.partOf l).getD 0xFF) (s.physOf l) l 0 0 0
        (lagCode e)
    else s

/-- The counts of a region's cores begin anew for the next sample. -/
def State.lagReset (s : State) (r : Nat) : State :=
  { s with cores := s.cores.map fun c => if c.1 / 48 = r then (c.1, { c.2 with busy := [], nominal := [] }) else c }

/-- The engine by which a core lags, if one does: `first` where that one does. -/
def State.lagOf (s : State) (r : Nat) (first : LagEngine) (m : SMap Nat) (l : Nat) : Option LagEngine :=
  [first, .ve, .mu, .de].find? fun e => s.lags r m l e

/-- LAG_SAMPLE (R346): every 64 µs. A core lags once, by however many of its engines; which of several the
spec does not say, and `first` is the one named before the others. -/
def execLagSample (r : RegionId) (first : LagEngine) (s : State) : Res :=
  if !(s.reg .RGN_LAG_CFG r).getLsbD 31 then .next (s.lagReset r)
  else
    let xs := s.paces r
    let low := xs.filter fun x => s.slow r xs x
    let old := (s.region r).lag
    let new := low.foldl (fun m x => SMap.set 0 m (lagKey x.core x.engine) (SMap.get 0 old (lagKey x.core x.engine) + 1)) []
    let s := ((s.lagReset r).modRegion r fun y => { y with lag := new }).setField .RGN_LAG_STATUS r 0 31 31 0
    .next ((s.cores.map (·.1)).foldl (fun s l =>
      match s.lagOf r first new l with
      | none => s
      | some e => s.lagFound r (s.lagOf r first old l).isNone (Fin.ofNat 768 l) e) s)

/-! ### Test slices (R348) -/

/-- The end of a slice in CLU_TEST: LAST, and RUN clears; its record in the ash log. -/
def State.sliceOver (s : State) (c last sev slot : Nat) : State :=
  let s := (s.setField .CLU_TEST c 0 29 28 last).setField .CLU_TEST c 0 30 30 0
  s.ashNow s.srcStoker 0x05 sev 0xFF (c * 9 + slot) 0xFFFF 0 slot 1 last

/-- A slice is skipped: no working spare that is not degraded, the partition quiesced for a submission, or a damper stop
pending (R348); a slot that has failed has nothing to test. -/
def State.skipSlice (s : State) (c slot : Nat) : Bool :=
  !s.hasSpare c || (s.reg .CLU_SPARE c).getLsbD 30 || (s.reg .CLU_SPARE c).getLsbD (16 + slot) ||
    decide (s.field .MOD_DAMP_STATUS 0 0 31 29 ≠ 0) ||
    match s.partOfCluster c with
    | some p => s.partQuiesced p
    | none => false

/-- A slice begins on the slot whose turn it is: its logical core migrates off it, and its MU is in MODE 2. The spare itself
is tested where it stands. -/
def State.beginSlice (s : State) (c : ClusterId) (slot : Nat) : State :=
  let x := s.cluster c
  if x.test.isSome || slot != x.nextSlot then s
  else
    let s := s.modCluster c fun x => { x with nextSlot := (slot + 1) % 9 }
    if s.skipSlice c slot then s.sliceOver c 3 0 slot
    else
      let s := match s.logicalOf (c * 9 + slot) with
        | some l => s.beginMigration (Fin.ofNat 768 l) false
        | none => s.setSpare c 15
      (s.modCluster c fun x => { x with test := some slot }).setField .CORE_MU_CUBES (c * 9 + slot) 0 31 30 2

/-- TEST_SLICE (R348): every PERIOD minutes while CLU_TEST.ENABLE is set. -/
def execTestSlice (c : ClusterId) (slot : Fin 9) (s : State) : Res :=
  if (s.reg .CLU_TEST c).getLsbD 31 then .next (s.beginSlice c slot) else .next s

/-- TEST_SLICE_RUN (Table 13.12): RUN starts a slice now. -/
def execTestSliceRun (a : Agent) (c : ClusterId) (slot : Fin 9) (s : State) : Res :=
  if s.mayWrite a { name := .CLU_TEST, i := c } then .next ((s.setField .CLU_TEST c 0 30 30 1).beginSlice c slot) else .next s

/-- TEST_SLICE_END (R348): the slot becomes the spare, FAILED or DEGRADED. -/
def execTestSliceEnd (c : ClusterId) (r : TestResult) (s : State) : Res :=
  let x := s.cluster c
  match x.test with
  | none => .next s
  | some slot =>
    if !x.migrating.isEmpty then .next s
    else
      let others := x.degraded.filter (· != slot)
      let s := (s.setCluster c { x with test := none, degraded := if r = .slow then others ++ [slot] else others })
      let s := (s.setField .CORE_MU_CUBES (c * 9 + slot) 0 31 30 0).setMuMode (c * 9 + slot)
      match r with
      | .failed => .next ((s.markFailed c slot).sliceOver c 2 2 slot)
      | _ => .next ((s.setSpare c slot).sliceOver c 1 0 slot)

/-! ### Losses (R351) -/

/-- A write of MOD_LOSS_CFG (Table 13.15): RESUME restarts the halted engines; without HALTED it has no effect. -/
def State.lossWrite (s : State) (p : Nat) (v : W32) : State :=
  let s := s.setField .MOD_LOSS_CFG p 0 23 0 (bitsOf v 23 0)
  if !v.getLsbD 30 || !(s.reg .MOD_LOSS_CFG p).getLsbD 31 then s
  else
    let s := s.setField .MOD_LOSS_CFG p 0 31 31 0
    if s.damperActive then s
    else
      let s := (s.coresOf p).foldl (fun s l =>
        s.modCore l fun c => { c with cc := { c.cc with stopped := false }, ve := { c.ve with stopped := false } }) s
      (s.clustersOf p).foldl (fun s c => s.modCluster c fun x => { x with stopped := false }) s

/-- LOSS_RESUME (R351). -/
def execLossResume (a : Agent) (p : PartId) (s : State) : Res :=
  if s.mayWrite a { name := .MOD_LOSS_CFG, i := p } then
    .next (s.lossWrite p (putBits (s.reg .MOD_LOSS_CFG p) 31 30 1))
  else .next s

/-- A granule of a core's private memory reads as all-ones until it is written (R351). -/
def State.losePrivate (s : State) (l off : Nat) : State :=
  s.modCore l fun c => c.privStore (off / 64 * 64) (List.replicate 64 0xFF)

/-- The machine-mode CSRs that the CC state array holds (R336). -/
def stateCsrs : List Nat := [0x300, 0x304, 0x305, 0x320, 0x340, 0x341, 0x342, 0x343, 0x344, 0x7C1, 0xB02]

/-- A loss in the CC state array: the integer registers, the pc, the machine-mode CSRs and the signal sequence that the granule held
read as all-ones; which it held is free. -/
def State.loseCcState (s : State) (l : Nat) : State :=
  let pick (i : Nat) : Bool := decide (Config.freeNat (s.freeCtr + i) % 2 = 1)
  let s' := s.modCC l fun c =>
    let c := (span 1 31).foldl (fun c i => if pick i then c.setX i (BitVec.allOnes 64) else c) c
    let c := if pick 32 then { c with sigSeq := BitVec.allOnes 32 } else c
    if pick 0 then { c with pc := BitVec.allOnes 64 } else c
  let s' := stateCsrs.foldl (fun t n => if pick (64 + n) then t.csrPut l n (BitVec.allOnes 64) else t) s'
  { s' with freeCtr := s.freeCtr + 4096 }

/-- The partition of a core stops after a loss in its retained state; a core of no partition has only the service event. -/
def State.haltCorePart (s : State) (l a : Nat) : State :=
  match s.partOf l with
  | some p => s.haltPart p (s.physOf l) l a
  | none => s.serviceEvent 0xFF (s.physOf l) l 0 a 64

/-- The place of a part of retained state among its core's rows: local memory, the private memory above it, the CC state array. -/
def retainedRow : RetainedPart → Nat
  | .localMem off => off
  | .imem off => 0x80000 + off
  | .dmem off => 0x90000 + off
  | .locked off => 0xA0000 + off
  | .ccState => 0xB0000

/-- A loss of retained state (R351): local memory is restarted from a covering record or lost; a loss in IMEM, DMEM, a locked entry or
the CC state array is a loss without copy whenever it is met. -/
def State.loseRetained (s : State) (u : CeUnit) (l : CoreId) (part : RetainedPart) : State :=
  let priv (off : Nat) : State := (s.losePrivate l off).haltCorePart l (privBase + off / 64 * 64)
  match part with
  | .localMem off => if off < 0x80000 then s.loseGranule u (localAddr l off) (s.physOf l) l else s
  | .imem off => if off < 0x8000 then priv off else s
  | .dmem off => if off < 0x10000 then priv (0x10000 + off) else s
  | .locked off => if s.privOk l (0x20000 + off) 1 then priv (0x20000 + off) else s
  | .ccState => (s.loseCcState l).haltCorePart l 0

/-- RETAINED_STATE_UE (R330, R351): an error that the code corrects is counted for its row; another loses data. -/
def execRetainedStateUe (l : CoreId) (error : EccAt RetainedPart) (s : State) : Res :=
  let k := s.physOf l
  let u : CeUnit := { kind := 0, unit := k, row := Config.rowOf 0 k (retainedRow error.place) }
  match error.result with
  | .clean => .next s
  | .corrected => .next (s.correctError u)
  | .uncorrectable => .next (s.loseRetained u l error.place)

/-! ### The ash log's registers (R352, Table 13.16) -/

/-- A record as its 64 bytes (Table 13.8). -/
def AshRec.bytes (r : AshRec) : List Byte :=
  leBytes 8 r.time.toNat ++ leBytes 4 r.src.toNat ++ leBytes 2 r.kind.toNat ++ leBytes 1 r.severity ++ leBytes 1 r.part ++
  leBytes 2 r.unit ++ leBytes 2 r.lcore ++ leBytes 4 r.span.toNat ++ leBytes 8 r.start.toNat ++ leBytes 8 r.length.toNat ++
  leBytes 24 r.detail.toNat

/-- The order of records: by TIME, then SOURCE (R352). -/
def AshRec.before (a b : AshRec) : Bool :=
  decide (a.time.toNat < b.time.toNat) || (decide (a.time = b.time) && decide (a.src.toNat < b.src.toNat))

/-- The oldest record of the log. -/
def oldestRec : List AshRec → Option AshRec
  | [] => none
  | r :: t => some (t.foldl (fun m x => if x.before m then x else m) r)

def State.readable (s : State) : Nat := s.field .STO_ALOG_STATUS 0 0 16 0

/-- ASH_RECORD_READABLE (R352): one more record is 100 µs old. -/
def execAshRecordReadable (s : State) : Res :=
  if s.readable < s.sto.ash.length then .next (s.setField .STO_ALOG_STATUS 0 0 16 0 (s.readable + 1)) else .next s

/-- The oldest readable record leaves the log. -/
def State.takeRecord (s : State) : Option (AshRec × State) :=
  if s.readable = 0 then none
  else
    match oldestRec s.sto.ash with
    | none => none
    | some r =>
      let s := { s with sto := { s.sto with ash := s.sto.ash.erase r } }
      some (r, s.setField .STO_ALOG_STATUS 0 0 16 0 (s.readable - 1))

/-- A write of POP (Table 13.16): the oldest readable record goes to the window. -/
def State.alogPop (s : State) : State :=
  match s.takeRecord with
  | none => s
  | some (r, s) =>
    let bs := r.bytes
    (List.range 16).foldl (fun s w => s.setReg .STO_ALOG_REC 0 w (BitVec.ofNat 32 (fieldLe bs (4 * w) 4))) s

/-- ALOG_POP (R352). -/
def execAlogPop (a : Agent) (s : State) : Res :=
  if s.mayWrite a { name := .STO_ALOG_POP } then .next s.alogPop else .next s

end Sys2Proof.Machine
end

