-- ==== Sys2Proof/Machine/Packets.lean ====
section
/-!
DEFINITION. Packets that arrive (12.4, 12.5): age, routing and transit, remote reads and writes and their admission, responses,
counter signals between modules, and resends.
-/

namespace Sys2Proof.Machine

open Sys2Proof

/-! ### Arrival at a port -/

/-- A packet that the port has received whole is handled: its flit buffers are free and its payload is counted. -/
def State.takeIn (s : State) (p : Nat) (pk : Packet) : State :=
  let x := s.port p
  let s := s.addCount .FLP_CNT_LO p 1 pk.data.length
  if x.inbox.contains pk then
    (s.setPort p { x with inbox := x.inbox.erase pk }).freeFlits p pk.vc.toNat (flitsOf pk.data.length)
  else s

/-- A damper stop is armed or active: ages and resends are suspended (R391). -/
def State.agesStop (s : State) : Bool := decide (1 ≤ s.field .MOD_DAMP_STATUS 0 0 31 29)

/-- The packet is older than 50 µs (R301). -/
def State.aged (s : State) (p : Nat) (pk : Packet) : Bool :=
  !s.agesStop && decide (50000 < (((s.gtb (p / 9)).setWidth 32 : W32) - pk.born).toNat)

/-- A discarded packet is counted and recorded, and never answered (R301, Table 13.9). -/
def State.discard (s : State) (p : Nat) (pk : Packet) (count : Bool) : State :=
  let s := if count then s.bumpField .FLP_ERRS p 0 15 8 1 else s
  s.ashNow (s.srcPort p) 0x0C 0 0xFF p 0xFFFF 0 pk.tag.toNat 1 (pk.op.toNat + pk.src.toNat * 2 ^ 8)

/-- A packet of this module in answer to one that came, with its tag. -/
def State.respond (s : State) (pk : Packet) (op addr len : Nat) (data : List Byte) : State :=
  (s.inject pk.src.toNat op pk.tag.toNat addr len 0 data).2

/-- A REFUSE in answer to a packet (Table 12.6): reasons 1 NO_ROUTE, 2 NOT_ADMITTED, 3 ADDRESS, 4 DIRECTORY. -/
def State.refuse (s : State) (pk : Packet) (why : Nat) : State := s.respond pk opRefuse 0 why []

/-- The operations that are answered (Table 12.6). -/
def answered (op : Nat) : Bool :=
  op == opRead || op == opWrite || op == opSignal || op == opRegister || op == opCounterRead

/-- A packet for another module moves on by the tables in force at its port (R305, R306); one that no route serves is refused
where its operation has an answer, and one that has left its group is counted as a misroute. The bridges that it crosses count it
(R10). -/
def State.forward (s : State) (p : Nat) (pk : Packet) : State :=
  let x := s.port p
  match s.route x.groupRoutes x.memberRoutes pk.dst.toNat pk.op.toNat pk.vc.toNat with
  | .deliver => s
  | .send port vc =>
    ((s.addCount .FLP_CNT_LO port 2 pk.data.length).countBridges (p / 9) (port / 9) pk.data.length).sendPacket port
      { pk with vc := BitVec.ofNat 3 vc }
  | .discard => (s.setPort p { s.port p with misroutes := (s.port p).misroutes + 1 }).discard p pk false
  | .noRoute => if answered pk.op.toNat then s.refuse pk 1 else s

/-! ### Remote reads and writes (R302) -/

/-- A MOD_RMT entry admits a range for a source module (R302, Table 12.20). -/
def State.rmtMatch (s : State) (e src addr len : Nat) (write : Bool) : Bool :=
  let w := s.reg .RMT_SRC e
  let base := s.pair .RMT_BASE_LO .RMT_BASE_HI e
  let size := s.field .RMT_LEN e 0 27 0 * 4096
  let mask := bitsOf w 19 10
  w.getLsbD 31 && (!write || w.getLsbD 30) && decide (src / 256 &&& mask = bitsOf w 9 0 &&& mask) &&
    decide (base ≤ addr) && decide (addr + len ≤ base + size)

/-- Why an incoming access is refused, none when it is admitted (R302). -/
def State.rmtRefusal (s : State) (pk : Packet) (write : Bool) : Option Nat :=
  let a := pk.addr.toNat
  let n := pk.len.toNat
  if n = 0 ∨ 4096 < n ∨ !s.isMemoryRange a n then some 3
  else if (List.range 64).any fun e => s.rmtMatch e pk.src.toNat a n write then none
  else some 2

/-- An incoming READ (R302): answered with READ_DATA or REFUSE. -/
def State.onRead (s : State) (p : Nat) (pk : Packet) : State :=
  match s.rmtRefusal pk false with
  | some why => s.refuse pk why
  | none =>
    let r := s.readMem (.remote (Fin.ofNat 36 p)) pk.addr.toNat pk.len.toNat
    r.2.respond pk opReadData 0 pk.len.toNat r.1

/-- An incoming WRITE (R302): performed and acknowledged, or refused and recorded (R303). -/
def State.onWrite (s : State) (p : Nat) (pk : Packet) : State :=
  match s.rmtRefusal pk true with
  | some why =>
    (s.ashNow (s.srcPort p) 0x14 0 0xFF p 0xFFFF 0 pk.addr.toNat pk.len.toNat (why + pk.src.toNat * 2 ^ 8)).refuse pk why
  | none =>
    (s.writeMem (.remote (Fin.ofNat 36 p)) pk.addr.toNat (pk.data.take pk.len.toNat)).respond pk opWriteAck 0 0 []

/-! ### Responses -/

/-- A remote request that a packet answers: of an operation that it answers, sent to the module that answers. -/
def State.asked (s : State) (pk : Packet) (ops : List Nat) : Option Remote :=
  match SMap.get none s.remotes pk.tag.toNat with
  | none => none
  | some r => if r.pk.dst = pk.src && ops.contains r.pk.op.toNat then some r else none

/-- The group that waits for a remote read goes on: its load is issued again, and finds the answer; a read of the host completes. -/
def State.readyGroup (s : State) (u : Option Unit) (grp : Option Nat) (tag : Nat) : State :=
  match u, grp with
  | some (.ve l), some g =>
    match s.group l g with
    | some x => if x.status = .missed (remoteKey tag) then s.setGroup l g (some { x with status := .ready }) else s
    | none => s
  | some (.host _), _ => s.hostDrain
  | _, _ => s

/-- A remote write of a group, a control core or an instruction of a DMA queue is over (R304). -/
def State.writeOver (s : State) (u : Option Unit) (grp : Option Nat) : State :=
  match u, grp with
  | some (.ve l), some k =>
    let g := k % 64
    let r := k / 64 - 1
    let s := match s.group l g with
      | some x => if x.block = r then s.setGroup l g (some { x with remoteWrites := x.remoteWrites - 1 }) else s
      | none => s
    (s.modBlock (l / 8) r fun b => { b with remoteWrites := b.remoteWrites - 1 }).sweepBlocks (l / 8)
  | some (.cc l), _ => s.modCC l fun c => { c with remoteWrites := c.remoteWrites - 1 }
  | some (.de l), some acc => s.modEntry l 2 acc fun e => { e with remoteWrites := e.remoteWrites - 1 }
  | _, _ => s

/-- Read data returns to the issuing unit (R300). -/
def State.onReadData (s : State) (pk : Packet) : State :=
  match s.asked pk [opRead] with
  | none => s
  | some r =>
    let s := { s with remotes := SMap.set none s.remotes pk.tag.toNat (some { r with resp := some pk.data }) }
    s.readyGroup r.unit r.grp pk.tag.toNat

/-- A write acknowledgement (R304): a DE instruction finds it; other sources count one write less. -/
def State.onWriteAck (s : State) (pk : Packet) : State :=
  match s.asked pk [opWrite] with
  | none => s
  | some r =>
    match r.unit with
    | some (.de _) =>
      if r.resp.isSome || r.refused.isSome then s
      else { s with remotes := SMap.set none s.remotes pk.tag.toNat (some { r with resp := some [] }) }.writeOver r.unit r.grp
    | _ => (s.dropRemote pk.tag.toNat).writeOver r.unit r.grp

/-- The refusal of a posted write: recorded and counted at the port it came through, and for the signal rule the write
counts as performed (R303). -/
def State.postedRefused (s : State) (p : Option Nat) (r : Remote) (why : Nat) : State :=
  let l := (r.unit.bind unitCore).getD 0xFFFF
  let src := match r.unit with
    | some u => s.unitSrc u
    | none => s.srcStoker
  let s := match p with
    | some i => s.bumpField .FLP_ERRS i 0 7 0 1
    | none => s
  (s.ashNow src 0x14 0 ((s.partOf l).getD 0xFF) (p.getD 0) l 0 r.pk.addr.toNat r.pk.len.toNat why).writeOver r.unit r.grp

/-- A data request is refused (R303). -/
def State.dataRefused (s : State) (p : Option Nat) (tag : Nat) (r : Remote) (why : Nat) : State :=
  let keep : State :=
    ({ s with remotes := SMap.set none s.remotes tag (some { r with refused := some why }) }).readyGroup r.unit r.grp tag
  if r.pk.op.toNat = opRead then keep
  else
    match r.unit with
    | some (.de _) => keep.writeOver r.unit r.grp
    | _ => (s.dropRemote tag).postedRefused p r why

/-! ### Signals (R277) -/

/-- The stream signal that an acknowledgement of module `m` is for: the oldest sent there (log entry 28). -/
def State.sentTo (s : State) (st : W32) (m : Nat) : Option Sig :=
  (s.stream st.toNat).sent.find? fun g => homeModule g.home == some m

/-- A signal is delivered, or refused, which counts as delivered (R274, R277): its tag is the stream, or the tag of a signal
that belongs to none. -/
def State.signalOver (s : State) (pk : Packet) : State :=
  if pk.tag.getLsbD 30 && !pk.tag.getLsbD 31 then s.dropRemote pk.tag.toNat
  else
    match s.sentTo pk.tag pk.src.toNat with
    | none => s
    | some g => (s.dropRemote (sigKey pk.tag g.msg.seq)).ackSignal pk.tag g.msg.seq

/-- A refusal comes back (R303, R277). -/
def State.onRefuse (s : State) (p : Nat) (pk : Packet) : State :=
  match s.asked pk [opRead, opWrite] with
  | some r => s.dataRefused (some p) pk.tag.toNat r pk.len.toNat
  | none =>
    let mine :=
      if pk.tag.getLsbD 30 && !pk.tag.getLsbD 31 then (s.asked pk [opSignal, opRegister, opCounterRead]).isSome
      else (s.sentTo pk.tag pk.src.toNat).isSome || (s.asked pk [opRegister]).isSome
    if !mine then s
    else
      let s := s.ashNow (s.srcPort p) 0x0C 0 0xFF p 0xFFFF 0 pk.tag.toNat 1 (pk.len.toNat + pk.src.toNat * 2 ^ 8)
      if (s.asked pk [opRegister, opCounterRead]).isSome then s else s.signalOver pk

/-- A signal or wait that this module does not own is refused, and recorded here too (R277). -/
def State.refuseSignal (s : State) (pk : Packet) (h : Nat) : State := (s.signalRefused h pk.src.toNat 4).refuse pk 4

/-- An incoming SIGNAL (R277): applied by the owner and acknowledged, refused where the directory disagrees, or left without an
answer while no delivery record is free. An arrival of a child slot goes to its barrier slot (R282); a release discards the
sender's records (R276, log entry 81). The data are the operand and the source number (log entry 28). -/
def State.onSignal (s : State) (pk : Packet) : State :=
  let a := pk.addr.toNat
  let h := natBits a 23 0
  let x : W64 := BitVec.ofNat 64 (fieldLe pk.data 0 8)
  let kind := natBits a 25 24
  if kind = 2 then
    let t := handleIndex h % 64
    ((s.arrive t (.child pk.src (Fin.ofNat 1024 pk.seq.toNat)) x).evaluate t).respond pk opSignalAck 0 0 []
  else if kind = kindRelease then
    (s.discardRecords (some pk.src.toNat) (BitVec.ofNat 32 (fieldLe pk.data 0 4)) (BitVec.ofNat 32 (fieldLe pk.data 4 4))).respond pk
      opSignalAck 0 0 []
  else
    let m : SigMsg := { ctr := counterOf 0 h, kind := kindOf kind, stream := some pk.tag, seq := pk.seq,
                        src := BitVec.ofNat 32 (fieldLe pk.data 8 4), operand := x }
    let from? := some pk.src.toNat
    if handleScope h ≠ 3 then s.refuseSignal pk h
    else
      match s.sigOutcome m from? with
      | .applied => (s.deliver m from?).respond pk opSignalAck 0 0 []
      | .duplicate => s.respond pk opSignalAck 0 0 []
      | .held => s
      | .refused => s.refuseSignal pk h

/-- The counter is a system counter of this module's (R277). -/
def State.ownsHere (s : State) (h : Nat) : Bool := decide (handleScope h = 3) && s.sysOwner (handleIndex h) == some s.moduleId

/-- An incoming REGISTER (R278): the module waits at the owner under one registration, its newest; satisfied at once, it is woken at
once. It is listed under the source number that the packet gives (R283). -/
def State.onRegister (s : State) (pk : Packet) : State :=
  let h := natBits pk.addr.toNat 23 0
  let k := counterOf 0 h
  if !s.ownsHere h then s.refuse pk 4
  else
    let c := s.counter k
    let w : Waiter := .module pk.src
    (s.setCounter k { c with waiters := c.waiters.filter fun y => decide (y.who ≠ w) }).reachHome
      { who := w, expected := BitVec.ofNat 64 (fieldLe pk.data 0 8), src := BitVec.ofNat 32 (fieldLe pk.data 8 4), tag := pk.tag.toNat } k

/-- An incoming WAKE (R278): the module's own waiters that the value satisfies can be woken, its triggers are tested, and it
registers again for the rest. -/
def State.onWake (s : State) (pk : Packet) : State :=
  let h := natBits pk.addr.toNat 23 0
  let k := counterOf 0 h
  if s.ownerElsewhere k ≠ some pk.src.toNat then s
  else
    let s := (s.dropRemote (registerTag (handleIndex h))).meetAll k (BitVec.ofNat 64 (fieldLe pk.data 0 8))
    s.registerOut k pk.src.toNat

/-- A snapshot as VALUE carries it (R283, log entry 27): value, SAT, the number of waiters listed and of those beyond, the last
signaller and its time, and sixteen waiters. -/
def State.snapBytes (s : State) (k : Nat) : List Byte :=
  let c := s.counter k
  let ws := (c.waiters.take 16).map s.waitSrc
  leBytes 8 c.value.toNat ++ leBytes 1 (bit c.sat) ++ leBytes 1 ws.length ++ leBytes 2 (min (c.waiters.length - 16) 65535) ++
    leBytes 4 c.lastSrc.toNat ++ leBytes 8 c.lastTime.toNat ++ (List.range 16).flatMap fun i => leBytes 4 (ws.getD i 0).toNat

/-- An incoming COUNTER_READ (R273, R283): the owner answers with VALUE, a snapshot in one step. -/
def State.onCounterRead (s : State) (pk : Packet) : State :=
  let h := natBits pk.addr.toNat 23 0
  if !s.ownsHere h then s.refuse pk 4
  else s.respond pk opValue h 88 (s.snapBytes (counterOf 0 h))

/-- A view that waited for another module is filled with the snapshot that the packet brings (R283). -/
def State.fillView (s : State) (bs : List Byte) : State :=
  let w (i n : Nat) : W64 := BitVec.ofNat 64 (fieldLe bs i n)
  let ws := (List.range (fieldLe bs 9 1)).map fun i => (w (24 + 4 * i) 4).setWidth 32
  (s.setView true ((w 8 1).getLsbD 0) (w 0 8) ((w 12 4).setWidth 32) (w 16 8) ws (fieldLe bs 10 2)).setField .FCH_VIEW_SEL 0 0 31 31 0

/-- An incoming VALUE (R273): the load that waits for it completes with the value that the counter held at its owner, or the view is
filled. -/
def State.onValue (s : State) (pk : Packet) : State :=
  match s.asked pk [opCounterRead] with
  | none => s
  | some r =>
    let v : W64 := BitVec.ofNat 64 (fieldLe pk.data 0 8)
    let k := counterOf 0 (natBits r.pk.addr.toNat 23 0)
    let s := s.dropRemote pk.tag.toNat
    match r.unit with
    | some (.cc l) =>
      match (s.cc l).stall with
      | some (.load rd a f3 len) =>
        if a / 8 = counterBase / 8 + k then s.ccRetire l rd (loadValue f3.toNat (leBytes 8 v.toNat)) len else s
      | _ => if (s.cc l).halted then s.cmdData v else s
    | _ => if (s.reg .FCH_VIEW_SEL).getLsbD 31 then (s.fillView pk.data).hostDrain else s

/-! ### The commands -/

/-- A packet for this module reaches its home or unit. -/
def State.handlePacket (s : State) (p : Nat) (pk : Packet) : State :=
  match pk.op.toNat with
  | 0x01 => s.onRead p pk
  | 0x02 => s.onWrite p pk
  | 0x03 => s.onReadData pk
  | 0x04 => s.onWriteAck pk
  | 0x05 => s.onRefuse p pk
  | 0x10 => s.onSignal pk
  | 0x11 => s.signalOver pk
  | 0x12 => s.onRegister pk
  | 0x13 => s.onWake pk
  | 0x14 => s.onCounterRead pk
  | 0x15 => s.onValue pk
  | _ => s

/-- A packet that has arrived at a port: an old one is discarded, one for another module moves on (R301, R305). -/
def State.packetIn (s : State) (p : Nat) (pk : Packet) : State :=
  let s := s.takeIn p pk
  if s.aged p pk then s.discard p pk true
  else if pk.dst.toNat = s.moduleId then s.handlePacket p pk
  else s.forward p pk

/-- From the moment the module is quiet until it resumes, a port in fabric role holds the packet and returns no credit for it
(R391). -/
def State.holdPacket (s : State) (p : Nat) (pk : Packet) : State :=
  (s.setPort p { s.port p with held := (s.port p).held ++ [pk] }).bumpField .MOD_DAMP_STATUS 0 0 15 0
    (flitsOf pk.data.length)

/-- A packet arrives at a port as operation `op`. -/
def State.packet (s : State) (p op : Nat) (pk : Packet) : State :=
  let pk := { pk with op := BitVec.ofNat 6 op }
  if s.damper.quiet && s.field .FLP_STATUS p 0 22 21 == 0 then s.holdPacket p pk else s.packetIn p pk

/-- READ (R302). -/
def execRead (p : PortId) (pk : Packet) (s : State) : Res := .next (s.packet p opRead pk)
/-- WRITE (R302). -/
def execWrite (p : PortId) (pk : Packet) (s : State) : Res := .next (s.packet p opWrite pk)
/-- READ_DATA (R300). -/
def execReadData (p : PortId) (pk : Packet) (s : State) : Res := .next (s.packet p opReadData pk)
/-- WRITE_ACK (R304). -/
def execWriteAck (p : PortId) (pk : Packet) (s : State) : Res := .next (s.packet p opWriteAck pk)
/-- REFUSE (R303). -/
def execRefuse (p : PortId) (pk : Packet) (s : State) : Res := .next (s.packet p opRefuse pk)
/-- SIGNAL (R277). -/
def execSignal (p : PortId) (pk : Packet) (s : State) : Res := .next (s.packet p opSignal pk)
/-- SIGNAL_ACK (R274). -/
def execSignalAck (p : PortId) (pk : Packet) (s : State) : Res := .next (s.packet p opSignalAck pk)
/-- REGISTER (R278). -/
def execRegister (p : PortId) (pk : Packet) (s : State) : Res := .next (s.packet p opRegister pk)
/-- WAKE (R278). -/
def execWake (p : PortId) (pk : Packet) (s : State) : Res := .next (s.packet p opWake pk)
/-- COUNTER_READ (R273). -/
def execCounterRead (p : PortId) (pk : Packet) (s : State) : Res := .next (s.packet p opCounterRead pk)
/-- VALUE (R273). -/
def execValue (p : PortId) (pk : Packet) (s : State) : Res := .next (s.packet p opValue pk)

/-- MGMT (R298): a packet between Stokers, over one hop: it is taken at its port, never forwarded, and never held; an old
one is discarded and counted as every packet (R301). What the
Stokers say to each other changes no state that the spec gives. -/
def execMgmt (p : PortId) (pk : Packet) (s : State) : Res :=
  let pk := { pk with op := BitVec.ofNat 6 opMgmt }
  let s := s.takeIn p pk
  if s.aged p pk then .next (s.discard p pk true) else .next s

/-- PACKET_TRANSIT (R306): a packet for another module is routed out; it touches no memory. -/
def execPacketTransit (p : PortId) (pk : Packet) (s : State) : Res :=
  if pk.dst.toNat = s.moduleId then .next s else .next (s.packet p pk.op.toNat pk)

/-! ### Resends (R301) -/

/-- A packet sent again: born now, on the routes in force. -/
def State.resendPacket (s : State) (key : Nat) (r : Remote) : State :=
  let x := s.inject r.pk.dst.toNat r.pk.op.toNat r.pk.tag.toNat r.pk.addr.toNat r.pk.len.toNat r.pk.seq.toNat r.pk.data
  let pk := { r.pk with born := (s.gtb.setWidth 32 : W32) }
  { x.2 with remotes := SMap.set none x.2.remotes key (some { r with pk := pk, tries := r.tries + 1 }) }

/-- No response within 100 µs (R301): a READ or WRITE is sent again up to three times and is then refused with NO_ROUTE; a
signal-class packet is sent again for ever, with a record at every tenth attempt and a service event after 1 s. -/
def State.resendOne (s : State) (key : Nat) (r : Remote) : State :=
  if r.resp.isSome || r.refused.isSome then s
  else if r.pk.op.toNat = opRead ∨ r.pk.op.toNat = opWrite then
    if r.tries < 3 then s.resendPacket key r else s.dataRefused none key r 1
  else
    let s := s.resendPacket key r
    let n := r.tries + 1
    let s := if n % 10 = 0 then s.ashNow s.srcStoker 0x0C 0 0xFF 0 0xFFFF 0 r.pk.tag.toNat n r.pk.op.toNat else s
    if n = 10000 then s.serviceEvent 0xFF 0 0xFFFF 0 r.pk.tag.toNat n r.pk.op.toNat else s

/-- PACKET_RESEND_TIMEOUT (R301): of the requests with this tag; suspended during a damper stop (R391). -/
def execPacketResendTimeout (tag : W32) (s : State) : Res :=
  if s.agesStop then .next s
  else
    .next (s.remotes.foldl (fun s e =>
      match e.2 with
      | some r => if e.1 % 2 ^ 32 = tag.toNat then s.resendOne e.1 r else s
      | none => s) s)

end Sys2Proof.Machine
end

