-- ==== Sys2Proof/Machine/Modes.lean ====
section
/-!
DEFINITION. Mode changes (14.5) and the damper stop (15.4).
-/

namespace Sys2Proof.Machine

open Sys2Proof

/-! ### Mode changes (R367 to R373) -/

/-- The units of a partition (R367). -/
def State.modeUnitsOf (s : State) (p : Nat) : List ModeUnit :=
  (s.coresOf p).flatMap (fun k => let l : CoreId := Fin.ofNat 768 k; [.cc l, .ve l, .mu l, .de l]) ++
  (s.clustersOf p).map (fun c => .dist (Fin.ofNat 96 c)) ++ (List.range 12).map fun k => .sched (Fin.ofNat 12 k)

/-- A GO is refused (R368): a change in progress, a handle that is no module counter of the partition, or a word with THROTTLE 7
or a reserved bit. -/
def State.goRefused (s : State) (p : Nat) : Bool :=
  let h := s.field .MOD_MODE_CTRL p 0 23 0
  let w := s.reg .MOD_MODE_NEXT p
  (s.reg .MOD_MODE_CTRL p).getLsbD 30 || (h != 0 && !(handleScope h == 2 && s.validHandle p h)) ||
    bitsOf w 10 8 == 7 || bitsOf w 31 16 != 0 || bitsOf w 7 1 != 0

/-- A write of MOD_MODE_CTRL (Table 14.14): HANDLE, REFUSED, and GO, which starts a change with the next epoch. -/
def State.modeCtrlWrite (s : State) (p : Nat) (v : W32) : State :=
  let s := s.setField .MOD_MODE_CTRL p 0 23 0 (bitsOf v 23 0)
  let s := if v.getLsbD 29 then s.setField .MOD_MODE_CTRL p 0 29 29 0 else s
  if !v.getLsbD 31 then s
  else if s.goRefused p then s.setField .MOD_MODE_CTRL p 0 29 29 1
  else
    let e := s.reg .MOD_MODE_EPOCH p + 1
    let s := ((s.setReg .MOD_MODE_EPOCH p 0 e).setField .MOD_MODE_CTRL p 0 30 30 1).setField .MOD_MODE_CTRL p 0 29 29 0
    let s := s.setField .MOD_MODE_STATUS p 0 11 0 (s.modeUnitsOf p).length
    s.modPart p fun x => { x with modeWord := s.reg .MOD_MODE_NEXT p, modeHandle := s.field .MOD_MODE_CTRL p 0 23 0,
                                  modeUnits := [] }

/-- MODE_CHANGE_GO (R368). -/
def execModeChangeGo (a : Agent) (p : PartId) (v : W32) (s : State) : Res :=
  if s.mayWrite a { name := .MOD_MODE_CTRL, i := p } then .next (s.modeCtrlWrite p (v ||| BitVec.twoPow 32 31)) else .next s

/-- No group of a core, and no ended block of it, has a remote write outstanding. -/
def State.veWritesDone (s : State) (l : Nat) : Bool :=
  (s.cluster (l / 8)).blocks.all fun b =>
    match b.2 with
    | some x => x.core != l || decide (x.remoteWrites = 0)
    | none => true

/-- No signal of a stream waits to be sent or acknowledged. -/
def State.streamQuiet (s : State) (st : W32) : Bool :=
  let x := s.stream st.toNat
  x.unsent.isEmpty && x.sent.isEmpty

/-- The signals of a core's blocks are delivered. -/
def State.blocksQuiet (s : State) (l : Nat) : Bool :=
  (s.cluster (l / 8)).blocks.all fun e =>
    match e.2 with
    | some b => b.core != l || s.streamQuiet (blockStream l b.gen e.1)
    | none => true

/-- A unit is at its boundary, and its own traffic of earlier epochs, signals included, has been performed (R369, R370): a control core between
instructions or in a stalled QPUSH or CWAIT, an MU with no pass in its array (R197), a DE with nothing running, a scheduler with no command of an earlier epoch. -/
def State.atBoundary (s : State) (p e : Nat) : ModeUnit → Bool
  | .cc l =>
    let c := s.cc l
    !s.fenced l && c.stores.isEmpty && decide (c.remoteWrites = 0) && s.streamQuiet (ccStream l) &&
      match c.stall with
      | some (.load _ _ _ _) => false
      | some (.csig _ _ _ _) => false
      | _ => true
  | .ve l => !s.fenced l && s.veWritesDone l && s.blocksQuiet l && s.streamQuiet (queueStream l 0)
  | .mu l => !s.fenced l && decide ((s.core l).mu.live = 0) && s.streamQuiet (queueStream l 1)
  | .de l => !s.fenced l && ((s.queue l 2).entries.all fun x => decide (x.st ≠ .running)) && s.streamQuiet (queueStream l 2)
  | .dist _ => true
  | .sched k => (s.coresOf p).all fun l => (s.queue l (4 + k)).entries.all fun x =>
      decide (e ≤ x.mode.1) || (decide (x.st = .complete) && x.unacked.isEmpty && decide (x.remoteWrites = 0))

/-- A unit of a partition as the unit that accesses memory; a distributor's source number is that of log entry 79. -/
def unitOf : ModeUnit → Unit
  | .cc l => .cc l
  | .ve l => .ve l
  | .mu l => .mu l
  | .de l => .de l
  | .dist c => .dist c
  | .sched k => .grate k 0

/-- The source number of a unit (Table 1.7). -/
def State.unitSource (s : State) (u : ModeUnit) : W32 := s.unitSrc (unitOf u)

/-- The value of the completion counter while `n` units have applied epoch `e` (R372). -/
def State.modeValue (s : State) (p e n : Nat) : W64 := BitVec.ofNat 64 ((s.modeUnitsOf p).length * (e - 1) + n)

/-- The Chimney node raises the completion counter (R372). -/
def State.modeRaise (s : State) (p n : Nat) : State :=
  let h := (s.part p).modeHandle
  if h = 0 then s
  else s.signalNow (s.srcChimney (handleIndex h / 4096)) (counterOf 0 h) .raise (s.modeValue p (s.reg .MOD_MODE_EPOCH p).toNat n)

/-- The last unit has applied: the change is complete (R372). -/
def State.modeComplete (s : State) (p : Nat) : State :=
  let s := (s.setReg .MOD_MODE_CUR p 0 (s.part p).modeWord).setField .MOD_MODE_CTRL p 0 30 30 0
  s.modeRaise p (s.part p).modeUnits.length

/-- A unit applies the change (R369): a stalled QPUSH or CWAIT is undone as for an interrupt and issues again; it records the epoch, once (R373), with its trace record (Table 15.11, kind 11). -/
def State.applyMode (s : State) (p : Nat) (u : ModeUnit) : State :=
  let e := (s.reg .MOD_MODE_EPOCH p).toNat
  let w := (s.part p).modeWord
  let s := match u with
    | .cc l => s.undoStall l
    | _ => s
  let s := { s with modes := SMap.set (0, 0) s.modes (modeKey p u) (e, w) }
  let s := s.traceUnit (some p) (e, w) { unit := unitOf u, src := s.unitSource u, kind := 11, epoch := 0, arg := e }
  let us := (s.part p).modeUnits ++ [modeKey p u]
  let n := (s.modeUnitsOf p).length
  let s := (s.modPart p fun x => { x with modeUnits := us }).setField .MOD_MODE_STATUS p 0 11 0 (n - us.length)
  if us.length = n then s.modeComplete p else s

/-- MODE_APPLY (R369): of a unit that has not applied the change in progress; a unit stopped by a damper stop applies it when it
resumes (R395). -/
def execModeApply (p : PartId) (u : ModeUnit) (s : State) : Res :=
  if !(s.reg .MOD_MODE_CTRL p).getLsbD 30 || (s.part p).modeUnits.contains (modeKey p u) ||
      !(s.modeUnitsOf p).contains u || !s.atBoundary p (s.reg .MOD_MODE_EPOCH p).toNat u || s.damperActive then .next s
  else .next (s.applyMode p u)

/-- MODE_PROGRESS_RAISE (R372): at least once per microsecond while the count changes. -/
def execModeProgressRaise (p : PartId) (s : State) : Res :=
  if (s.reg .MOD_MODE_CTRL p).getLsbD 30 then .next (s.modeRaise p (s.part p).modeUnits.length) else .next s

/-! ### The damper stop: arming (R388, R394) -/

def State.damperState (s : State) : Nat := s.field .MOD_DAMP_STATUS 0 0 31 29
def State.setDamper (s : State) (st : Nat) : State := s.setField .MOD_DAMP_STATUS 0 0 31 29 st

/-- The lead time that a stop or a resume needs (R388, R394). -/
def State.leadTicks (s : State) : Nat := if (s.reg .MOD_DAMP_CTRL).getLsbD 29 then 20000 else 2000

/-- An ARM or RESUME write is refused with its reason, or taken with none. -/
def State.damperReason (s : State) (why : Nat) : State :=
  (s.setField .MOD_DAMP_CTRL 0 0 28 28 (if why = 0 then 0 else 1)).setField .MOD_DAMP_CTRL 0 0 27 24 why

/-- ARM (R388): of several reasons to refuse it, the lowest is given. -/
def State.armStop (s : State) : State :=
  let t := s.pair .MOD_DAMP_TIME_LO .MOD_DAMP_TIME_HI
  let buf := s.pair .MOD_DAMP_BUF_LO .MOD_DAMP_BUF_HI
  if t < s.gtb.toNat + s.leadTicks then s.damperReason 1
  else if s.damperState ≠ 0 then s.damperReason 2
  else if buf = 0 then s.damperReason 3
  else ({ s with damper := { t := BitVec.ofNat 64 t, buf := buf } }.damperReason 0).setDamper 1

/-- RESUME (R388, R394): it cancels an armed stop, or schedules the resume of a stopped module. -/
def State.resumeStop (s : State) : State :=
  let t := s.pair .MOD_DAMP_RES_LO .MOD_DAMP_RES_HI
  if s.damperState = 1 then ({ s with damper := {} }.damperReason 0).setDamper 0
  else if t < s.gtb.toNat + s.leadTicks then s.damperReason 1
  else if s.damperState ≠ 3 then s.damperReason 4
  else ({ s with damper := { s.damper with resumeAt := some (BitVec.ofNat 64 t) } }.damperReason 0).setDamper 4

/-- A write of MOD_DAMP_CTRL (Table 15.14). -/
def State.damperWrite (s : State) (v : W32) : State :=
  let s := s.setField .MOD_DAMP_CTRL 0 0 29 29 (bitsOf v 29 29)
  let s := if v.getLsbD 28 then s.setField .MOD_DAMP_CTRL 0 0 28 28 0 else s
  let s := if v.getLsbD 31 then s.armStop else s
  if v.getLsbD 30 then s.resumeStop else s

/-- A write of one command bit with SYSTEM as it stands. -/
def State.damperBit (s : State) (a : Agent) (bit : Nat) : State :=
  if s.mayWrite a { name := .MOD_DAMP_CTRL } then
    s.damperWrite ((s.reg .MOD_DAMP_CTRL &&& BitVec.twoPow 32 29) ||| BitVec.twoPow 32 bit)
  else s

/-- DAMPER_ARM (R388). -/
def execDamperArm (a : Agent) (s : State) : Res := .next (s.damperBit a 31)
/-- DAMPER_RESUME (R394). -/
def execDamperResume (a : Agent) (s : State) : Res := .next (s.damperBit a 30)

/-! ### Stopping (R389, R390) -/

/-- The units of the module, in the order of the snapshot (R392): by logical core, then distributors, then schedulers. -/
def State.damperUnits (s : State) : List ModeUnit :=
  let ls := (List.range 768).filter fun l => (s.partOf l).isSome
  let cs := (List.range 96).filter fun c => (s.partOfCluster c).isSome
  ls.flatMap (fun k => let l : CoreId := Fin.ofNat 768 k; [.cc l, .ve l, .mu l, .de l]) ++
  cs.map (fun c => .dist (Fin.ofNat 96 c)) ++ (List.range 12).map fun k => .sched (Fin.ofNat 12 k)

/-- A unit is idle: a control core that is halted, quiesced or stalled in QPUSH or CWAIT, a VE whose groups all wait or are
halted, an MU or DE with nothing running, a scheduler with no work item (R389). -/
def State.unitIdle (s : State) : ModeUnit → Bool
  | .cc l =>
    let c := s.cc l
    c.halted || s.quiesced l || match c.stall with
      | some (.qpush _ _ _) => true
      | some (.cwait _ _ _) => true
      | _ => false
  | .ve l => (s.core l).ve.groups.all fun g =>
      match g.2 with
      | none => true
      | some x => decide (x.status ≠ .ready)
  | .mu l => (s.core l).mu.runs.isEmpty
  | .de l => (s.queue l 2).entries.all fun x => decide (x.st ≠ .running)
  | .dist _ => true
  | .sched k => (s.stack k).engines.all fun e => e.2.isNone

/-- The queue whose instruction a unit's record names. -/
def unitQueue : ModeUnit → Option (Nat × Nat)
  | .cc _ => none
  | .ve l => some (l, 0)
  | .mu l => some (l, 1)
  | .de l => some (l, 2)
  | .dist _ => none
  | .sched _ => none

/-- Where a unit stands (Table 15.8, POSITION). -/
def State.unitPosition (s : State) : ModeUnit → Nat
  | .cc l => ((s.cc l).pc - BitVec.ofNat 64 privBase).toNat
  | .ve l => (s.core l).ve.resident
  | .mu l => match (s.core l).mu.runs with
    | r :: _ => r.passed
    | [] => 0
  | .de l => match (s.queue l 2).entries.find? fun e => decide (e.st = .running) with
    | some e => e.progress
    | none => 0
  | .dist c => (s.cluster c).pulled.length
  | .sched k => (s.stack k).active.length

/-- A unit starts nothing more, or goes on. A loss without copy keeps its own units stopped. -/
def State.setStopped (s : State) (u : ModeUnit) (on : Bool) : State :=
  match u with
  | .cc l => s.modCC l fun c => { c with stopped := on || s.lossHalted l }
  | .ve l => s.modVE l fun v => { v with stopped := on || s.lossHalted l }
  | .mu l => s.modMU l fun m => { m with stopped := on }
  | .de l => s.modCore l fun c => { c with deStopped := on }
  | .dist c => s.modCluster c fun x => { x with stopped := on || s.lossHalted (8 * c) }
  | .sched k => s.modStack k fun x => { x with stopped := on }

/-- A unit has stopped: its record (R389, R392), and its trace record (Table 15.11, kind 12). A halted control core stopped when
it halted (R387). -/
def State.stopUnit (s : State) (u : ModeUnit) (idle : Bool) : State :=
  let halted := match u with
    | .cc l => (s.cc l).halted
    | _ => false
  let now := s.gtb (s.unitDie (unitOf u))
  let t := match u with
    | .cc l => if halted then (s.cc l).haltAt else now
    | _ => now
  let late := if t.toNat < s.damper.t.toNat then 0 else (t - s.damper.t).toNat
  let flags := (if halted then 1 else 0) + if idle then 2 else 0
  let s := { s with damper := { s.damper with stops := s.damper.stops ++ [(modeKey 0 u, t, s.unitPosition u, flags)] } }
  let s := s.setStopped u true
  let p := match u with
    | .cc l => s.partOf l
    | .ve l => s.partOf l
    | .mu l => s.partOf l
    | .de l => s.partOf l
    | .dist c => s.partOfCluster c
    | .sched _ => none
  s.traceUnit p (s.mode 0 u) { unit := unitOf u, src := s.unitSource u, kind := 12, epoch := 0, arg := late }

/-- DAMPER_TIME_REACHED (R389): idle units stop at T; schedulers dispatch nothing from T on. -/
def execDamperTimeReached (s : State) : Res :=
  if s.damperState ≠ 1 then .next s
  else
    let s := s.setDamper 2
    let s := (List.range 12).foldl (fun s k => s.modStack k fun x => { x with stopped := true }) s
    .next (s.damperUnits.foldl (fun s u => if s.unitIdle u then s.stopUnit u true else s) s)

/-- A busy unit is at its boundary (Table 15.6): a control core not inside a load or a CSIG, an MU whose passes have left the array, a
scheduler whose items have ended; others at once. -/
def State.atStop (s : State) : ModeUnit → Bool
  | .cc l => match (s.cc l).stall with
    | some (.load _ _ _ _) => false
    | some (.csig _ _ _ _) => false
    | _ => true
  | .ve _ => true
  | .mu l => decide ((s.core l).mu.live = 0)
  | .de _ => true
  | .dist _ => true
  | .sched k => (s.stack k).engines.all fun e => e.2.isNone

def State.hasStopped (s : State) (u : ModeUnit) : Bool := s.damper.stops.any fun e => e.1 == modeKey 0 u

/-- UNIT_STOP (R389). -/
def execUnitStop (u : ModeUnit) (s : State) : Res :=
  if s.damperState ≠ 2 || s.hasStopped u || !s.damperUnits.contains u || !s.atStop u then .next s
  else .next (s.stopUnit u false)

/-! ### Quiet and resume (R390 to R394) -/

/-- The accepted count of the instruction in progress or next to start in a queue. -/
def State.nextAccepted (s : State) (l q : Nat) : Nat :=
  match ((s.queue l q).entries.filter fun e => decide (e.st = .running) || decide (e.st = .pending)).head? with
  | some e => e.acc
  | none => (s.queue l q).accepted + 1

/-- The applied epoch of a unit; a scheduler has one for each partition, and which one its record shows is free. -/
def State.unitEpoch (s : State) (u : ModeUnit) : Nat :=
  match u with
  | .sched _ => s.freeBelow 4
  | .dist c => (s.mode 0 (.dist c)).1 % 4
  | _ => (s.mode 0 u).1 % 4

/-- A unit's record (Table 15.8). -/
def State.unitRecord (s : State) (u : ModeUnit) : List Byte :=
  match s.damper.stops.find? fun e => e.1 == modeKey 0 u with
  | none => List.replicate 32 0
  | some (_, t, pos, flags) =>
    let late := if t.toNat < s.damper.t.toNat then 0 else (t - s.damper.t).toNat
    let acc := match unitQueue u with
      | some (l, q) => s.nextAccepted l q
      | none => 0
    leBytes 4 (s.unitSource u).toNat ++ leBytes 4 late ++ leBytes 8 t.toNat ++ leBytes 4 acc ++ leBytes 4 pos ++
      leBytes 1 flags ++ leBytes 1 (s.unitEpoch u) ++ leBytes 6 0

/-- The greatest LATE of the records. -/
def Damper.maxLate (d : Damper) : Nat :=
  d.stops.foldl (fun m e => if e.2.1.toNat < d.t.toNat then m else max m (e.2.1 - d.t).toNat) 0

/-- The records of the snapshot, in order; each takes its own free value. -/
def State.unitRecords : List ModeUnit → State → List Byte × State
  | [], s => ([], s)
  | u :: us, s =>
    let r := State.unitRecords us s.nextFree
    (s.unitRecord u ++ r.1, r.2)

/-- The snapshot (R392, Tables 15.7 and 15.8), written where the buffer lies in memory. -/
def State.writeSnapshot (s : State) : State :=
  let us := s.damperUnits
  let head := leBytes 8 s.damper.t.toNat ++ leBytes 8 s.gtb.toNat ++ leBytes 4 s.moduleId ++ leBytes 4 us.length ++
    leBytes 4 (s.field .MOD_DAMP_STATUS 0 0 15 0) ++ leBytes 4 s.damper.maxLate ++ leBytes 32 0
  let r := State.unitRecords us s
  let bs := head ++ r.1
  let s := r.2.setField .MOD_DAMP_STATUS 0 0 27 16 us.length
  if s.isMemoryRange s.damper.buf bs.length then s.writeMem .stoker s.damper.buf bs else s

/-- No signal of this module is under way to a home of its own. -/
def State.fabricQuiet (s : State) : Bool := s.streams.all fun e => e.2.sent.all fun g => decide (2 ^ 20 ≤ g.home)

/-- MODULE_QUIET (R390, R391): every unit has stopped and no traffic remains; ports hold packets from now on. -/
def execModuleQuiet (s : State) : Res :=
  if s.damperState ≠ 2 || !(s.damperUnits.all s.hasStopped) || !s.fabricQuiet then .next s
  else .next ({ s with damper := { s.damper with quiet := true } }.writeSnapshot.setDamper 3)

/-- The packets that a port holds are applied in their order of arrival, their ages counted from now (R391, R394). -/
def State.releaseHeld (s : State) (p : Nat) : State :=
  let held := (s.port p).held
  let s := s.setPort p { s.port p with held := [] }
  held.foldl (fun s pk => s.packetIn p { pk with born := (s.gtb (p / 9)).setWidth 32 }) s

/-- DAMPER_RESUME_TIME_REACHED (R394): held wakes and packets are delivered, resend timers start again, and units go on. -/
def execDamperResumeTimeReached (s : State) : Res :=
  if s.damperState ≠ 4 then .next s
  else
    let wakes := s.damper.heldWakes
    let s := s.damperUnits.foldl (fun s u => s.setStopped u false) s
    let s := ({ s with damper := {} }.setDamper 0).setField .MOD_DAMP_STATUS 0 0 15 0 0
    let s := { s with remotes := s.remotes.map fun e => (e.1, e.2.map fun r => { r with sent := s.gtb }) }
    let s := wakes.foldl (fun s w => if s.wakeHeld w then s else s.deliverWake w) s
    .next ((List.range 36).foldl (fun s p => s.releaseHeld p) s)

end Sys2Proof.Machine
end

