-- ==== Sys2Proof/Machine/Kindling.lean ====
section
/-!
DEFINITION. The kindling stream (02): its records and their rules, the checks of a whole stream, the application of its records,
and the mailboxes through which partial streams are submitted.
-/

namespace Sys2Proof.Machine

open Sys2Proof

/-! ### Records (2.1, 2.2) -/

/-- A record as it stands in a stream (Table 2.1): the twelve header bytes under the CRC, the CRC, the body. -/
structure KRec where
  head : List Byte
  crc : Nat
  body : List Byte
deriving DecidableEq, Repr

def KRec.type (r : KRec) : Nat := fieldLe r.head 0 2
def KRec.kind (r : KRec) : Nat := fieldLe r.head 11 1 / 16
def KRec.index (r : KRec) : Nat := fieldLe r.head 8 2

/-- The records of a stream (R28), and the index of the first that does not fit: one that runs past the end, or whose length is no
multiple of 8 or exceeds 1 MiB. `fuel` bounds their number. -/
def cutRecords : Nat → Nat → List Byte → List KRec × Option Nat
  | 0, i, bs => ([], if bs.isEmpty then none else some i)
  | fuel + 1, i, bs =>
    if bs.isEmpty then ([], none)
    else
      let n := fieldLe bs 4 4
      if bs.length < 16 + n || n % 8 ≠ 0 || decide (2 ^ 20 < n) then ([], some i)
      else
        let r := cutRecords fuel (i + 1) (bs.drop (16 + n))
        ({ head := bs.take 12, crc := fieldLe bs 12 4, body := (bs.drop 16).take n } :: r.1, r.2)

/-- Change classes (Table 2.4). -/
inductive KClass where
  | F | S | P | L
deriving DecidableEq, Repr

/-- What Table 2.3 says of a record type: target kinds, class, phase of Table 2.9. -/
structure KType where
  kinds : List Nat
  cls : KClass
  phase : Nat
deriving DecidableEq, Repr

def kType : Nat → Option KType
  | 0x02 => some ⟨[0], .F, 1⟩
  | 0x03 => some ⟨[5], .F, 1⟩
  | 0x04 => some ⟨[0], .F, 1⟩
  | 0x05 => some ⟨[0], .F, 2⟩
  | 0x06 => some ⟨[2], .S, 3⟩
  | 0x07 => some ⟨[2, 4], .S, 3⟩
  | 0x08 => some ⟨[2, 1], .S, 6⟩
  | 0x09 => some ⟨[0], .F, 4⟩
  | 0x0A => some ⟨[0], .F, 5⟩
  | 0x0B => some ⟨[1], .F, 5⟩
  | 0x0C => some ⟨[3], .F, 6⟩
  | 0x0D => some ⟨[3], .P, 7⟩
  | 0x0E => some ⟨[3], .P, 7⟩
  | 0x0F => some ⟨[3], .P, 7⟩
  | 0x10 => some ⟨[3], .P, 7⟩
  | 0x11 => some ⟨[3], .P, 7⟩
  | 0x12 => some ⟨[3], .P, 7⟩
  | 0x13 => some ⟨[0], .L, 8⟩
  | 0x14 => some ⟨[0], .L, 8⟩
  | _ => none

/-- Indices of a target kind (Table 2.2). -/
def kindLimit : Nat → Nat
  | 0 => 1
  | 1 => 4
  | 2 => 16
  | 3 => 16
  | 4 => 12
  | 5 => 36
  | _ => 0

/-- A body length that is `head` bytes and a whole number of entries of `each` bytes, `lo` to `hi` of them. -/
def entriesFit (n head each lo hi : Nat) : Bool :=
  decide (head ≤ n) && decide ((n - head) % each = 0) && decide (lo ≤ (n - head) / each) && decide ((n - head) / each ≤ hi)

/-- A body length that its type allows (R28, 2.4). -/
def lengthFits (type : Nat) (b : List Byte) : Bool :=
  let n := b.length
  match type with
  | 0x01 => n == 64
  | 0x02 => n == 8
  | 0x03 => n == 8
  | 0x04 => n == 8
  | 0x05 => decide (8 ≤ n) && n == 8 + 8 * fieldLe b 2 2
  | 0x06 => n == 128
  | 0x07 => entriesFit n 0 8 1 8
  | 0x08 => n == 16
  | 0x09 => n == 96
  | 0x0A => entriesFit n 0 32 1 64
  | 0x0B => n == 320
  | 0x0C => n == 64
  | 0x0D => n == 24
  | 0x0E => entriesFit n 0 8 1 64
  | 0x0F => n == 136
  | 0x10 => n == 48
  | 0x11 => n == 16
  | 0x12 => entriesFit n 0 24 1 8
  | 0x13 => decide (16 ≤ n) && n == (16 + 4 * fieldLe b 2 2 + 7) / 8 * 8
  | 0x14 => decide (16 ≤ n) && n == (16 + 4 * fieldLe b 2 2 + 7) / 8 * 8
  | 0xFF => n == 96
  | _ => true

/-! ### Bodies (2.4) -/

/-- Entries of `each` bytes after `head` bytes. -/
def entriesOf (b : List Byte) (head each : Nat) : List (List Byte) :=
  (List.range ((b.length - head) / each)).map fun k => (b.drop (head + each * k)).take each

def dvfsOf (b : List Byte) : List DvfsPoint :=
  (entriesOf b 0 8).map fun e => { mhz := fieldLe e 0 2, mv := fieldLe e 2 2, watts := fieldLe e 4 2 }
def throttleOf (b : List Byte) : List ThStep :=
  (entriesOf b 0 8).map fun e => { thr := fieldLe e 0 2, rate := fieldLe e 2 1, refx := fieldLe e 3 1, hyst := fieldLe e 4 1 }
def tableOf (b : List Byte) : List STEntry :=
  (entriesOf b 8 8).map fun e =>
    { cur := fieldLe e 0 1, ev := fieldLe e 1 1, nxt := fieldLe e 2 1, act := fieldLe e 3 1, timeout := fieldLe e 4 4 }
def arbOf (b : List Byte) : ArbCfg :=
  { perCluster := fieldLe b 0 1 == 1, normal := fieldLe b 4 4, background := fieldLe b 8 4 }
def interleaveOf (b : List Byte) : List ILEntry :=
  (entriesOf b 0 32).map fun e =>
    { base := fieldLe e 0 8, len := fieldLe e 8 8, offset := fieldLe e 16 8, mode := fieldLe e 24 1, set := fieldLe e 25 1,
      granule := fieldLe e 26 1 }
def hearthOf (b : List Byte) : List HGroup :=
  (entriesOf b 0 40).map fun e =>
    { scratch := fieldLe e 0 1 == 1, owner := fieldLe e 1 1,
      masks := (List.range 16).map fun p => BitVec.ofNat 16 (fieldLe e (8 + 2 * p) 2) }
def partitionOf (b : List Byte) : PartCfg :=
  { clusters := BitVec.ofNat 96 (fieldLe b 0 12), vf := decide (fieldLe b 12 1 % 2 = 1), s2root := fieldLe b 16 8,
    s2count := fieldLe b 24 4, modBase := fieldLe b 28 2, modCount := fieldLe b 30 2, rgnBase := fieldLe b 32 2,
    rgnCount := fieldLe b 34 2, sysBase := fieldLe b 36 2, sysCount := fieldLe b 38 2, barBase := fieldLe b 40 1,
    barCount := fieldLe b 41 1 }
def boundsOf (b : List Byte) : List Nat := (List.range (fieldLe b 1 1)).map fun k => fieldLe b (8 + 4 * k) 4
def poolOf (b : List Byte) : KvPool :=
  { table := fieldLe b 0 8, entries := fieldLe b 8 4, page := fieldLe b 12 1, nearBase := fieldLe b 16 8,
    nearLen := fieldLe b 24 8, farBase := fieldLe b 32 8, farLen := fieldLe b 40 8 }
def policyOf (b : List Byte) : KvPolicy := { policy := fieldLe b 0 1, low := fieldLe b 4 4, high := fieldLe b 8 4 }
def goldenOf (b : List Byte) : List Golden :=
  (entriesOf b 0 24).map fun e => { near := fieldLe e 0 8, ring := fieldLe e 8 8, len := fieldLe e 16 8 }
/-- A route body: first entry, entries, swap time. An even number of entries fills the body; of an odd number the word after the
last is no entry. -/
def routesOf (b : List Byte) : Nat × List W32 × Nat :=
  (fieldLe b 0 2, ((entriesOf b 16 4).take (fieldLe b 2 2)).map fun e => BitVec.ofNat 32 (fieldLe e 0 4), fieldLe b 8 8)

/-- Values that rise strictly, and values that do not fall. -/
def rises : List Nat → Bool
  | a :: b :: t => decide (a < b) && rises (b :: t)
  | _ => true
def neverFalls : List Nat → Bool
  | a :: b :: t => decide (a ≤ b) && neverFalls (b :: t)
  | _ => true

/-- Two ranges (first, length) that are not empty share a member. -/
def clash (a b : Nat × Nat) : Bool := decide (0 < a.2) && decide (0 < b.2) && meets a b

/-- Ranges that are pairwise disjoint. -/
def apart : List (Nat × Nat) → Bool
  | [] => true
  | r :: t => (t.all fun x => !clash r x) && apart t

/-- An entry's rules alone (R39, R6): 0, or the reason code. -/
def State.ilReason (s : State) (e : ILEntry) : Nat :=
  let n := e.targets.1
  let ok := decide (e.mode ≤ 3) && decide (12 ≤ e.granule) && decide (e.granule ≤ 21) &&
    (if e.mode = 0 ∨ e.mode = 2 then decide (e.set ≤ 3) else decide (e.set = 0)) &&
    decide (e.base % 2 ^ e.granule = 0) && decide (e.len % (2 ^ e.granule * n) = 0)
  let cap := if e.mode < 2 then 2 ^ 36 else s.ringBytes / 16
  if !ok then 0x0A
  else if e.mode < 2 then
    if e.base + e.len ≤ nearEnd ∧ e.offset + e.len / n ≤ cap then 0 else 0x0A
  else if e.base < ringBase ∨ ringBase + 2 ^ 40 < e.base + e.len then 0x0A
  else if ringBase + s.ringBytes < e.base + e.len then 0x0E
  else if e.offset + e.len / n ≤ cap then 0 else 0x0A

/-- The spans that entries take of each target are disjoint (R39). -/
def ilSpansApart (es : List ILEntry) : Bool :=
  (List.range 28).all fun t =>
    apart (es.filterMap fun e =>
      let first := e.targets.2 + if e.mode < 2 then 0 else 12
      if decide (first ≤ t) && decide (t < first + e.targets.1) then some (e.offset, e.len / e.targets.1) else none)

/-- An address range of the ring row of any variant, and whether the fitted variant has it (R6). -/
def State.ringReason (s : State) (a n : Nat) : Nat :=
  if a < ringBase ∨ ringBase + 2 ^ 40 < a + n then 0x0A
  else if ringBase + s.ringBytes < a + n then 0x0E else 0

/-- The first reason that is not 0. -/
def firstReason (l : List Nat) : Nat := (l.find? (· != 0)).getD 0

/-- 0 where a rule holds, 0x000A where it does not. -/
def ruled (b : Bool) : Nat := if b then 0 else 0x0A

/-- The rules of a record's body on its own (2.4): 0, or the reason code. `go` is the time of submission of a partial stream. A state,
event or action code of a STATE_TABLE that chapters 12 and 14 do not define is accepted (DESIGN CHOICE, log entry 90). -/
def State.bodyReason (s : State) (type kind index : Nat) (b : List Byte) (go : Option W64) : Nat :=
  match type with
  | 0x03 => ruled (decide (fieldLe b 0 1 ≤ 2) && (decide (fieldLe b 0 1 ≠ 1) || decide (34 ≤ index)))
  | 0x04 =>
    let r := fieldLe b 0 1
    let x := fieldLe b 2 1
    let y := fieldLe b 3 1
    ruled (decide (r ≤ 1) && decide (fieldLe b 1 1 ≤ 1) &&
      if r = 1 then x == 0xFF && y == 0xFF else decide (x < 36) && (y == 0xFF || (decide (y < 36) && decide (y ≠ x))))
  | 0x05 =>
    let es := tableOf b
    ruled (decide (fieldLe b 0 1 ≤ 5) && decide (1 ≤ es.length) && decide (es.length ≤ 256) &&
      decide ((es.map fun e => (e.cur, e.ev)).Nodup) && es.all fun e => es.any fun x => x.cur == e.nxt)
  | 0x06 =>
    let c := dvfsOf b
    ruled ((c.all fun x => decide (x.mhz % 25 = 0) && decide (800 ≤ x.mhz) && decide (x.mhz ≤ 2200)) &&
      rises (c.map (·.mhz)) && neverFalls (c.map (·.mv)))
  | 0x07 =>
    let c := throttleOf b
    ruled ((c.all fun x => (x.refx == 1 || (x.refx == 2 && kind == 4)) && decide (x.rate ≤ 100)) && rises (c.map (·.thr)) &&
      neverFalls (c.map (·.rate)).reverse)
  | 0x08 =>
    let x := arbOf b
    ruled (decide (fieldLe b 0 1 ≤ 1) && (kind == 2 || !x.perCluster) && decide (64 ≤ x.normal) && decide (x.normal ≤ 2 ^ 24) &&
      decide (64 ≤ x.background) && decide (x.background ≤ 2 ^ 24))
  | 0x09 => ruled (b.all fun x => decide (x.toNat ≤ 8) || x == 0xFF)
  | 0x0A =>
    let es := interleaveOf b
    firstReason (es.map s.ilReason ++ [ruled (apart (es.map fun e => (e.base, e.len)) && ilSpansApart es)])
  | 0x0B => ruled ((hearthOf b).zip (entriesOf b 0 40) |>.all fun x =>
      decide (fieldLe x.2 0 1 ≤ 1) && (!x.1.scratch || (decide (x.1.owner < 16) && x.1.masks.all (· == 0))))
  | 0x0C =>
    let x := partitionOf b
    ruled (decide (x.s2root % 32 = 0) && decide (1 ≤ x.s2count) && decide (x.s2count ≤ 65536) &&
      s.inRow x.s2root (32 * x.s2count) && decide (x.modBase + x.modCount ≤ 16384) && decide (x.rgnBase + x.rgnCount ≤ 4096) &&
      decide (x.sysBase + x.sysCount ≤ 4096) && decide (x.barBase + x.barCount ≤ 64))
  | 0x0D => ruled (decide (fieldLe b 0 1 ≤ 15) && ((b.drop 8).take 16).all fun x => x != 0x7F && x != 0xFF)
  | 0x0E => ruled ((entriesOf b 0 8).all fun e =>
      decide (fieldLe e 0 1 ≤ 2) && decide (fieldLe e 1 1 ≤ 12) && decide (fieldLe e 2 1 ≤ 16) && decide (fieldLe e 3 1 ≤ 3))
  | 0x0F =>
    let n := fieldLe b 1 1
    ruled (decide (fieldLe b 0 1 ≤ 15) && decide (1 ≤ n) && decide (n ≤ 31) && rises (boundsOf b) &&
      (List.range 31).all fun k => decide (k < n) || fieldLe b (8 + 4 * k) 4 == 0)
  | 0x10 =>
    let x := poolOf b
    firstReason [ruled (decide (x.table % 16 = 0) && decide (x.page ≤ 3) && decide (x.nearBase + x.nearLen ≤ nearEnd)),
      if x.farLen = 0 then 0 else s.ringReason x.farBase x.farLen]
  | 0x11 => ruled (decide (fieldLe b 0 1 ≤ 2) && decide ((policyOf b).low ≤ (policyOf b).high))
  | 0x12 =>
    if s.ringBytes = 0 then 0x0E
    else firstReason ((goldenOf b).flatMap fun g =>
      [ruled (decide (g.near % 4096 = 0) && decide (g.ring % 4096 = 0) && decide (g.len % 4096 = 0) &&
        decide (g.near + g.len ≤ nearEnd)), s.ringReason g.ring g.len])
  | 0x13 => routeReason (routesOf b) 1024
  | 0x14 => routeReason (routesOf b) 256
  | _ => 0
where
  /-- Entries within the table, ports that exist, and the swap time (R50). -/
  routeReason (r : Nat × List W32 × Nat) (lim : Nat) : Nat :=
    ruled (decide (r.1 + r.2.1.length ≤ lim) &&
      (r.2.1.all fun e => !e.getLsbD 16 || (decide (bitsOf e 5 0 < 36) && decide (bitsOf e 13 8 < 36))) &&
      match go with
      | none => decide (r.2.2 = 0)
      | some t => decide (r.2.2 = 0) || decide (t.toNat + 20000 ≤ r.2.2))

/-! ### Configuration from records -/

/-- The route tables with the entries of a record. -/
def putRoutes (m : SMap W32) (r : Nat × List W32 × Nat) : SMap W32 :=
  r.2.1.zipIdx.foldl (fun m x => SMap.set 0 m (r.1 + x.2) x.1) m

/-- The configuration after one record. -/
def Cfg.apply (c : Cfg) (r : Rec) : Cfg :=
  let b := r.body
  let i := r.index
  match r.type with
  | 0x03 => { c with roles := SMap.set 0 c.roles i (fieldLe b 0 1) }
  | 0x04 => { c with timeRole := fieldLe b 0 1, pulse := fieldLe b 1 1 == 1, upPrimary := fieldLe b 2 1,
                     upAlternate := fieldLe b 3 1 }
  | 0x05 => { c with tables := SMap.set [] c.tables (fieldLe b 0 1) (tableOf b) }
  | 0x06 => { c with dvfs := SMap.set [] c.dvfs i (dvfsOf b) }
  | 0x07 =>
    if r.kind = 2 then { c with thRegion := SMap.set [] c.thRegion i (throttleOf b) }
    else { c with thStack := SMap.set [] c.thStack i (throttleOf b) }
  | 0x08 =>
    if r.kind = 2 then { c with arbRegion := SMap.set {} c.arbRegion i (arbOf b) }
    else { c with arbDie := SMap.set {} c.arbDie i (arbOf b) }
  | 0x09 => { c with coreMap := b.zipIdx.foldl (fun m x => SMap.set 8 m x.2 x.1.toNat) c.coreMap }
  | 0x0A => { c with interleave := interleaveOf b }
  | 0x0B => { c with hearth := (hearthOf b).zipIdx.foldl (fun m x => SMap.set {} m (8 * i + x.2) x.1) c.hearth }
  | 0x0C => { c with parts := SMap.set none c.parts i (some (partitionOf b)) }
  | 0x0D => { c with p4 := SMap.set none c.p4 (16 * i + fieldLe b 0 1) (some (BitVec.ofNat 128 (fieldLe b 8 16))) }
  | 0x0E => { c with fold := SMap.set [] c.fold i ((entriesOf b 0 8).map fun e => BitVec.ofNat 64 (ofLe e)) }
  | 0x0F => { c with bucket := SMap.set none c.bucket (16 * i + fieldLe b 0 1) (some (boundsOf b)) }
  | 0x10 => { c with pool := SMap.set none c.pool i (some (poolOf b)) }
  | 0x11 => { c with policy := SMap.set {} c.policy i (policyOf b) }
  | 0x12 => { c with golden := SMap.set [] c.golden i (goldenOf b) }
  | 0x13 => { c with groupRoutes := putRoutes c.groupRoutes (routesOf b) }
  | 0x14 => { c with memberRoutes := putRoutes c.memberRoutes (routesOf b) }
  | _ => c

/-- Records in the phase order of Table 2.9, within a phase in stream order. -/
def inPhases (rs : List Rec) : List Rec :=
  (List.range 9).flatMap fun k => rs.filter fun r => (kType r.type).any fun t => t.phase == k

/-- What a full stream gives where it omits a record (Table 2.3): interleave over all stacks and ring channels. -/
def State.defaultCfg (s : State) : Cfg :=
  let near : ILEntry := { base := 0, len := nearEnd, offset := 0, mode := 1, set := 0, granule := 12 }
  let ring : ILEntry := { base := ringBase, len := s.ringBytes, offset := 0, mode := 3, set := 0, granule := 12 }
  { interleave := if s.ringBytes = 0 then [near] else [near, ring] }

/-- The upstream ports of a module whose full stream carries no TIME_ROLE (R36): the two lowest in fabric role. -/
def Cfg.defaultUpstream (c : Cfg) : Cfg :=
  let ps := (List.range 36).filter fun p => SMap.get 0 c.roles p == 0
  { c with upPrimary := ps.getD 0 0xFF, upAlternate := ps.getD 1 0xFF }

/-- The configuration that a stream leaves in force. -/
def State.cfgAfter (s : State) (full : Bool) (rs : List Rec) : Cfg :=
  let c := (inPhases rs).foldl Cfg.apply (if full then s.defaultCfg else s.cfg)
  if full && !(rs.any fun r => r.type == 4) then c.defaultUpstream else c

/-! ### Checks over several records -/

/-- A failing record and its reason. -/
abbrev KFail := Nat × Nat

/-- The regions of a partition. -/
def PartCfg.regions (x : PartCfg) : List Nat :=
  (List.range 16).filter fun r => (List.range 6).any fun k => x.clusters.getLsbD (6 * r + k)

/-- Two partitions overlap (R37). -/
def PartCfg.overlaps (x y : PartCfg) : Bool :=
  decide (x.clusters &&& y.clusters ≠ 0) || clash (x.modBase, x.modCount) (y.modBase, y.modCount) ||
  clash (x.sysBase, x.sysCount) (y.sysBase, y.sysCount) || clash (x.barBase, x.barCount) (y.barBase, y.barCount) ||
  ((x.regions.any fun r => y.regions.contains r) && clash (x.rgnBase, x.rgnCount) (y.rgnBase, y.rgnCount))

/-- No record of a type and index stands after place `i`. -/
def lastOf (rs : List Rec) (type index i : Nat) : Bool := rs.all fun r => r.type != type || r.index != index || decide (r.pos ≤ i)

/-- The voltages of two curves lie within 250 mV (R359). -/
def curvesClose (a b : List DvfsPoint) : Bool :=
  a.isEmpty || b.isEmpty ||
  (a ++ b).all fun x => (a ++ b).all fun y => decide (x.mv ≤ y.mv + 250)

/-- Pools and golden copies of a configuration: range, golden, and the record that gives it (R41). -/
def Cfg.heldRanges (c : Cfg) : List ((Nat × Nat) × Bool × Nat × Nat) :=
  (List.range 16).flatMap fun p =>
    (match SMap.get none c.pool p with
      | some k => [((k.nearBase, k.nearLen), false, 0x10, p), ((k.farBase, k.farLen), false, 0x10, p)]
      | none => []) ++
    (SMap.get [] c.golden p).flatMap fun g => [((g.near, g.len), true, 0x12, p), ((g.ring, g.len), true, 0x12, p)]

/-- The golden copies and pools that record `r` leaves overlapping others: the failure is the later record's. -/
def heldOverlap (l : List (((Nat × Nat) × Bool × Nat × Nat) × Nat)) (rs : List Rec) (r : Rec) : Bool :=
  l.any fun x => x.1.2.2 == (r.type, r.index) && l.any fun y =>
    y.2 != x.2 && (x.1.2.1 || y.1.2.1) && clash x.1.1 y.1.1 && lastOf rs y.1.2.2.1 y.1.2.2.2 r.pos

/-- The failures that show only over several records (R32, R36, R37, R41, R50, R359). -/
def crossFails (c : Cfg) (rs : List Rec) (swap : Option Nat) : List KFail :=
  let held := c.heldRanges.zipIdx
  rs.filterMap fun r =>
    let bad : Option Nat :=
      match r.type with
      | 0x04 =>
        let usable (p : Nat) : Bool := SMap.get 0 c.roles p == 0
        if c.timeRole = 1 then none
        else if usable c.upPrimary && (c.upAlternate == 0xFF || usable c.upAlternate) then none else some 0x0A
      | 0x06 =>
        if (neighbours r.index).any fun n =>
            !curvesClose (SMap.get [] c.dvfs r.index) (SMap.get [] c.dvfs n) && lastOf rs 0x06 n r.pos then some 0x0A
        else none
      | 0x0C =>
        if rs.any fun x => x.type == 0x0C && decide (x.pos < r.pos) && (partitionOf x.body).overlaps (partitionOf r.body) then
          some 0x0C
        else none
      | 0x10 => if heldOverlap held rs r then some 0x0A else none
      | 0x12 => if heldOverlap held rs r then some 0x0A else none
      | 0x13 => if swap.any fun t => t != (routesOf r.body).2.2 then some 0x0A else none
      | 0x14 => if swap.any fun t => t != (routesOf r.body).2.2 then some 0x0A else none
      | _ => none
    bad.map fun x => (r.pos, x)

/-- The swap time of the first route record. -/
def swapOf (rs : List Rec) : Option Nat :=
  (rs.find? fun r => r.type == 0x13 || r.type == 0x14).map fun r => (routesOf r.body).2.2

/-- Two records that R32 does not let stand together. -/
def repeats (a b : Rec) : Bool :=
  a.type == b.type &&
  match a.type with
  | 0x05 => fieldLe a.body 0 1 == fieldLe b.body 0 1
  | 0x0D => a.index == b.index && fieldLe a.body 0 1 == fieldLe b.body 0 1
  | 0x0F => a.index == b.index && fieldLe a.body 0 1 == fieldLe b.body 0 1
  | 0x13 => clash (fieldLe a.body 0 2, fieldLe a.body 2 2) (fieldLe b.body 0 2, fieldLe b.body 2 2)
  | 0x14 => clash (fieldLe a.body 0 2, fieldLe a.body 2 2) (fieldLe b.body 0 2, fieldLe b.body 2 2)
  | _ => a.kind == b.kind && a.index == b.index

/-- The records that a full stream must carry (Table 2.3): MODULE_ID, a PARTITION, and a DVFS_CURVE for every region that holds a
cluster of a partition. -/
def requiredPresent (c : Cfg) (rs : List Rec) : Bool :=
  (rs.any fun r => r.type == 2) && (rs.any fun r => r.type == 0x0C) &&
  rs.all fun r => r.type != 0x0C || (partitionOf r.body).regions.all fun g => !(SMap.get [] c.dvfs g).isEmpty

/-! ### The whole stream (R35) -/

/-- A reason where a check fails. -/
def failing (why : Nat) (bad : Bool) : List Nat := if bad then [why] else []

/-- The CRC of a record does not match (R29). -/
def KRec.crcBad (r : KRec) : Bool := crc32c (r.head ++ r.body) != BitVec.ofNat 32 r.crc

/-- A record as the checks over several records and the application take it. -/
def KRec.toRec (r : KRec) (pos : Nat) : Rec := { type := r.type, kind := r.kind, index := r.index, body := r.body, pos := pos }

/-- Every reason for which one record between header and signature fails, with the records before it (R29 to R32, R52, 2.4). -/
def State.recReasons (s : State) (mailbox : Nat) (go : Option W64) (before : List Rec) (r : KRec) : List Nat :=
  failing 0x03 r.crcBad ++
  match kType r.type with
  | none => [if r.type = 1 ∨ r.type = 0xFF then 0x0B else 0x07]
  | some t =>
    let allowed := go.isNone || (t.cls != .F && (decide (16 ≤ mailbox) || (t.cls == .P && r.index == mailbox)))
    let body := if lengthFits r.type r.body then s.bodyReason r.type r.kind r.index r.body go else 0x02
    failing 0x09 (!t.kinds.contains r.kind || !decide (r.index < kindLimit r.kind)) ++ failing 0x08 (!allowed) ++
      failing body (body != 0) ++ failing 0x0B (before.any (repeats (r.toRec 0)))

/-- The failures of the records on their own, in stream order; `before` holds those that came before. -/
def State.recFails (s : State) (mailbox : Nat) (go : Option W64) : List (KRec × Nat) → List Rec → List KFail
  | [], _ => []
  | (r, i) :: t, before =>
    (s.recReasons mailbox go before r).map (fun why => (i, why)) ++ s.recFails mailbox go t (before ++ [r.toRec i])

/-- Records whose target is a partition that no PARTITION record defines (R30). -/
def undefinedParts (c : Cfg) (rs : List Rec) : List KFail :=
  (rs.filter fun r => r.kind == 3 && (SMap.get none c.parts r.index).isNone).map fun r => (r.pos, 0x09)

/-- The first failing record, of it the lowest reason. -/
def firstKFail : List KFail → Option KFail
  | [] => none
  | f :: t => some (t.foldl (fun m x => if x.1 < m.1 || (x.1 == m.1 && decide (x.2 < m.2)) then x else m) f)

/-- The done counter of a header may be raised: 0, or a handle of module scope, in a partial stream also of system scope, in the
range of the mailbox's partition (Table 2.5, R37). -/
def State.doneOk (s : State) (mailbox : Nat) (full : Bool) (h : Nat) : Bool :=
  h == 0 || ((handleScope h == 2 || (!full && handleScope h == 3)) &&
    if full || decide (16 ≤ mailbox) then decide (handleIndex h < if handleScope h = 2 then 16384 else 4096)
    else s.validHandle mailbox h)

/-- What a stream that passes every check gives. -/
structure Checked where
  recs : List Rec
  seq : W32
  handle : Nat
deriving DecidableEq, Repr

/-- The partitions that a record's class needs quiesced (Table 2.4). -/
def State.mustRest (s : State) (r : Rec) : List Nat :=
  match (kType r.type).map KType.cls with
  | some .P => [r.index]
  | some .S =>
    let region (g : Nat) : Bool :=
      if r.kind = 2 then g == r.index else if r.kind = 4 then g / 4 == r.index / 3 else g / 4 == r.index
    (List.range 16).filter fun p => (s.partCfg p).any fun x => x.regions.any region
  | _ => []

/-- The first record whose class needs a partition quiesced that is not (R54). -/
def State.unrested (s : State) (rs : List Rec) : Option Nat :=
  (rs.find? fun r => (s.mustRest r).any fun p => !s.partQuiesced p).map Rec.pos

/-- The sequence number of a stream is too low (R34). -/
def State.seqLow (s : State) (mailbox : Nat) (full : Bool) (seq : W32) : Bool :=
  if full then decide (seq.toNat < s.sto.floor.toNat)
  else (SMap.get none s.sto.seqs mailbox).any fun x => decide (seq.toNat ≤ x.toNat)

/-- Every reason for which the header fails (Table 2.5, R28, R33, R34, R52), with the stream's bytes, its header body and its
records, and whether they fill it. A wrong record count or total is the header's; a key slot above 3 is one that holds no key; a
kind above 1 is one that its place does not take (DESIGN CHOICE, log entry 57). -/
def State.headReasons (s : State) (mailbox : Nat) (full : Bool) (bs h : List Byte) (rs : List KRec) (whole : Bool) : List Nat :=
  let zero := (h.drop 32).take 16
  let first (f : KRec → Bool) : Bool := rs.head?.any f
  failing 0x01 (fieldLe bs 0 2 != 1 || fieldLe h 0 4 != 0xC1A0C002 || fieldLe h 4 2 != 1) ++
  failing 0x02 (fieldLe bs 4 4 != 64 || fieldLe h 20 4 != bs.length || decide ((if full then 2 ^ 23 else 2 ^ 20) < bs.length) ||
    (whole && rs.length != fieldLe h 16 4)) ++
  failing 0x03 (first KRec.crcBad) ++
  failing 0x05 (match SMap.get KeySlot.empty s.sto.keys (fieldLe h 8 1) with
    | .valid _ => false
    | _ => true) ++
  failing 0x06 (s.seqLow mailbox full (BitVec.ofNat 32 (fieldLe h 12 4))) ++
  failing 0x08 (fieldLe h 6 1 != (if full then 0 else 1) || fieldLe h 7 1 != mailbox) ++
  failing 0x09 (first fun r => r.kind != 0 || r.index != 0) ++
  failing 0x0A ((full && zero.any (· != 0)) || !s.doneOk mailbox full (fieldLe h 24 3)) ++
  failing 0x10 (!full && zero != (beBytes 48 s.sto.digest.toNat).take 16)

/-- Every reason for which the last record fails: that it is no SIGNATURE, or as one (R31, R33). -/
def State.signReasons (s : State) (bs h : List Byte) (n : Nat) (r : KRec) : List Nat :=
  if n < 2 || r.type != 0xFF then [0x0D]
  else
    failing 0x02 (r.body.length != 96) ++ failing 0x03 r.crcBad ++ failing 0x09 (r.kind != 0 || r.index != 0) ++
    failing 0x04 (match SMap.get KeySlot.empty s.sto.keys (fieldLe h 8 1) with
      | .valid k =>
        !ecdsaVerify k (bs.take (bs.length - 16 - r.body.length)) (ofBe (r.body.take 48)) (ofBe (r.body.drop 48))
      | _ => false)

/-- The failures of a stream whose records fill it that show only over its records together: partitions not defined, rules over
several records, a required record that is missing, partitions that are not quiesced. -/
def State.jointFails (s : State) (go : Option W64) (rs : List Rec) (n : Nat) : List KFail :=
  let full := go.isNone
  let c := s.cfgAfter full rs
  undefinedParts (if full then c else s.cfg) rs ++ crossFails c rs (if full then none else swapOf rs) ++
  (if full && !requiredPresent c rs then [(n - 1, 0x0D)] else []) ++
  (if full then [] else (s.unrested rs).toList.map fun i => (i, 0x0F))

/-- The checks of a whole stream (R28 to R37, R52, R54, 2.5): the first failing record with its reason, of several the lowest (log
entry 57), or the records to apply. `go` is none for a full stream. -/
def State.checkStream (s : State) (mailbox : Nat) (go : Option W64) (bs : List Byte) : Except KFail Checked :=
  let full := go.isNone
  let h := (bs.drop 16).take 64
  if bs.length < 80 then .error (0, 0x02)
  else
    let cut := cutRecords (bs.length / 16 + 1) 0 bs
    let n := cut.1.length
    let inner := if cut.2.isNone then (cut.1.zipIdx.drop 1).dropLast else cut.1.zipIdx.drop 1
    let rs := inner.map fun x => x.1.toRec x.2
    let fails := (s.headReasons mailbox full bs h cut.1 cut.2.isNone).map (fun why => (0, why)) ++
      s.recFails mailbox go inner [] ++
      match cut.2, cut.1.getLast? with
      | some i, _ => [(i, 0x02)]
      | none, none => []
      | none, some r => (s.signReasons bs h n r).map (fun why => (n - 1, why)) ++ s.jointFails go rs n
    match firstKFail fails with
    | some f => .error f
    | none => .ok { recs := rs, seq := BitVec.ofNat 32 (fieldLe h 12 4), handle := fieldLe h 24 3 }

/-! ### Application (R51, R55) -/

/-- What a record changes beside the configuration. -/
def State.applyRec (s : State) (full : Bool) (r : Rec) : State :=
  let b := r.body
  let i := r.index
  match r.type with
  | 0x02 => s.setField .MOD_ID 0 0 17 0 (fieldLe b 0 4 % 2 ^ 18)
  | 0x03 => s.setField .FLP_STATUS i 0 22 21 (fieldLe b 0 1)
  | 0x06 => if full then s else s.regionDecide i
  | 0x07 => if full || r.kind != 2 then s else s.regionDecide i
  | 0x0C =>
    let x := partitionOf b
    let s := s.setPair .MOD_XLT_S2_LO .MOD_XLT_S2_HI i 0 x.s2root
    let s := s.setReg .MOD_XLT_SWAP i 0 ((.MOD_XLT_SWAP : RegName).written (s.reg .MOD_XLT_SWAP i) (BitVec.ofNat 32 x.s2count))
    s.setField .MOD_MODE_STATUS i 0 27 16 (s.modeUnitsOf i).length
  | 0x10 =>
    let x := poolOf b
    (List.range 12).foldl (fun s k =>
      ((s.setPair .GRT_PT_BASE_LO .GRT_PT_BASE_HI k i x.table).setReg .GRT_PT_COUNT k i (BitVec.ofNat 32 x.entries)).setReg
        .GRT_PT_CFG k i (BitVec.ofNat 32 (4 + x.page))) s
  | 0x12 => (s.setReg .MOD_GOLD_CTRL i 0 0).setField .MOD_GOLD_STATUS i 0 23 0 0
  | _ => s

/-- The route tables of the ports (R50): a full stream loads both copies alike; a partial stream loads the shadow copy, first
duplicated from the active copy, which comes into force at its swap time, or at once. -/
def State.applyRoutes (s : State) (full : Bool) (rs : List Rec) : State :=
  let groups (m : SMap W32) : SMap W32 := rs.foldl (fun m r => if r.type = 0x13 then putRoutes m (routesOf r.body) else m) m
  let members (m : SMap W32) : SMap W32 := rs.foldl (fun m r => if r.type = 0x14 then putRoutes m (routesOf r.body) else m) m
  match full, swapOf rs with
  | false, none => s
  | _, t =>
    let swap := (t.filter (· != 0)).map fun x => BitVec.ofNat 64 x
    let s := (List.range 36).foldl (fun s p =>
      let x := s.port p
      let g := groups (if full then [] else x.groupRoutes)
      let m := members (if full then [] else x.memberRoutes)
      let y : Port := { x with shadowGroup := g, shadowMember := m, swapTime := swap }
      s.setPort p (if swap.isSome then y else { y with groupRoutes := g, memberRoutes := m })) s
    if full || swap.isSome then s
    else { s with cfg := { s.cfg with groupRoutes := (s.port 0).groupRoutes, memberRoutes := (s.port 0).memberRoutes } }

/-- The records of a stream applied in phase order. -/
def State.applyStream (s : State) (full : Bool) (rs : List Rec) : State :=
  let c := s.cfgAfter full rs
  let c := if full then c else { c with groupRoutes := s.cfg.groupRoutes, memberRoutes := s.cfg.memberRoutes }
  ((inPhases rs).foldl (fun (s : State) r => s.applyRec full r) { s with cfg := c }).applyRoutes full rs

/-- The Stoker raises a done counter to a sequence number (R55). -/
def State.raiseDone (s : State) (h : Nat) (seq : W32) : State :=
  if h = 0 then s else s.signalNow s.srcStoker (counterOf 0 h) .raise (seq.setWidth 64)

/-! ### Mailboxes (2.6) -/

/-- A write of STO_KS_CTRL (R53): GO submits the stream, or is refused while BUSY is set. -/
def State.ksWrite (s : State) (m : Nat) (v : W32) : State :=
  if !v.getLsbD 0 then s
  else if (s.reg .STO_KS_STATUS m).getLsbD 0 then
    s.ashNow s.srcStoker 0x0E 0 (if m < 16 then m else 0xFF) 0 0xFFFF 0 0 0 (0x11 + m * 2 ^ 32)
  else
    let sub : Submission := { mailbox := m, time := s.gtb, addr := s.pair .STO_KS_ADDR_LO .STO_KS_ADDR_HI m,
                              len := s.field .STO_KS_LEN m 0 20 0 }
    let s := (s.setField .STO_KS_CTRL m 0 0 0 1).setField .STO_KS_STATUS m 0 0 0 1
    { s with sto := { s.sto with subs := s.sto.subs ++ [sub] } }

/-- KS_GO (R53). -/
def execKsGo (a : Agent) (m : Fin 17) (s : State) : Res :=
  if s.mayWrite a { name := .STO_KS_CTRL, i := m } then .next (s.ksWrite m 1) else .next s

/-- A range of a module in pieces that one READ can bring (R300). `fuel` bounds the pieces. -/
def copyPieces (m : Option Nat) : Nat → Nat → Nat → List CopyPiece
  | 0, _, _ => []
  | fuel + 1, a, n =>
    if n = 0 then [] else { module := m, addr := a, len := min n 4096 } :: copyPieces m fuel (a + 4096) (n - 4096)

/-- A target range of stage 2 as pieces to copy: memory of this module, or of another; none where there is no such memory. -/
def State.targetPieces (s : State) (t n : Nat) : Option (List CopyPiece) :=
  let a := s.localise t
  match s.remoteOf t with
  | some m => some (copyPieces (some m) (n / 4096 + 1) (a % 2 ^ 42) n)
  | none => if s.isMemoryRange a n then some [{ module := none, addr := a, len := n }] else none

/-- The source range of a submission (R53): through the partition's stage 2 or its direct apertures, or for the module mailbox the
memory rows; none where it is not readable. -/
def State.subPieces (s : State) (x : Submission) : Option (List CopyPiece) :=
  let here : List CopyPiece := [{ module := none, addr := x.addr, len := x.len }]
  if 16 ≤ x.mailbox then if s.inRow x.addr x.len && s.isMemoryRange x.addr x.len then some here else none
  else if (windowOf x.addr).isSome then if s.ownsWindow x.mailbox x.addr x.len then some here else none
  else if s.ownsScratch x.mailbox x.addr x.len then some here
  else
    let m := s.s2Table x.mailbox
    match rangePieces m (m.length + 1) x.addr x.len with
    | none => none
    | some l => (l.map fun e => s.targetPieces e.1 e.2).foldr (fun x y => x.bind fun a => y.map (a ++ ·)) (some [])

/-- A piece is read: at once in this module; in another by READ, whose answer a later attempt finds (R300). None where it is refused
(R303). -/
def State.copyPiece (s : State) (x : CopyPiece) : Option CopyPiece × State :=
  match x.data, x.module with
  | some _, _ => (some x, s)
  | none, none =>
    let r := s.peekTargets [(x.addr, x.len)]
    (some { x with data := some r.1 }, r.2)
  | none, some m =>
    match s.remoteRead .stoker none m x.addr x.len with
    | (.data bs, s) => (some { x with data := some bs }, s)
    | (.waiting _, s) => (some x, s)
    | (.refused _, s) => (none, s)

/-- Every piece is read, or asked for; none where one is refused. -/
def State.copyAll (s : State) (l : List CopyPiece) : Option (List CopyPiece) × State :=
  l.foldl (fun (r : Option (List CopyPiece) × State) x =>
    let y := r.2.copyPiece x
    (r.1.bind fun a => y.1.map fun b => a ++ [b], y.2)) (some [], s)

/-- The windows of this module that pieces lie in. -/
def copyWindows (l : List CopyPiece) : List Nat := l.filterMap fun x => if x.module.isNone then (windowOf x.addr).map (·.1) else none

/-- KS_START (R53): the Stoker takes the next submission and copies its stream; a window of a core that migrates is waited for. -/
def execKsStart (s : State) : Res :=
  match s.sto.subs with
  | [] => .next s
  | x :: rest =>
    if s.sto.copied.isSome || s.sto.verified.isSome then .next s
    else
      let took (s : State) (l : Option (List CopyPiece)) : State := { s with sto := { s.sto with subs := rest, copied := some (x, l) } }
      match if x.len = 0 ∨ 2 ^ 20 < x.len then none else s.subPieces x with
      | none => .next (took s none)
      | some l =>
        if (copyWindows l).any fun k => (s.core k).lost then .next (took s none)
        else if (copyWindows l).any s.fenced then .next s
        else
          let r := s.copyAll l
          .next (took r.2 r.1)

/-- The partition of a mailbox as a record names it. -/
def mailPart (m : Nat) : Nat := if m < 16 then m else 0xFF

/-- A mailbox notification from the Stoker: the vector of its function (Table 12.13), and interrupt 17 pending in the control cores of
its partition (R60, log entry 83). -/
def State.mailVector (s : State) (m : Nat) : State :=
  if m < 16 then
    (s.coresOf m).foldl (fun s l => s.modCC l fun c => c.setCsr csrMip (putBit (c.csr csrMip) 17 true)) (s.msixVf m 0)
  else s.msix 0 0

/-- A submission fails (R35, R55): FAIL, REASON, RECORD, its ash-log record and its vector. A DONE or FAIL of an earlier submission
stays set until software clears it (DESIGN CHOICE, log entry 89). -/
def State.ksFail (s : State) (m : Nat) (f : KFail) : State :=
  let s := { s with sto := { s.sto with copied := none, verified := none } }
  let old := s.reg .STO_KS_STATUS m
  let w := putBits (putBits (putBits (putBits old 31 16 f.2) 15 4 (min f.1 4095)) 2 2 1) 0 0 0
  let s := (s.setReg .STO_KS_STATUS m 0 w).ashNow s.srcStoker 0x0E 0 (mailPart m) 0 0xFFFF 0 0 0
    (f.2 + f.1 * 2 ^ 64 + m * 2 ^ 32)
  s.mailVector m

/-- A repair is in progress in a partition that a submission may change (R56). -/
def State.repairing (s : State) (m : Nat) : Bool :=
  (List.range 16).any fun p => (m == p || decide (16 ≤ m)) && (s.clustersOf p).any fun c => !(s.cluster c).migrating.isEmpty

/-- The copied stream is checked whole (R35). -/
def State.ksCheck (s : State) (x : Submission) (bytes : Option (List Byte)) : State :=
  match bytes with
  | none => s.ksFail x.mailbox (0, if x.len = 0 ∨ 2 ^ 20 < x.len then 0x02 else 0x13)
  | some bs =>
    match s.checkStream x.mailbox (some x.time) bs with
    | .error f => s.ksFail x.mailbox f
    | .ok c => { s with sto := { s.sto with copied := none, verified := some (x, c.recs, c.seq, c.handle) } }

/-- KS_COPY_DONE (R35, R53): with every piece read GO clears, and the copied stream is checked; a repair in progress delays the check
(R56). -/
def execKsCopyDone (s : State) : Res :=
  match s.sto.copied with
  | none => .next s
  | some (x, l) =>
    let r := match l with
      | none => (none, s)
      | some l => s.copyAll l
    let s := { r.2 with sto := { r.2.sto with copied := some (x, r.1) } }
    if r.1.any fun l => l.any fun y => y.data.isNone then .next s
    else
      let s := s.setField .STO_KS_CTRL x.mailbox 0 0 0 0
      if s.repairing x.mailbox then .next s
      else .next (s.ksCheck x (r.1.map fun l => l.flatMap fun y => y.data.getD []))

/-- KS_APPLY (R54, R55, R58): quiescence is tested again and the records are applied; a hardware error leaves every value as it
was. -/
def execKsApply (hwError : Bool) (s : State) : Res :=
  match s.sto.verified with
  | none => .next s
  | some (x, rs, seq, handle) =>
    let m := x.mailbox
    match s.unrested rs with
    | some i => .next (s.ksFail m (i, 0x0F))
    | none =>
      if hwError then .next (s.ksFail m (0, 0x12))
      else
        let s := s.applyStream false rs
        let s := { s with sto := { s.sto with verified := none, seqs := SMap.set none s.sto.seqs m (some seq) } }
        let s := (s.setReg .STO_KS_SEQ m 0 seq).setField .STO_KS_STATUS m 0 1 0 2
        .next (s.raiseDone handle seq)

end Sys2Proof.Machine
end

