-- ==== Sys2Proof/Machine/Boot.lean ====
section
/-!
DEFINITION. Start-up (16.1): the standby supply, the boot and its phases, the resets, and the Stoker's management interface (16.3).
-/

namespace Sys2Proof.Machine

open Sys2Proof

/-! ### The Stoker itself (R404, R405) -/

def State.recovery (s : State) : Bool := (s.reg .STO_BOOT_STATUS).getLsbD 25
/-- The management interface answers: the Stoker runs one of its images, not the recovery loader. -/
def State.managed (s : State) : Bool := s.sto.standby && !s.recovery
def State.bootPhase (s : State) : Nat := s.field .STO_BOOT_STATUS 0 0 31 28
def State.setPhase (s : State) (k : Nat) : State := s.setField .STO_BOOT_STATUS 0 0 31 28 k

/-- The Stoker boots the newer image that verifies, or the recovery loader (R405). -/
def State.stokerBoot (s : State) (recoveryStrap : Bool) : State :=
  let a := s.sto.imgA
  let b := s.sto.imgB
  let w := putBits (putBits (putBits (s.reg .STO_BOOT_STATUS) 25 25 0) 24 24 0) 15 0 0
  if recoveryStrap then s.setReg .STO_BOOT_STATUS 0 0 (putBits w 25 25 1)
  else if !a.sigOk && !b.sigOk then s.setReg .STO_BOOT_STATUS 0 0 (putBits (putBits w 25 25 1) 15 0 0x201)
  else
    let useB := b.sigOk && (!a.sigOk || decide (a.version < b.version))
    let v := if useB then b.verifier else a.verifier
    let s := s.setReg .STO_BOOT_STATUS 0 0 (putBits w 24 24 (if useB then 1 else 0))
    { s with sto := { s.sto with verifier := v, proofs := if v = s.sto.verifier then s.sto.proofs else [] } }

/-- What the flash keeps when the Stoker loses its supply; the newest records of severity 2 and 3 survive (R352). -/
def Stoker.flashOnly (x : Stoker) : Stoker :=
  { flashActive := x.flashActive, flashPending := x.flashPending, floor := x.floor, keys := x.keys, imgA := x.imgA, imgB := x.imgB,
    ashFlash := x.ashFlash, proofs := x.proofs, verifier := x.verifier }

/-- The module without its supplies: everything at reset but the flash, the fused variant, and the model's own records. -/
def State.powerless (s : State) : State :=
  ({ State.reset with pending := s.pending, freeCtr := s.freeCtr, out := s.out, sto := s.sto.flashOnly }).setField .MOD_ID 0 0 31 30
    s.variant

/-- STANDBY_POWER_UP (R404, R405): the straps are sampled and the Stoker boots; its log holds what the flash kept. -/
def execStandbyPowerUp (straps : BitVec 4) (s : State) : Res :=
  if s.sto.standby then .next s
  else
    let s := s.powerless
    let s := { s with sto := { s.sto with standby := true, ash := s.sto.ashFlash } }
    .next ((s.setField .STO_BOOT_STATUS 0 0 23 20 straps.toNat).stokerBoot (straps.getLsbD 3))

/-- STANDBY_POWER_LOSS (R404). -/
def execStandbyPowerLoss (s : State) : Res := .next s.powerless

/-! ### Resets (R408, R409) -/

/-- Registers of the Stoker that a module reset leaves: the ash log's and the boot status. -/
def stokerKeeps : List RegName := [.STO_ALOG_STATUS, .STO_ALOG_REC, .STO_BOOT_STATUS]

/-- Every unit but the Stoker and its flash returns to its reset state (R408): a submission to a mailbox is abandoned, and
temperatures still show what the sensors read last. -/
def State.moduleReset (s : State) : State :=
  let names := stokerKeeps.map RegName.ctorIdx
  let kept := s.regs.filter fun e => names.contains (e.1 / 2 ^ 24)
  let s' : State := { State.reset with
    pending := s.pending, freeCtr := s.freeCtr, out := s.out, regs := kept, lasers := s.lasers,
    sto := { s.sto with ready := false, subs := [], copied := none, verified := none, seqs := [], doneHandle := 0, doneSeq := 0,
                        digest := 0, loadReason := 0 } }
  let s' := s'.setField .MOD_ID 0 0 31 30 s.variant
  let s' := (List.range 12).foldl (fun x k => x.setField .STK_TEMP k 0 15 0 (s.stackTemp k)) s'
  let s' := (List.range 16).foldl (fun x r => x.setField .RGN_DVFS_STATUS r 0 15 0 (s.regionTemp r)) s'
  s'.setReg .STO_BOOT_STATUS 0 0 (putBits (putBits (putBits (s'.reg .STO_BOOT_STATUS) 31 26 0) 15 0
    (if s.recovery then s.field .STO_BOOT_STATUS 0 0 15 0 else 0)) 19 16 0)

/-- The boot begins at phase 1 when the supplies and RESET_N allow and the Stoker runs (R406, R408). -/
def State.startBoot (s : State) : State :=
  if s.managed && s.sto.pg48 && !s.sto.resetLow then s.setPhase 1 else s

/-- PG48_ASSERT (R406, R409). -/
def execPg48Assert (s : State) : Res :=
  if !s.sto.standby || s.sto.pg48 then .next s
  else .next ({ s with sto := { s.sto with pg48 := true } }.startBoot)

/-- PG48_DEASSERT (R409): the record in flash, every other domain OFF, READY deasserted. -/
def execPg48Deassert (s : State) : Res :=
  if !s.sto.pg48 then .next s
  else
    let s := s.serviceEvent 0xFF 0 0xFFFF
    .next ({ s with sto := { s.sto with pg48 := false } }.moduleReset)

/-- RESET_N (R408): low for 1 µs. The Stoker's firmware in flash takes effect (Table 16.8). -/
def execResetN (s : State) : Res :=
  if !s.sto.standby then .next s
  else
    let s := { s with sto := { s.sto with resetLow := true } }.moduleReset
    .next (if s.field .STO_BOOT_STATUS 0 0 23 23 = 1 then s else s.stokerBoot false)

/-- RESET_N_RELEASE (R408). -/
def execResetNRelease (s : State) : Res :=
  if !s.sto.resetLow then .next s else .next ({ s with sto := { s.sto with resetLow := false } }.startBoot)

/-! ### The boot phases (R406, R407, Table 16.2) -/

/-- A phase fails: the boot stops with its reason (R406). -/
def State.bootFail (s : State) (reason kind sev : Nat) (detail : Nat := 0) : State :=
  let s := (s.setField .STO_BOOT_STATUS 0 0 26 26 1).setField .STO_BOOT_STATUS 0 0 15 0 reason
  s.ashNow s.srcStoker kind sev 0xFF 0 0xFFFF 0 0 0 (reason + detail)

/-- Every sensor of the model reads 10.0 °C below its limit (R410). -/
def State.cooled (s : State) : Bool :=
  ((List.range 12).all fun k => decide (s.stackTemp k ≤ 1000)) && ((List.range 16).all fun r => decide (s.regionTemp r ≤ 1050)) &&
    (List.range 4).all fun d => (SMap.get none s.sto.dieTemps d).all fun t => decide (t ≤ 1050)

/-- Phase 1: domains powered up, the copies of the GTB loaded alike (R357). -/
def State.boot1 (s : State) : State :=
  let s := { s with sto := { s.sto with overtemp := false } }
  let s := (List.range 49).foldl (fun s d => (s.pwrPost d 0).pwrPost d 5) s
  let g := s.gtb
  { s with time := { s.time with gtb := (List.range 4).foldl (fun m d => SMap.set 0 m d g) s.time.gtb } }

/-- Phase 2: the active full stream verified and applied (R51). -/
def State.boot2 (s : State) : Except KFail State :=
  match s.checkStream 16 none s.sto.flashActive with
  | .error f => .error f
  | .ok c =>
    let s := s.applyStream true c.recs
    let s := (List.range 16).foldl (fun s r => (s.modRegion r fun x => { x with mv := s.pointMv r 0 }).regionDecide r) s
    .ok { s with sto := { s.sto with digest := sha384 s.sto.flashActive, floor := c.seq, doneHandle := c.handle, doneSeq := c.seq } }

/-- The slots of a cluster that fail self-test. -/
def badSlotsIn (r : BootReport) (c : Nat) : List Nat := (List.range 9).filter fun k => r.badSlots.any fun x => x.val == 9 * c + k

/-- The core map of a cluster after self-test (R19, R38, R407): the spare position, the failed slots, and the slots of the eight
logical cores in ascending order. -/
def State.mapCluster (s : State) (c : Nat) (bad : List Nat) : State :=
  let req := SMap.get 8 s.cfg.coreMap c
  let fails := bad.foldl (fun m k => m + 2 ^ k) 0
  let s := s.setField .CLU_SPARE c 0 24 16 fails
  if 1 < bad.length then (s.setReg .CLU_CORE_MAP c 0 0xFFFFFFFF).setField .CLU_SPARE c 0 3 0 15
  else
    let sp := match bad with
      | k :: _ => k
      | [] => if req ≤ 8 then req else 8
    let slots := (List.range 9).filter (· != sp)
    let w := slots.zipIdx.foldl (fun m x => m + x.1 * 2 ^ (4 * x.2)) 0
    (s.setReg .CLU_CORE_MAP c 0 (BitVec.ofNat 32 w)).setField .CLU_SPARE c 0 3 0 (if bad.isEmpty then sp else 15)

/-- Phase 3: self-test (R407). The cubes that fail are marked (R195). -/
def State.boot3 (s : State) (r : BootReport) : State :=
  let s := (List.range 96).foldl (fun s c => s.mapCluster c (badSlotsIn r c)) s
  r.badCubes.foldl (fun s x => ((s.setField .CORE_MU_CUBES x.1 0 24 16 x.2.toNat).setField .CORE_MU_CUBES x.1 0 3 0
    (if x.2 = 0 then 8 else 15)).setMuMode x.1) s

/-- A partition's cluster that self-test found unusable (R407). -/
def State.unusable (s : State) (r : BootReport) : Option Nat :=
  (List.range 96).find? fun c => decide (1 < (badSlotsIn r c).length) && (s.partOfCluster c).isSome

/-- Phase 5: scratchpad groups zeroed (R224), counters read 0 (R270). -/
def State.boot5 (s : State) : State :=
  { s.eraseMem (fun a => decide (scratchBase ≤ a) && decide (a < scratchEnd)) with counters := [] }

/-- Phase 6: flue ports enabled; the host-link ports are ACTIVE where their links come up. -/
def State.boot6 (s : State) (hostOk : Bool) : State :=
  (List.range 36).foldl (fun s p =>
    if s.field .FLP_STATUS p 0 22 21 = 1 then if hostOk then s.setField .FLP_STATUS p 0 31 28 lkActive else s
    else if s.field .FLP_STATUS p 0 22 21 = 2 then s
    else
      let b (i : Nat) : Nat := if s.lasers.getLsbD i then 1 else 0
      ((s.setField .FLP_STATUS p 0 19 19 (b (2 * (p / 9)))).setField .FLP_STATUS p 0 20 20 (b (2 * (p / 9) + 1))).linkEvent p 0) s

/-- BOOT_PHASE_DONE (R406): the work of the present phase ends as the hardware reports; the next begins, or the boot stops. -/
def execBootPhaseDone (r : BootReport) (s : State) : Res :=
  if !s.managed || !s.sto.pg48 || s.sto.resetLow || s.sto.ready || (s.reg .STO_BOOT_STATUS).getLsbD 26 then .next s
  else
    match s.bootPhase with
    | 1 =>
      if !r.railsOk then .next (s.bootFail 0x202 0x12 2)
      else if s.sto.overtemp && !s.cooled then .next s
      else .next (s.boot1.setPhase 2)
    | 2 =>
      match s.boot2 with
      | .error f => .next (s.bootFail f.2 0x0E 0 (f.1 * 2 ^ 64))
      | .ok s => .next (s.setPhase 3)
    | 3 =>
      let s := s.boot3 r
      match s.unusable r with
      | some c => .next (s.bootFail 0x204 0x12 2 (c * 2 ^ 32))
      | none => .next (s.setPhase 4)
    | 4 => if r.badStack then .next (s.bootFail 0x203 0x12 2) else .next (s.setPhase 5)
    | 5 => .next (s.boot5.setPhase 6)
    | 6 =>
      let s := (s.boot6 r.hostLinkOk).hostFollow s.hostPort
      if !r.hostLinkOk then .next (s.bootFail 0x205 0x12 2)
      else .next ((s.raiseDone s.sto.doneHandle s.sto.doneSeq).setPhase 7)
    | 7 => .next (({ s with sto := { s.sto with ready := true } }).setField .STO_BOOT_STATUS 0 0 27 27 1)
    | _ => .next s

/-! ### Management (R410, R413 to R416) -/

/-- A response on the management bus. -/
def State.answer (s : State) (code : Nat) (bs : List Byte) : State := s.emit (.mgmt code bs)

/-- PLDM_RESTART (R410): leaves a shutdown for overtemperature by a boot from phase 1. -/
def execPldmRestart (s : State) : Res :=
  if !s.managed || !s.sto.overtemp then .next s else .next (s.moduleReset.startBoot)

/-- I3C_DAA (R413): a bus controller assigns a dynamic address. -/
def execI3cDaa (bus : Fin 2) (addr : BitVec 7) (s : State) : Res :=
  if !s.sto.standby then .next s
  else .next { s with sto := { s.sto with i3c := SMap.set 0 s.sto.i3c bus addr.toNat } }

/-- PLDM_DISCOVERY (R414): the types that the Stoker supports (Table 16.7). -/
def execPldmDiscovery (_bus : Fin 2) (s : State) : Res :=
  if !s.sto.standby then .next s else .next (s.answer 0 [0x00, 0x02, 0x05, 0x3F])

/-- The reading of a sensor (Table 16.7); those that no register of the manual holds are free. -/
def State.sensor (s : State) : Sensor → Option Nat
  | .regionTemp r => some (s.regionTemp r)
  | .stackTemp k => some (s.stackTemp k)
  | .dieTemp d => SMap.get none s.sto.dieTemps d
  | .ringTemp _ => none
  | .regionPower r => some (s.field .RGN_POWER r 0 15 0)
  | .modulePower => none
  | .powerDomain d => some (s.domainState d)
  | .bootPhase => some s.bootPhase

/-- PLDM_GET_SENSOR (R414). -/
def execPldmGetSensor (_bus : Fin 2) (x : Sensor) (s : State) : Res :=
  if !s.managed then .next s
  else
    match s.sensor x with
    | some v => .next (s.answer 2 (leBytes 4 v))
    | none => .next ((s.answer 2 (leBytes 4 (Config.freeNat s.freeCtr))).nextFree)

/-- The older of the two firmware images is replaced; one that verifies is marked newer (Table 16.8). -/
def Stoker.putImage (x : Stoker) (img : FwImage) : Stoker :=
  let n : FwImage := { img with version := if img.sigOk then max x.imgA.version x.imgB.version + 1 else 0 }
  if x.imgA.version ≤ x.imgB.version then { x with imgA := n } else { x with imgB := n }

/-- A full stream in the pending slot becomes the active one once it passes every check (2.5). -/
def State.putStream (s : State) (bs : List Byte) : State :=
  let s := { s with sto := { s.sto with flashPending := bs } }
  match s.checkStream 16 none bs with
  | .error f => s.ashNow s.srcStoker 0x0E 0 0xFF 0 0xFFFF 0 0 0 (f.2 + f.1 * 2 ^ 64 + 16 * 2 ^ 32)
  | .ok c => { s with sto := { s.sto with flashActive := bs, floor := c.seq } }

/-- PLDM_FIRMWARE_UPDATE (Table 16.8): also what the recovery loader offers (R405). -/
def execPldmFirmwareUpdate (_bus : Fin 2) (c : FwComponent) (s : State) : Res :=
  if !s.sto.standby then .next s
  else
    match c with
    | .stoker img => .next ({ s with sto := s.sto.putImage img }.answer 5 [])
    | .stream bs => .next ((s.putStream bs).answer 5 [])

/-- PLDM_ASH_LOG_READ (R414): as STO_ALOG_POP. -/
def execPldmAshLogRead (_bus : Fin 2) (s : State) : Res :=
  if !s.managed then .next s
  else
    match s.takeRecord with
    | none => .next (s.answer 0x3F [])
    | some (r, s) => .next (s.answer 0x3F r.bytes)

/-- What a measurement block measures (R415). -/
def State.measurement (s : State) (block : Nat) : Option (BitVec 384) :=
  let img := if (s.reg .STO_BOOT_STATUS).getLsbD 24 then s.sto.imgB else s.sto.imgA
  if block = 1 then some img.measurement
  else if block = 2 then some s.sto.digest
  else if block = 3 then some img.verifier
  else if 16 ≤ block then some ((s.part (block - 16)).image.getD 0)
  else none

/-- SPDM_GET_MEASUREMENTS (R415): the block and its signature, which is a free value. -/
def execSpdmGetMeasurements (block : Fin 32) (s : State) : Res :=
  if !s.managed then .next s
  else
    match s.measurement block with
    | none => .next (s.answer 0x60 [])
    | some d => .next ((s.answer 0x60 (beBytes 48 d.toNat ++ leBytes 96 (Config.freeNat s.freeCtr))).nextFree)

/-- SPDM_CHALLENGE (R415): the certificate and the authentication of the nonce, which are free values. -/
def execSpdmChallenge (_nonce : BitVec 256) (s : State) : Res :=
  if !s.managed then .next s else .next ((s.answer 0x03 (leBytes 96 (Config.freeNat s.freeCtr))).nextFree)

/-- SPDM_KEY_EXCHANGE (R415): the Stoker's share of the session key, a free value. -/
def execSpdmKeyExchange (_x _y : Nat) (s : State) : Res :=
  if !s.managed then .next s else .next ((s.answer 0x64 (leBytes 96 (Config.freeNat s.freeCtr))).nextFree)

/-! ### Signed management commands (R416) -/

def State.keySlot (s : State) (k : Nat) : KeySlot := SMap.get .empty s.sto.keys k
def State.setKeySlot (s : State) (k : Nat) (x : KeySlot) : State := { s with sto := { s.sto with keys := SMap.set .empty s.sto.keys k x } }

def KeySlot.isValid : KeySlot → Bool
  | .valid _ => true
  | _ => false

def State.validKeys (s : State) : Nat := ((List.range 4).filter fun k => (s.keySlot k).isValid).length

/-- The signed bytes of a command (log entry 34): its code, slot and key, then the nonce. -/
def mgmtBytes (code slot : Nat) (key : BitVec 768) (nonce : BitVec 256) : List Byte :=
  leBytes 1 code ++ leBytes 1 slot ++ beBytes 96 key.toNat ++ beBytes 32 nonce.toNat

/-- The signature of a signed command holds (R416): by a key in a valid slot; or, for a PROVISION while no slot is provisioned, by
the factory root key. Its nonce was issued for it within the last 60 s and has not been used. -/
def State.signedOk (s : State) (provision : Bool) (msg : List Byte) (g : MgmtSig) : Bool :=
  let fresh := (g.issued.any fun t => decide (s.gtb.toNat ≤ t.toNat + 60000000000)) && !s.sto.nonces.contains g.nonce
  let key : Option (BitVec 768) := match g.key with
    | some k => (match s.keySlot k with
      | .valid x => some x
      | _ => none)
    | none => if provision && (List.range 4).all (fun k => decide (s.keySlot k = .empty)) then some Config.rootKey else none
  match key with
  | none => false
  | some x => fresh && ecdsaVerify x msg g.r g.s

/-- A signed command that is accepted is in flash before it is answered, and in the ash log (R416). Its nonce is used up. -/
def State.mgmtDone (s : State) (g : MgmtSig) (ok : Bool) (code slot : Nat) : State :=
  let s := { s with sto := { s.sto with nonces := s.sto.nonces ++ [g.nonce] } }
  let s := if ok then s.ashOpen s.srcStoker 0xFF 0xFFFF 0 (code + slot * 2 ^ 8) else s
  s.answer 0x3F [if ok then 0 else 1]

/-- PROVISION (R416). -/
def execProvision (slot : Fin 4) (key : BitVec 768) (sig : MgmtSig) (s : State) : Res :=
  if !s.managed then .next s
  else
    let ok := s.signedOk true (mgmtBytes 0 slot key sig.nonce) sig && decide (s.keySlot slot = .empty)
    .next ((if ok then s.setKeySlot slot (.valid key) else s).mgmtDone sig ok 0 slot)

/-- REVOKE (R416). -/
def execRevoke (slot : Fin 4) (sig : MgmtSig) (s : State) : Res :=
  if !s.managed then .next s
  else
    let last := (s.keySlot slot).isValid && decide (s.validKeys = 1)
    let ok := s.signedOk false (mgmtBytes 1 slot 0 sig.nonce) sig && decide (s.keySlot slot ≠ .empty) && !last
    .next ((if ok then s.setKeySlot slot .revoked else s).mgmtDone sig ok 1 slot)

end Sys2Proof.Machine
end

