-- ==== Sys2Proof/Machine/CsrBus.lean ====
section
/-!
DEFINITION. The CSR bus (15.1, 15.2): the block map with its aliases and mirrors, what each register's write does, rights,
power domains, and the control core's own registers (R96).
-/

namespace Sys2Proof.Machine

open Sys2Proof

/-! ### The control core's registers (R73, R91, R96) -/

/-- A LOCKED value that the resulting placement allows (R73). -/
def lockedOk (v : W32) : Bool :=
  let n := bitsOf v 5 1
  if v.getLsbD 0 then n == 0 || n == 8 || n == 16 else decide (n ≤ 16)

/-- A write of CORE_CC_CFG (Table 3.12): a change flushes the cache; an entry newly locked reads as zero, and one unlocked is
lost. -/
def State.ccCfgWrite (s : State) (k : Nat) (v : W32) : State :=
  let r : RegRef := { name := .CORE_CC_CFG, i := k }
  let new := r.name.written (s.regOf r) v
  if !lockedOk new || decide (new = s.regOf r) then s
  else
    let a := bitsOf (s.regOf r) 5 1
    let b := bitsOf new 5 1
    let gone (off : Nat) : Bool := decide (0x20000 + 256 * min a b ≤ off) && decide (off < 0x20000 + 256 * max a b)
    match s.logicalOf k with
    | none => s.storeReg r new
    | some l => ((s.flushCache l).modCore l fun c => { c with priv := c.priv.filter fun e => !gone e.1 }).storeReg r new

/-- CC_CFG_WRITE (R73, R96). -/
def execCcCfgWrite (a : Agent) (k : PhysId) (v : W32) (s : State) : Res :=
  if s.mayWrite a { name := .CORE_CC_CFG, i := k } then .next (s.ccCfgWrite k v) else .next s

/-- The 64 entries of an arena table (R91). -/
def arenasOf (bs : List Byte) : List Arena :=
  (List.range 64).map fun i =>
    { base := fieldLe bs (32 * i) 8, len := fieldLe bs (32 * i + 8) 8, virt := fieldLe bs (32 * i + 16) 1 == 1,
      ctx := fieldLe bs (32 * i + 17) 1 }

/-- Admission's copy of the arena table, taken when CORE_SPAN_BASE is written, with control-cache lines written back first (R77); the
span cache empties (R91). -/
def State.copyArenas (s : State) (k : Nat) : State :=
  match s.logicalOf k with
  | none => s
  | some l =>
    let r : List Arena × State :=
      match (s.partOf l).bind fun p => s.partPieces p (s.pair .CORE_SPAN_BASE_LO .CORE_SPAN_BASE_HI k) 2048 with
      | none => ([], s)
      | some ps =>
        let x := s.peekTargets ps
        (arenasOf x.1, x.2)
    r.2.modCore l fun c => { c with arenas := r.1, spanCache := [] }

/-- A write of CORE_SPAN_BASE_HI, with which the pair takes effect (R379). -/
def State.spanBaseWrite (s : State) (k : Nat) (hi : W32) : State :=
  (s.plainWrite { name := .CORE_SPAN_BASE_HI, i := k } hi).copyArenas k

/-- SPAN_BASE_WRITE (R91): both words. -/
def execSpanBaseWrite (a : Agent) (k : PhysId) (v : W64) (s : State) : Res :=
  if s.mayWrite a { name := .CORE_SPAN_BASE_LO, i := k } then
    .next ((s.plainWrite { name := .CORE_SPAN_BASE_LO, i := k } (v.setWidth 32)).spanBaseWrite k ((v >>> 32).setWidth 32))
  else .next s

def State.spanCountWrite (s : State) (k : Nat) (v : W32) : State :=
  let s := s.plainWrite { name := .CORE_SPAN_COUNT, i := k } v
  match s.logicalOf k with
  | none => s
  | some l => s.modCore l fun c => { c with spanCache := [] }

/-- SPAN_COUNT_WRITE (R91). -/
def execSpanCountWrite (a : Agent) (k : PhysId) (v : W32) (s : State) : Res :=
  if s.mayWrite a { name := .CORE_SPAN_COUNT, i := k } then .next (s.spanCountWrite k v) else .next s

/-! ### What a register's write does -/

/-- A write whose W1C bit 31, VALID, also clears the OVERFLOW field (Tables 3.13 and 4.9c). -/
def State.validWrite (s : State) (r : RegRef) (v : W32) (hi lo : Nat) : State :=
  let s := s.plainWrite r v
  if v.getLsbD 31 then s.setField r.name r.i r.j hi lo 0 else s

/-- A write of CLU_TEST (Table 13.12): RUN starts a slice now, on the slot whose turn it is. -/
def State.testWrite (s : State) (k : Nat) (v : W32) : State :=
  let s := s.plainWrite { name := .CLU_TEST, i := k } v
  if v.getLsbD 30 then s.beginSlice (Fin.ofNat 96 k) (s.cluster k).nextSlot else s

/-- The effect of a word `v` written to a register, by its description. `sets` holds the bits that the write asks to set. -/
def State.applyWrite (s : State) (a : Agent) (r : RegRef) (v sets : W32) : State :=
  match r.name with
  | .STO_KS_CTRL => s.ksWrite r.i v
  | .STO_ALOG_POP => if v.getLsbD 0 then s.alogPop else s
  | .CORE_CC_CFG => s.ccCfgWrite r.i v
  | .CORE_ADM_STATUS => s.validWrite r v 23 20
  | .CORE_VE_FAULT => s.validWrite r v 7 4
  | .CORE_SPAN_BASE_HI => s.spanBaseWrite r.i v
  | .CORE_SPAN_COUNT => s.spanCountWrite r.i v
  | .CORE_VE_CFG => s.veCfgWrite r.i v
  | .CORE_VE_KILL => s.veKillWrite r.i v
  | .CORE_MU_CUBES => s.muCubesWrite r.i v
  | .CORE_SQ_CFG => s.sqCfgWrite r.i r.j v
  | .CORE_SQ_RING => s.sqRingWrite r.i r.j v
  | .CORE_SQ_RESV => s.sqResvWrite r.i v
  | .CLU_TEST => s.testWrite r.i v
  | .GRT_ENGINES => s.grtEnginesWrite r.i v
  | .MOD_GOLD_CTRL => s.goldWrite r.i v sets
  | .MOD_XLT_SWAP => s.xltSwapWrite r.i v
  | .MOD_XLT_INV => s.xltInvWrite r.i v
  | .MOD_XLT_RESOLVE => s.xltResolveWrite r.i v
  | .MOD_XLT_FR_LO => s.frWrite r v
  | .MOD_XLT_FR_HI => s.frWrite r v
  | .MOD_XLT_FR_CTRL => s.frWrite r v
  | .MOD_XLT_FR_HEAD => s.frWrite r v
  | .FCH_VIEW_SEL => s.viewWrite a v
  | .FCH_SLOT_CFG => s.slotWrite r v
  | .FCH_SLOT_COMP => s.slotWrite r v
  | .FCH_SLOT_PARENT => s.slotWrite r v
  | .FCH_SLOT_INDEX => s.slotWrite r v
  | .FCH_SLOT_MASK => s.slotWrite r v
  | .DB_RING_HI => s.ringHiWrite a r.i r.j v
  | .FCH_SYSDIR => (s.plainWrite r v).ownerChanged (0x80000 + r.i)
  | .TRIG_CFG => s.trigWrite r v
  | .TRIG_LO => s.trigWrite r v
  | .TRIG_HI => s.trigWrite r v
  | .RGN_LAG_CFG => (s.plainWrite r v).modRegion r.i fun x => { x with lag := [] }
  | .RGN_PERF_REQ => s.perfReqWrite r.i r.j v
  | .MOD_LOSS_CFG => s.lossWrite r.i v
  | .MOD_PWR_EVENT => s.pwrEventWrite v
  | .MOD_MODE_CTRL => s.modeCtrlWrite r.i v
  | .MOD_DAMP_CTRL => s.damperWrite v
  | _ => s.plainWrite r v

/-- A register has aliases: it has an RW field (R378). -/
def RegName.aliases (n : RegName) : Bool := n.maskOf .rw != 0

/-- A write of form `f` by an agent: ignored where the agent may not write, or where the register has no such alias. -/
def State.writeReg (s : State) (a : Agent) (r : RegRef) (f : WriteForm) (v : W32) : State :=
  if !s.mayWrite a r || (f != .plain && !RegName.aliases r.name) then s
  else
    let w := RegRef.operand r f (s.regOf r) v
    s.applyWrite a r w (match f with
      | .plain => v
      | .setBits => v
      | .clearBits => 0
      | .toggleBits => w &&& ~~~(s.regOf r))

/-- REGISTER_WRITE (R377). -/
def execRegisterWrite (a : Agent) (r : RegRef) (v : W32) (s : State) : Res := .next (s.writeReg a r .plain v)
/-- SET_ALIAS_WRITE (R378). -/
def execSetAliasWrite (a : Agent) (r : RegRef) (v : W32) (s : State) : Res := .next (s.writeReg a r .setBits v)
/-- CLEAR_ALIAS_WRITE (R378). -/
def execClearAliasWrite (a : Agent) (r : RegRef) (v : W32) (s : State) : Res := .next (s.writeReg a r .clearBits v)
/-- TOGGLE_ALIAS_WRITE (R378). -/
def execToggleAliasWrite (a : Agent) (r : RegRef) (v : W32) (s : State) : Res := .next (s.writeReg a r .toggleBits v)

/-! ### The block map (Tables 15.3, 15.4) -/

/-- The offset lies inside a block of Table 15.3. -/
def inBlocks (o : Nat) : Bool :=
  let within (base size : Nat) : Bool := decide (base ≤ o) && decide (o < base + size)
  decide (o < 0x5000000) || within 0x10000000 (16 * 0x100000) || within 0x20000000 (96 * 0x40000) ||
  within 0x30000000 (12 * 0x100000) || within 0x38000000 (36 * 0x10000) || within 0x3C000000 (16 * 0x10000) ||
  within 0x40000000 (864 * 0x10000)

/-- What lies at an offset of the CSR space: a register or one of its aliases, the debug-module window, or nothing. -/
inductive CsrAt where
  | reg (r : RegRef) (f : WriteForm)
  | debugWindow
  | hole
deriving DecidableEq, Repr

/-- The form of alias by its number (R378). -/
def aliasForm (k : Nat) : WriteForm := if k = 1 then .setBits else if k = 2 then .clearBits else .toggleBits

/-- What lies at an offset, aliases included (R376, R378). -/
def csrAt (o : Nat) : CsrAt :=
  let aliasOf (base k : Nat) : CsrAt := match regAt base with
    | some r => if RegName.aliases r.name then .reg r (aliasForm k) else .hole
    | none => .hole
  let q := o % 0x10000
  match regAt o with
  | some r => .reg r .plain
  | none =>
    if 0xD0000 ≤ o ∧ o < 0x100000 then if q < 0x5000 then aliasOf (0x50000 + q) (o / 0x10000 - 0xC) else .hole
    else if o / 0x10000 = 5 then .hole
    else if 0x12000 ≤ o ∧ o < 0x14000 then .debugWindow
    else if q / 0x4000 = 0 then .hole
    else aliasOf (o / 0x10000 * 0x10000 + q % 0x4000) (q / 0x4000)

/-- The mirrors of a control core (R383): the offset in the block that a mirror shows. -/
def State.mirrored (s : State) (l o : Nat) : Option Nat :=
  if 0xE00000 ≤ o ∧ o < 0xF00000 then some (0x10000000 + l / 48 * 0x100000 + (o - 0xE00000))
  else if 0xF00000 ≤ o ∧ o < 0xF10000 then some (0x40000000 + s.physOf l * 0x10000 + (o - 0xF00000))
  else if 0xF40000 ≤ o ∧ o < 0xF80000 then some (0x20000000 + l / 8 * 0x40000 + (o - 0xF40000))
  else none

/-- The power domain of the block at an offset, numbered as MOD_PWR_STATE numbers them. -/
def csrDomain (o : Nat) : Option Nat :=
  if o < 0x1000000 then none
  else if o < 0x5000000 then some (16 + (o / 0x1000000 - 1))
  else if o < 0x20000000 then some ((o - 0x10000000) / 0x100000)
  else if o < 0x30000000 then some ((o - 0x20000000) / 0x40000 / 6)
  else if o < 0x38000000 then some (20 + (o - 0x30000000) / 0x100000)
  else if o < 0x3C000000 then some (40 + (o - 0x38000000) / 0x10000 / 4)
  else if o < 0x40000000 then some (32 + (o - 0x3C000000) / 0x10000 / 2)
  else some ((o - 0x40000000) / 0x10000 / 54)

/-- A block answers nothing: its domain is FAILED or absent (R381). -/
def State.blockDead (s : State) (o : Nat) : Bool :=
  match csrDomain o with
  | none => false
  | some d => s.absentDomain d || decide (s.domainState d = 5)

/-- An access to a block whose domain is PARKED or OFF raises DEMAND (R366, R381). -/
def State.wakeBlock (s : State) (o : Nat) : State :=
  match csrDomain o with
  | none => s
  | some d => s.wakeDomain d

/-! ### Rights (R382, Table 15.2) -/

/-- A register of the module block that a control core of partition `p` may reach. -/
def State.moduleOpen (s : State) (p : Nat) (r : RegRef) : Bool :=
  match r.name with
  | .MOD_ID => true
  | .MOD_XLT_S2_LO | .MOD_XLT_S2_HI | .MOD_XLT_PIN_LO | .MOD_XLT_PIN_HI | .MOD_XLT_SWAP => r.i == p
  | _ => match r.name.place.writers with
    | .part => r.i == p
    | .mailbox => r.i == p
    | .view => true
    | .slot => s.ownsSlot p r.i
    | _ => false

/-- A control core of partition `p?` may access the offset, mirrors apart. -/
def State.ccReaches (s : State) (p? : Option Nat) (o : Nat) : Bool :=
  let mine (c : Nat) : Bool := p?.isSome && s.partOfCluster c == p?
  if o < 0x1000000 then
    match csrAt o with
    | .reg r _ => r.name == .MOD_ID || p?.any fun p => s.moduleOpen p r
    | _ => false
  else if o < 0x5000000 then true
  else if o < 0x20000000 then p?.any fun p => s.inRegion p ((o - 0x10000000) / 0x100000)
  else if o < 0x30000000 then mine ((o - 0x20000000) / 0x40000)
  else if o < 0x40000000 then true
  else mine ((o - 0x40000000) / 0x10000 / 9)

/-- The offset that an agent's access reaches; none where it is refused. An agent other than a control core finds nothing in the
mirrors (R383); a virtual function reaches registers through its window only. -/
def State.csrTarget (s : State) (a : Agent) (o : Nat) : Option Nat :=
  match a with
  | .cc l =>
    match s.mirrored l o with
    | some m => if inBlocks m then some m else none
    | none => if inBlocks o && s.ccReaches (s.partOf l) o then some o else none
  | .vf _ => none
  | _ => if inBlocks o then some o else none

/-! ### Accesses (R375, R376) -/

/-- An access is refused, waits, or is done: with the data read, which a write leaves zero. -/
inductive CsrAns where
  | refused
  | waits
  | done (data : W64) (s : State)
deriving DecidableEq, Repr

/-- The registers of a view whose snapshot is on its way (Table 11.16). -/
def isView (n : RegName) : Bool :=
  match n with
  | .FCH_VIEW_STATE | .FCH_VIEW_VALUE_LO | .FCH_VIEW_VALUE_HI | .FCH_VIEW_LAST_SRC | .FCH_VIEW_LAST_TIME_LO
  | .FCH_VIEW_LAST_TIME_HI | .FCH_VIEW_WAITER => true
  | _ => false

/-- A read of a register or alias by an agent. -/
def State.readAt (s : State) (a : Agent) (r : RegRef) (f : WriteForm) : CsrAns :=
  if isView r.name && (s.reg .FCH_VIEW_SEL).getLsbD 31 then .waits
  else if f = .plain then
    let x := s.readReg a r
    .done (x.1.setWidth 64) x.2
  else .done ((s.peekReg a r).setWidth 64) s

/-- A 32-bit read at an offset that exists. The debug-module window is PF0's way to the debug module (R384); another agent reads a
free value there and writes nothing. -/
def State.csrRead32 (s : State) (a : Agent) (o : Nat) : CsrAns :=
  match s.csrTarget a o with
  | none => .refused
  | some t =>
    if s.blockDead t then .done 0 s
    else
      match csrAt t with
      | .hole => .done 0 (s.wakeBlock t)
      | .debugWindow => .done ((s.freeWord.setWidth 32).setWidth 64) s.nextFree
      | .reg r f => (s.wakeBlock t).readAt a r f

/-- A 32-bit write at an offset that exists. -/
def State.csrWrite32 (s : State) (a : Agent) (o : Nat) (v : W32) : CsrAns :=
  match s.csrTarget a o with
  | none => .refused
  | some t =>
    if s.blockDead t then .done 0 s
    else
      match csrAt t with
      | .reg r f => .done 0 ((s.wakeBlock t).writeReg a r f v)
      | _ => .done 0 (s.wakeBlock t)

/-- The data of two reads, low first. -/
def CsrAns.andThen (x : CsrAns) (k : State → CsrAns) : CsrAns :=
  match x with
  | .refused => .refused
  | .waits => .waits
  | .done lo s =>
    match k s with
    | .refused => .refused
    | .waits => .waits
    | .done hi s' => .done (lo ||| hi <<< 32) s'

/-- A read of `n` bytes at an offset of the CSR space. -/
def State.csrRead (s : State) (a : Agent) (o n : Nat) : CsrAns :=
  if n = 4 ∧ o % 4 = 0 then s.csrRead32 a o
  else if n = 8 ∧ o % 8 = 0 then (s.csrRead32 a o).andThen fun s => s.csrRead32 a (o + 4)
  else .refused

/-- A write of `n` bytes at an offset of the CSR space. -/
def State.csrWrite (s : State) (a : Agent) (o n : Nat) (v : W64) : CsrAns :=
  if n = 4 ∧ o % 4 = 0 then s.csrWrite32 a o (v.setWidth 32)
  else if n = 8 ∧ o % 8 = 0 then
    (s.csrWrite32 a o (v.setWidth 32)).andThen fun s => s.csrWrite32 a (o + 4) ((v >>> 32).setWidth 32)
  else .refused

/-- An address of the CSR space as an offset (Table 9.1). -/
def csrOffset (a : Nat) : Option Nat := if csrBase ≤ a ∧ a < csrEnd then some (a - csrBase) else none

end Sys2Proof.Machine
end

