-- ==== Sys2Proof/Machine/CcMem.lean ====
section
/-!
DEFINITION. The control core's memory accesses (R61, R62, R70 to R78): the address map of Table 3.1, loads, stores, atomics, fences,
and ordinary instructions as whole words.
-/

namespace Sys2Proof.Machine

open Sys2Proof

/-! ### The address map (Table 3.1) -/

/-- Where a control core's access goes: cacheable memory by local physical address, a window, a counter, a register, private
memory, or nowhere. -/
inductive CcPlace where
  | cached (t : Nat)
  | window (k off : Nat)
  | counter (k : Nat)
  | csr (o : Nat)
  | priv (off : Nat)
  | fault
deriving DecidableEq, Repr

/-- The place of `n` aligned bytes at address `a` for core `l` (R61). -/
def State.ccPlace (s : State) (l a n : Nat) : CcPlace :=
  let p? := s.partOf l
  if 2 ^ 43 ≤ a then .fault
  else if a < scratchEnd then
    match p?.bind fun p => s.pinnedLocal p a n with
    | some [(t, _)] => if s.isMemoryRange t n then .cached t else .fault
    | _ => .fault
  else
    match windowOf a with
    | some (k, off) => if p?.any fun p => s.ownsWindow p a n then .window k off else .fault
    | none =>
      if counterBase ≤ a ∧ a < counterEnd then
        let k := (a - counterBase) / 8
        if n = 8 ∧ (p?.any fun p => s.ownsCounter p k) then .counter k else .fault
      else if csrBase ≤ a ∧ a < csrEnd then .csr (a - csrBase)
      else
        match privOff a with
        | some off => if s.privOk l off n then .priv off else .fault
        | none => .fault

/-! ### Loads (R61, R71, R74) -/

/-- A load of a counter that another module owns asks its owner (R273). -/
def State.askValue (s : State) (l : CoreId) (k m : Nat) : State :=
  let tag := s.freshTag
  let s := s.takeTag.ask tag m opCounterRead tag (handleOf k) 0 0 []
  match SMap.get none s.remotes tag with
  | some r => { s with remotes := SMap.set none s.remotes tag (some { r with unit := some (.cc l) }) }
  | none => s

/-- A store to the line of an address waits for its line. -/
def CC.storeTo (c : CC) (t : Nat) : Bool := c.stores.any fun x => x.addr / 256 == t / 256

/-- A load of funct3 `f3` by core `l`. A line that is not held is waited for, and so is a store to it. -/
def State.ccLoadAt (s : State) (l : CoreId) (rd : XReg) (a : W64) (f3 : BitVec 3) (len : Nat) : State :=
  let n := 2 ^ (f3.toNat % 4)
  let stall (x : Nat) (s : State) : State := s.modCC l fun c => { c with stall := some (.load rd x f3 len) }
  if a.toNat % n ≠ 0 then s.ccTrap l excLoadMisaligned a
  else
    match s.ccPlace l a.toNat n with
    | .fault => s.ccTrap l excLoadFault a
    | .priv off => s.ccRetire l rd (loadValue f3.toNat ((s.core l).privBytes off n)) len
    | .csr o =>
      match s.csrRead (.cc l) o n with
      | .refused => s.ccTrap l excLoadFault a
      | .waits => s
      | .done v s' => s'.ccRetire l rd (loadValue f3.toNat (leBytes n v.toNat)) len
    | .counter k =>
      match s.ownerElsewhere k with
      | some m => stall a.toNat (s.askValue l k m)
      | none => if s.nodeAwake (counterDie k) then s.ccRetire l rd (s.value k) len else s
    | .window k off =>
      if s.fenced k then s
      else
        let x := s.readTarget (.cc l) (localAddr k off) n
        x.2.ccRetire l rd (loadValue f3.toNat x.1) len
    | .cached t =>
      if (s.cc l).storeTo t then stall t s
      else
        match s.ccHitLoad l t n with
        | some (bs, s') => s'.ccRetire l rd (loadValue f3.toNat bs) len
        | none => stall t s

/-- The word of a load. -/
def loadWord (rd rs1 : Nat) (imm : BitVec 12) (f3 : Nat) : W32 := encI imm.toNat rs1 f3 rd 0x03

/-- CC_LOAD (R61): LB to LWU. -/
def execCcLoad (l : CoreId) (rd rs1 : XReg) (imm : BitVec 12) (f3 : BitVec 3) (s : State) : Res :=
  let w := loadWord rd rs1 imm f3.toNat
  s.ccIssue l (s.fetches l w) fun len s =>
    if f3 = 7 then s.ccTrap l excIllegal (w.setWidth 64)
    else s.ccLoadAt l rd ((s.cc l).xr rs1 + imm.signExtend 64) f3 len

/-! ### Stores (R61, R62, R75) -/

/-- A store of the low 2^f3 bytes of `v` by core `l`. One whose line is not owned waits while the core goes on. -/
def State.ccStoreAt (s : State) (l : CoreId) (a v : W64) (f3 : Nat) (len : Nat) : State :=
  let n := 2 ^ f3
  let bs := leBytes n v.toNat
  if a.toNat % n ≠ 0 then s.ccTrap l excStoreMisaligned a
  else
    match s.ccPlace l a.toNat n with
    | .fault => s.ccTrap l excStoreFault a
    | .counter _ => s.ccTrap l excStoreFault a
    | .priv off => (s.modCore l fun c => c.privStore off bs).ccRetire l 0 0 len
    | .csr o =>
      match s.csrWrite (.cc l) o n v with
      | .refused => s.ccTrap l excStoreFault a
      | .waits => s
      | .done _ s' => s'.ccRetire l 0 0 len
    | .window k off =>
      if s.fenced k then s else (s.writeTarget (.cc l) (localAddr k off) bs).ccRetire l 0 0 len
    | .cached t =>
      let wait (s : State) : State :=
        s.modCC l fun c => { c with stores := c.stores ++ [{ addr := t, width := n, data := BitVec.ofNat 64 (ofLe bs) }] }
      if (s.cc l).storeTo t then (wait s).ccRetire l 0 0 len
      else
        match s.ccHitStore l t bs with
        | some s' => s'.ccRetire l 0 0 len
        | none => (wait s).ccRetire l 0 0 len

/-- The word of a store. -/
def storeWord (rs1 rs2 : Nat) (imm : BitVec 12) (f3 : Nat) : W32 := encS imm.toNat rs2 rs1 f3 0x23

/-- CC_STORE (R61, R62): SB to SD. -/
def execCcStore (l : CoreId) (rs1 rs2 : XReg) (imm : BitVec 12) (f3 : BitVec 3) (s : State) : Res :=
  let w := storeWord rs1 rs2 imm f3.toNat
  s.ccIssue l (s.fetches l w) fun len s =>
    if 4 ≤ f3.toNat then s.ccTrap l excIllegal (w.setWidth 64)
    else s.ccStoreAt l ((s.cc l).xr rs1 + imm.signExtend 64) ((s.cc l).xr rs2) f3.toNat len

/-! ### Atomics (R78) -/

/-- The operations of RV64A by funct5, on operands of one width; none for a reserved code. -/
def amoOp {n : Nat} (f5 : Nat) (old x : BitVec n) : Option (BitVec n) :=
  match f5 with
  | 0 => some (old + x)
  | 1 => some x
  | 4 => some (old ^^^ x)
  | 8 => some (old ||| x)
  | 12 => some (old &&& x)
  | 16 => some (if old.slt x then old else x)
  | 20 => some (if old.slt x then x else old)
  | 24 => some (if old.ult x then old else x)
  | 28 => some (if old.ult x then x else old)
  | _ => none

/-- The number that an AMO of `n` bytes leaves. -/
def amoValue (f5 n : Nat) (old : Nat) (x : W64) : Option Nat :=
  if n = 4 then (amoOp f5 (BitVec.ofNat 32 old) (x.setWidth 32)).map (·.toNat)
  else (amoOp f5 (BitVec.ofNat 64 old) x).map (·.toNat)

/-- The word of an atomic instruction. -/
def amoWord (f5 : Nat) (aq rl dbl : Bool) (rs2 rs1 rd : Nat) : W32 :=
  encR (f5 * 4 + (if aq then 2 else 0) + if rl then 1 else 0) rs2 rs1 (if dbl then 3 else 2) rd 0x2F

/-- The value of `n` bytes as an atomic gives it to rd: a word is sign-extended. -/
def atomicValue (n : Nat) (v : Nat) : W64 := if n = 4 then sext 32 v else BitVec.ofNat 64 v

/-- An atomic at address `a`: the address is aligned and cacheable, no store of the core waits for its line, and the domains that the line
needs are ON (R366); then `k` runs at the line's home, once every control cache has given the line up. With rl every earlier store of the core is performed first (R284,
Table 11.10); aq needs nothing, since a core issues in order. `load`: the exceptions are those of a load. -/
def State.atHome (s : State) (l : CoreId) (a : W64) (n : Nat) (rl load : Bool) (k : Nat → State → State) : State :=
  if a.toNat % n ≠ 0 then s.ccTrap l (if load then excLoadMisaligned else excStoreMisaligned) a
  else
    match s.ccPlace l a.toNat n with
    | .cached t =>
      if (s.cc l).storeTo t || (rl && !(s.cc l).stores.isEmpty) || s.homeAsleep t then s else k t (s.recall (t / 256) true)
    | _ => s.ccTrap l (if load then excLoadFault else excStoreFault) a

def State.ccAmoAt (s : State) (l : CoreId) (f5 : Nat) (aq rl dbl : Bool) (rd rs1 rs2 : XReg) : State :=
  let n := if dbl then 8 else 4
  let x := (s.cc l).xr rs2
  match amoValue f5 n 0 x with
  | none => s.ccTrap l excIllegal ((amoWord f5 aq rl dbl rs2 rs1 rd).setWidth 64)
  | some _ =>
    s.atHome l ((s.cc l).xr rs1) n rl false fun t s =>
      let old := s.load t n
      (s.writeMem (.cc l) t (leBytes n ((amoValue f5 n old x).getD 0))).ccRetire l rd (atomicValue n old)

/-- CC_AMO (R78). -/
def execCcAmo (l : CoreId) (f5 : BitVec 5) (form : AtomicForm) (rd rs1 rs2 : XReg) (s : State) : Res :=
  s.ccIssue l (s.fetches l (amoWord f5.toNat form.aq form.rl form.dbl rs2 rs1 rd)) fun _ s =>
    s.ccAmoAt l f5.toNat form.aq form.rl form.dbl rd rs1 rs2

def State.ccLrAt (s : State) (l : CoreId) (rl dbl : Bool) (rd rs1 : XReg) : State :=
  let n := if dbl then 8 else 4
  s.atHome l ((s.cc l).xr rs1) n rl true fun t s =>
    let x := s.readMem (.cc l) t n
    (x.2.modCC l fun c => { c with resv := some (t, n) }).ccRetire l rd (atomicValue n (ofLe x.1))

/-- CC_LR (R78): the reservation is held at the home. -/
def execCcLr (l : CoreId) (form : AtomicForm) (rd rs1 : XReg) (s : State) : Res :=
  s.ccIssue l (s.fetches l (amoWord 2 form.aq form.rl form.dbl 0 rs1 rd)) fun _ s => s.ccLrAt l form.rl form.dbl rd rs1

def State.ccScAt (s : State) (l : CoreId) (rl dbl : Bool) (rd rs1 rs2 : XReg) : State :=
  let n := if dbl then 8 else 4
  let x := (s.cc l).xr rs2
  let resv := (s.cc l).resv
  s.atHome l ((s.cc l).xr rs1) n rl false fun t s =>
    let s' := s.modCC l fun c => { c with resv := none }
    if resv.any fun r => r.1 / 128 == t / 128 then (s'.writeMem (.cc l) t (leBytes n x.toNat)).ccRetire l rd 0
    else s'.ccRetire l rd 1

/-- CC_SC (R78): succeeds while the reservation has not been cancelled. -/
def execCcSc (l : CoreId) (form : AtomicForm) (rd rs1 rs2 : XReg) (s : State) : Res :=
  s.ccIssue l (s.fetches l (amoWord 3 form.aq form.rl form.dbl rs2 rs1 rd)) fun _ s => s.ccScAt l form.rl form.dbl rd rs1 rs2

/-! ### Fences (R70) -/

/-- FENCE waits for the core's stores; FENCE.I has no effect on the control cache, and stores to IMEM are performed already. -/
def State.ccFenceAt (s : State) (l : Nat) (fencei : Bool) (len : Nat := 4) : State :=
  if !fencei && !(s.cc l).stores.isEmpty then s else s.ccRetire l 0 0 len

/-- The word of a FENCE or FENCE.I. -/
def fenceWord (fencei : Bool) (rd rs1 : Nat) (imm : BitVec 12) : W32 := encI imm.toNat rs1 (if fencei then 1 else 0) rd 0x0F

/-- CC_FENCE (R70). -/
def execCcFence (l : CoreId) (form : FenceForm) (s : State) : Res :=
  s.ccIssue l (s.fetches l (fenceWord form.fencei form.rd form.rs1 form.imm)) fun len s => s.ccFenceAt l form.fencei len

/-! ### Debug halt (R385, R387) -/

/-- A control core halts before its next instruction; a stalled one is undone, as for an interrupt (R385). -/
def State.haltCc (s : State) (l : CoreId) (cause : Nat) : State := (s.undoStall l).modCC l fun c => c.inDebug cause (s.gtb (l / 192))

/-- An ebreak: enters debug halt when dcsr.ebreakm is set, else it is a breakpoint exception (R384). -/
def State.ccEbreak (s : State) (l : CoreId) : State :=
  if ((s.cc l).csr csrDcsr).getLsbD 15 then s.haltCc l 1 else s.ccTrap l excBreakpoint (s.cc l).pc

/-! ### Whole instructions (R59) -/

/-- A register field. -/
def xregOf (n : Nat) : XReg := Fin.ofNat 32 n

/-- A jump: the link register takes the next address. -/
def State.ccJump (s : State) (l rd : Nat) (target : W64) (len : Nat) : State :=
  (s.ccRetire l rd ((s.cc l).pc + BitVec.ofNat 64 len) len).modCC l fun c => { c with pc := target }

/-- The instructions of SYSTEM with funct3 0; none for a word that is illegal in machine mode without S mode. -/
def State.ccSystem (s : State) (l : CoreId) (w : W32) (len : Nat) : Option State :=
  if w = 0x00000073 then some (s.ccTrap l excEcallM 0)
  else if w = 0x00100073 then some (s.ccEbreak l)
  else if w = 0x30200073 then some ((s.modCC l fun c => c.countInstr.mret).stepHalt l)
  else if w = 0x10500073 then some (s.ccRetire l 0 0 len)
  else none

/-- Xclq by funct3 (Table 3.3). -/
def State.ccXclq (s : State) (l : CoreId) (w : W32) : Option State :=
  let rd := xregOf (rdOf w)
  let rs1 := xregOf (rs1Of w)
  let rs2 := xregOf (rs2Of w)
  match f3Of w with
  | 0 => some (s.qpush l rd rs1 rs2 (f7Of w))
  | 1 => some (s.qstat l rd rs1 (f7Of w))
  | 2 => some (s.cwait l rd rs1 rs2 (f7Of w))
  | 3 => some (s.csig l rd rs1 rs2 (f7Of w))
  | 4 => some (s.gtbInstr l rd (f7Of w))
  | _ => none

/-- The atomic instructions. -/
def State.ccAtomic (s : State) (l : CoreId) (w : W32) : Option State :=
  let rd := xregOf (rdOf w)
  let rs1 := xregOf (rs1Of w)
  let rs2 := xregOf (rs2Of w)
  let f5 := f7Of w / 4
  let aq := f7Of w / 2 % 2 == 1
  let rl := f7Of w % 2 == 1
  if f3Of w ≠ 2 ∧ f3Of w ≠ 3 then none
  else
    let dbl := f3Of w == 3
    if f5 = 2 then if rs2Of w = 0 then some (s.ccLrAt l rl dbl rd rs1) else none
    else if f5 = 3 then some (s.ccScAt l rl dbl rd rs1 rs2)
    else if (amoValue f5 8 0 0).isSome then some (s.ccAmoAt l f5 aq rl dbl rd rs1 rs2)
    else none

/-- One expanded instruction of `len` bytes; none where it is illegal. -/
def State.ccExecute (s : State) (l : CoreId) (w : W32) (len : Nat) : Option State :=
  let c := s.cc l
  let a := c.xr (rs1Of w)
  let b := c.xr (rs2Of w)
  let f3 := f3Of w
  match computed c w with
  | some v => some (s.ccRetire l (rdOf w) v len)
  | none =>
    match bitsOf w 6 0 with
    | 0x6F => some (s.ccJump l (rdOf w) (c.pc + immJ w) len)
    | 0x67 => if f3 = 0 then some (s.ccJump l (rdOf w) ((a + immI w) &&& ~~~(1 : W64)) len) else none
    | 0x63 => (branchTaken f3 a b).map fun t =>
        if t then (s.ccRetire l 0 0 len).modCC l fun x => { x with pc := c.pc + immB w } else s.ccRetire l 0 0 len
    | 0x03 => if f3 = 7 then none else some (s.ccLoadAt l (xregOf (rdOf w)) (a + immI w) (BitVec.ofNat 3 f3) len)
    | 0x23 => if 4 ≤ f3 then none else some (s.ccStoreAt l (a + immS w) b f3 len)
    | 0x0F => if f3 ≤ 1 then some (s.ccFenceAt l (f3 == 1) len) else none
    | 0x2F => s.ccAtomic l w
    | 0x0B => s.ccXclq l w
    | 0x73 => if f3 = 0 then s.ccSystem l w len else if f3 = 4 then none else s.csrInstr l f3 (bitsOf w 31 20) (rdOf w) (rs1Of w) len
    | _ => none

/-- The number that mtval takes from an illegal word: the bits of the instruction. -/
def illegalBits (w : W32) : W64 := if bitsOf w 1 0 = 3 then w.setWidth 64 else BitVec.ofNat 64 (bitsOf w 15 0)

/-- A fetched word runs: an illegal one is an illegal-instruction exception. -/
def State.ccRun (s : State) (l : CoreId) (w : W32) : State :=
  ((expand w).bind fun x => s.ccExecute l x.1 x.2).getD (s.ccTrap l excIllegal (illegalBits w))

/-- CC_INSTRUCTION (R59): the word that the core fetched. -/
def execCcInstruction (l : CoreId) (w : W32) (s : State) : Res := s.ccIssue l (s.fetchesRaw l w) fun _ s => s.ccRun l w

end Sys2Proof.Machine
end

