-- ==== Sys2Proof/Machine/Debug.lean ====
section
/-!
DEFINITION. The debug module (15.3): halt, resume and step of control cores, triggers, abstract commands, the program buffer and
system bus access.
-/

namespace Sys2Proof.Machine

open Sys2Proof

/-- A core is between two retired instructions: it is not in the middle of a load or of a CSIG (R67, R385). -/
def CC.atBoundary (c : CC) : Bool :=
  match c.stall with
  | some (.load _ _ _ _) => false
  | some (.csig _ _ _ _) => false
  | _ => true

def State.haltReq (s : State) (l : CoreId) : State :=
  if (s.cc l).halted || s.fenced l || !(s.cc l).atBoundary then s else s.haltCc l 3

/-- DEBUG_HALT_REQ (R385). -/
def execDebugHaltReq (l : CoreId) (s : State) : Res := .next (s.haltReq l)

/-- A halted core runs again from its dpc; `step`: for one instruction. -/
def State.resumeCc (s : State) (l : Nat) (step : Bool) : State :=
  s.modCC l fun c => { c.setCsr csrDcsr (putBit (c.csr csrDcsr) 2 step) with halted := false }

/-- DEBUG_RESUME_REQ (R385). -/
def execDebugResumeReq (l : CoreId) (s : State) : Res :=
  if (s.cc l).halted then .next (s.resumeCc l false) else .next s

/-- DEBUG_SINGLE_STEP (R384): a halted core executes one instruction and halts again. -/
def execDebugSingleStep (l : CoreId) (s : State) : Res :=
  if !(s.cc l).halted || s.fenced l then .next s
  else (s.resumeCc l true).ccIssue l (s.fetchesRaw l (s.fetchWord l)) fun _ s => s.ccRun l (s.fetchWord l)

/-- EBREAK (R384), itself or compressed. -/
def execEbreak (l : CoreId) (s : State) : Res := s.ccIssue l (s.fetches l 0x00100073) fun _ s => s.ccEbreak l

/-- TRIGGER_HIT (R384): an mcontrol6 or icount trigger acts: it halts the hart, or raises a breakpoint exception, as its action
field says. A trigger that is not set up hits nothing. -/
def execTriggerHit (l : CoreId) (t : Fin 4) (s : State) : Res :=
  let c := s.cc l
  let d := SMap.get 0 c.csrs (0x10000 * (t.val + 1) + 0x7A1)
  let type := d.toNat / 2 ^ 60
  let action := if type = 6 then d.toNat / 2 ^ 12 % 16 else d.toNat % 64
  if c.halted || s.fenced l || !c.atBoundary || !(type == 6 || type == 3) then .next s
  else if action = 1 then .next (s.haltCc l 2)
  else if action = 0 then .next (((s.undoStall l).ccTrap l excBreakpoint c.pc))
  else .next s

/-! ### Abstract commands (R384, R386) -/

/-- cmderr values of the RISC-V debug specification. -/
def errException : Nat := 3
def errHaltResume : Nat := 4
def errBus : Nat := 5

/-- A CSR that a debugger may write: its number is not one of a read-only CSR. -/
def csrWritable (n : Nat) : Bool := decide (n / 1024 < 3)

/-- Access Register on a halted hart. -/
def State.accessReg (s : State) (l : Nat) (r : HartReg) (wr : Option W64) : State :=
  match r, wr with
  | .x n, none => s.cmdData ((s.cc l).xr n)
  | .x n, some v => (s.modCC l (·.setX n v)).cmdErr 0
  | .csr n, none =>
    if csrExists true n.toNat then
      let s' := if n.toNat = 0xB00 then s.nextFree else s
      s'.cmdData (s.csrValue l n.toNat)
    else s.cmdErr errException
  | .csr n, some v =>
    if csrExists true n.toNat && csrWritable n.toNat then (s.csrPut l n.toNat v).cmdErr 0 else s.cmdErr errException

def State.cmdRegister (s : State) (l : Nat) (r : HartReg) (wr : Option W64) (xclq : Bool) : State :=
  if !(s.cc l).halted then s.cmdErr errHaltResume
  else if xclq then s.cmdErr errException
  else s.accessReg l r wr

/-- ACCESS_REGISTER (R384, R386): an Xclq instruction is refused with cmderr 3. -/
def execAccessRegister (l : CoreId) (r : HartReg) (wr : Option W64) (xclq : Bool) (s : State) : Res :=
  .next (s.cmdRegister l r wr xclq)

/-- An access of a halted hart to the core's address map at once (Table 3.1): refused, waiting, or done with its data. A line of
memory is read or written at its home, whoever holds it. -/
def State.debugMem (s : State) (l : CoreId) (a n : Nat) (wr : Option W64) : CsrAns :=
  if a % n ≠ 0 then .refused
  else
    match s.ccPlace l a n, wr with
    | .fault, _ => .refused
    | .priv off, none => .done (BitVec.ofNat 64 ((s.core l).privLoad off n)) s
    | .priv off, some v => .done 0 (s.modCore l fun c => c.privStore off (leBytes n v.toNat))
    | .csr o, none => s.csrRead (.cc l) o n
    | .csr o, some v => s.csrWrite (.cc l) o n v
    | .counter _, some _ => .refused
    | .counter k, none =>
      match s.ownerElsewhere k with
      | none => .done (s.value k) s
      | some _ => .waits
    | .window k off, none =>
      if s.fenced k then .waits
      else
        let x := s.readTarget (.cc l) (localAddr k off) n
        .done (BitVec.ofNat 64 (ofLe x.1)) x.2
    | .window k off, some v => if s.fenced k then .waits else .done 0 (s.writeTarget (.cc l) (localAddr k off) (leBytes n v.toNat))
    | .cached t, none =>
      if (s.cc l).storeTo t then .waits
      else
        let x := s.readMem (.cc l) t n
        .done (BitVec.ofNat 64 (ofLe x.1)) x.2
    | .cached t, some v =>
      if (s.cc l).storeTo t then .waits else .done 0 (s.writeMem (.cc l) t (leBytes n v.toNat))

/-- A counter load of a halted hart whose counter another module owns: the owner is asked, and VALUE brings the data (R273). -/
def State.debugAsk (s : State) (l : CoreId) (a n : Nat) (wr : Option W64) : Option State :=
  match s.ccPlace l a n, wr with
  | .counter k, none => (s.ownerElsewhere k).map fun m => s.askValue l k m
  | _, _ => none

def State.cmdMemory (s : State) (l : CoreId) (a n : Nat) (wr : Option W64) : State :=
  if !(s.cc l).halted then s.cmdErr errHaltResume
  else
    match s.debugMem l a n wr with
    | .refused => s.cmdErr errBus
    | .waits => (s.debugAsk l a n wr).getD s
    | .done v s' => if wr.isNone then s'.cmdData v else s'.cmdErr 0

/-- ACCESS_MEMORY (R384, R386): counter space is for loads only. -/
def execAccessMemory (l : CoreId) (addr : W64) (f3 : BitVec 3) (wr : Option W64) (s : State) : Res :=
  .next (s.cmdMemory l addr.toNat (2 ^ (f3.toNat % 4)) wr)

/-! ### The program buffer (R384, R386) -/

/-- What one instruction of the program buffer does: it goes on in a state, stops at an ebreak, raises an exception, or waits. -/
inductive BufStep where
  | goOn (s : State)
  | stop
  | exception
  | waits

/-- A step that may change registers and memory but neither the pc nor the count of instructions. -/
def State.keepPc (s : State) (l : Nat) (s' : State) : State :=
  s'.modCC l fun c => { c with pc := (s.cc l).pc, csrs := (s.cc l).csrs, halted := true, haltAt := (s.cc l).haltAt }

/-- An atomic of the program buffer, where it would not trap. -/
def State.bufAtomic (s : State) (l : CoreId) (w : W32) : BufStep :=
  let n := if f3Of w = 3 then 8 else 4
  let a := ((s.cc l).xr (rs1Of w)).toNat
  match s.ccAtomic l w with
  | none => .exception
  | some s' =>
    if a % n ≠ 0 then .exception
    else
      match s.ccPlace l a n with
      | .cached t =>
        if (s.cc l).storeTo t || (w.getLsbD 25 && !(s.cc l).stores.isEmpty) then .waits else .goOn (s.keepPc l s')
      | _ => .exception

/-- One instruction of the program buffer; an Xclq instruction, and one that names the pc, is an exception. -/
def State.bufStep (s : State) (l : CoreId) (w : W32) : BufStep :=
  let c := s.cc l
  let f3 := f3Of w
  let a := c.xr (rs1Of w)
  let ans (x : CsrAns) (k : W64 → State → State) : BufStep :=
    match x with
    | .refused => .exception
    | .waits => .waits
    | .done v s' => .goOn (k v s')
  match bitsOf w 6 0 with
  | 0x17 => .exception
  | 0x03 =>
    if f3 = 7 then .exception
    else
      let n := 2 ^ (f3 % 4)
      ans (s.debugMem l (a + immI w).toNat n none) fun v s' => s'.modCC l (·.setX (rdOf w) (loadValue f3 (leBytes n v.toNat)))
  | 0x23 =>
    if 4 ≤ f3 then .exception
    else ans (s.debugMem l (a + immS w).toNat (2 ^ f3) (some (c.xr (rs2Of w)))) fun _ s' => s'
  | 0x0F => if f3 ≤ 1 then .goOn s else .exception
  | 0x2F => s.bufAtomic l w
  | 0x73 =>
    let n := bitsOf w 31 20
    if w = 0x00100073 then .stop
    else if f3 = 0 ∨ f3 = 4 ∨ !csrExists true n ∨ (csrWrites f3 (rs1Of w) && !csrWritable n) then .exception
    else
      let v : W64 := if f3 < 4 then a else BitVec.ofNat 64 (rs1Of w)
      let old := s.csrValue l n
      let s := if n = 0xB00 then s.nextFree else s
      let s := if csrWrites f3 (rs1Of w) then s.csrPut l n (csrNew f3 old v) else s
      .goOn (s.modCC l (·.setX (rdOf w) old))
  | _ =>
    match computed c w with
    | some v => .goOn (s.modCC l (·.setX (rdOf w) v))
    | none => .exception

/-- The program buffer from a half-word on; its end is an ebreak. -/
def State.runBuf (l : CoreId) : Nat → List Nat → State → State
  | 0, _, s => s.cmdErr 0
  | _, [], s => s.cmdErr 0
  | fuel + 1, h :: rest, s =>
    match expand (BitVec.ofNat 32 (h + rest.headD 0 * 2 ^ 16)) with
    | none => s.cmdErr errException
    | some (w, len) =>
      match s.bufStep l w with
      | .stop => s.cmdErr 0
      | .exception => s.cmdErr errException
      | .waits => s.cmdErr errBus
      | .goOn s' => State.runBuf l fuel (if len = 4 then rest.drop 1 else rest) s'

/-- The half-words of the eight-word program buffer. -/
def State.bufHalves (s : State) : List Nat :=
  (List.range 8).flatMap fun i => [bitsOf (s.dmGet (0x20 + i)) 15 0, bitsOf (s.dmGet (0x20 + i)) 31 16]

def State.cmdBuffer (s : State) (l : CoreId) : State :=
  if !(s.cc l).halted then s.cmdErr errHaltResume else State.runBuf l 16 s.bufHalves s

/-- PROGBUF_EXEC (R384, R386). -/
def execProgbufExec (l : CoreId) (s : State) : Res := .next (s.cmdBuffer l)

/-! ### System bus access (R384) -/

/-- A system bus access of 64 bits at a local physical address (Table 9.1). -/
def State.sysbus (s : State) (addr : Nat) (wr : Option W64) : CsrAns :=
  if addr % 8 ≠ 0 then .refused
  else
    match csrOffset addr, wr with
    | some o, none => s.csrRead .debug o 8
    | some o, some v => s.csrWrite .debug o 8 v
    | none, _ =>
      if !((windowOf addr).isSome || s.inRow addr 8) || !s.targetHere addr 8 then .refused
      else if s.targetStalls addr 8 then .waits
      else
        match wr with
        | none =>
          let x := s.readTarget .stoker addr 8
          .done (BitVec.ofNat 64 (ofLe x.1)) x.2
        | some v => .done 0 (s.writeTarget .stoker addr (leBytes 8 v.toNat))

/-- SYSBUS_ACCESS (R384). -/
def execSysbusAccess (addr : Nat) (wr : Option W64) (s : State) : Res :=
  match s.sysbus addr wr with
  | .done v s' => if wr.isNone then .next (s'.emit (.debug v)) else .next s'
  | _ => .next s

end Sys2Proof.Machine
end

