-- ==== Sys2Proof/Machine/DebugWindow.lean ====
section
/-!
DEFINITION. The debug-module window of PF0 (R384): DMI registers of the RISC-V debug specification 1.0 at module offset
+0x0001_2000 + 4a, for the features of Table 15.5 (log entry 17).
-/

namespace Sys2Proof.Machine

open Sys2Proof

/-- Offsets of the window. -/
def inDebugWindow (o : Nat) : Bool := decide (0x12000 ≤ o) && decide (o < 0x14000)

/-- dmactive: while it is clear, every other register of the module keeps its reset value. -/
def State.dmActive (s : State) : Bool := (s.dmGet 0x10).getLsbD 0

/-- hartsel of dmcontrol. -/
def State.dmHart (s : State) : Nat := bitsOf (s.dmGet 0x10) 25 16 + bitsOf (s.dmGet 0x10) 15 6 * 2 ^ 10

/-- The harts that a halt or resume request is for: hartsel's, and those of the hart array mask while hasel is set. -/
def State.dmHarts (s : State) : List CoreId :=
  ((List.range 768).filter fun l => l == s.dmHart ||
    ((s.dmGet 0x10).getLsbD 26 && (s.dmGet (0x100 + l / 32)).getLsbD (l % 32))).map fun l => Fin.ofNat 768 l

/-- A write of dmcontrol: haltreq, or else resumereq, acts on the selected harts. -/
def State.dmControl (s : State) (v : W32) : State :=
  if !v.getLsbD 0 then { s with dm := [] }
  else
    let s := s.dmSet 0x10 (v &&& 0x07FFFFC1)
    if v.getLsbD 31 then s.dmHarts.foldl State.haltReq s
    else if v.getLsbD 30 then
      s.dmHarts.foldl (fun s (l : CoreId) => if (s.cc l).halted then s.modCC l fun c => { c with halted := false } else s) s
    else s

/-- dmstatus: version 3, authenticated, an implicit ebreak, and whether the selected harts are halted, run, or do not exist. -/
def State.dmStatus (s : State) : W32 :=
  let hs := s.dmHarts
  let b (x : Bool) (i : Nat) : Nat := if x then 2 ^ i else 0
  let halted (l : CoreId) : Bool := (s.cc l).halted
  let missing := decide (768 ≤ s.dmHart)
  BitVec.ofNat 32 (3 + 2 ^ 7 + 2 ^ 22 + b (hs.any halted) 8 + b (!hs.isEmpty && hs.all halted) 9 + b (hs.any fun l => !halted l) 10 +
    b (!hs.isEmpty && hs.all fun l => !halted l) 11 + b missing 14 + b missing 15 + b (hs.any fun l => !halted l) 16 +
    b (!hs.isEmpty && hs.all fun l => !halted l) 17)

/-- A 64-bit argument in two data registers. -/
def State.dmArg (s : State) (a : Nat) : W64 := BitVec.ofNat 64 ((s.dmGet (a + 1)).toNat * 2 ^ 32 + (s.dmGet a).toNat)

/-- A write of command: an abstract command on the selected hart, unless cmderr is set. -/
def State.dmCommand (s : State) (v : W32) : State :=
  let size := bitsOf v 22 20
  if s.dmGet 0x16 ≠ 0 then s
  else if 768 ≤ s.dmHart then s.cmdErr errHaltResume
  else
    let l : CoreId := Fin.ofNat 768 s.dmHart
    let wr : Option W64 := if v.getLsbD 16 then some (s.dmArg 4) else none
    match bitsOf v 31 24 with
    | 0 =>
      let n := bitsOf v 15 0
      let moved :=
        if !v.getLsbD 17 then s
        else if size ≠ 3 ∧ size ≠ 2 then s.cmdErr 2
        else if n < 0x1000 then s.cmdRegister l (.csr (BitVec.ofNat 12 n)) wr false
        else if n < 0x1020 then s.cmdRegister l (.x (Fin.ofNat 32 n)) wr false
        else s.cmdErr 2
      if v.getLsbD 18 && decide (moved.dmGet 0x16 = 0) then moved.cmdBuffer l else moved
    | 2 =>
      if 3 < size then s.cmdErr 2
      else
        let a := (s.dmArg 6).toNat
        let s := s.cmdMemory l a (2 ^ size) wr
        if v.getLsbD 19 then
          let x : W64 := BitVec.ofNat 64 (a + 2 ^ size)
          (s.dmSet 6 (x.setWidth 32)).dmSet 7 ((x >>> 32).setWidth 32)
        else s
    | _ => s.cmdErr 2

/-- A system bus access that sbcs asks for, with its address register. -/
def State.dmBus (s : State) (wr : Option W64) : State :=
  let a := (s.dmArg 0x39).toNat
  match s.sysbus a wr with
  | .done v s' =>
    let s' := if wr.isNone then (s'.dmSet 0x3C (v.setWidth 32)).dmSet 0x3D ((v >>> 32).setWidth 32) else s'
    if (s.dmGet 0x38).getLsbD 16 then
      let x : W64 := BitVec.ofNat 64 (a + 8)
      (s'.dmSet 0x39 (x.setWidth 32)).dmSet 0x3A ((x >>> 32).setWidth 32)
    else s'
  | _ => s.dmSet 0x38 (putBits (s.dmGet 0x38) 14 12 2)

/-- A write of the DMI register at address `a`. -/
def State.dmWrite (s : State) (a : Nat) (v : W32) : State :=
  if a = 0x10 then s.dmControl v
  else if !s.dmActive then s
  else if (4 ≤ a ∧ a < 8) ∨ (0x20 ≤ a ∧ a < 0x28) ∨ a = 0x3A ∨ a = 0x3D then s.dmSet a v
  else if a = 0x14 then s.dmSet a (v &&& 0x7FFF)
  else if a = 0x15 then
    if (s.dmGet 0x14).toNat < 24 then s.dmSet (0x100 + (s.dmGet 0x14).toNat) v else s
  else if a = 0x16 then s.dmSet a (s.dmGet a &&& ~~~(v &&& 0x700))
  else if a = 0x17 then s.dmCommand v
  else if a = 0x38 then s.dmSet a ((v &&& 0x1F8000) ||| (s.dmGet a &&& 0x7000 &&& ~~~v))
  else if a = 0x39 then
    let s := s.dmSet a v
    if (s.dmGet 0x38).getLsbD 20 then s.dmBus none else s
  else if a = 0x3C then (s.dmSet a v).dmBus (some ((s.dmSet a v).dmArg 0x3C))
  else s

/-- A read of the DMI register at address `a`. -/
def State.dmRead (s : State) (a : Nat) : W32 × State :=
  if a = 0x11 then (s.dmStatus, s)
  else if a = 0x15 then (s.dmGet (0x100 + (s.dmGet 0x14).toNat), s)
  else if a = 0x16 then (s.dmGet a ||| 0x08000004, s)
  else if a = 0x17 then (0, s)
  else if a = 0x38 then (s.dmGet a ||| 0x20000808, s)
  else if a = 0x3C then (s.dmGet a, if (s.dmGet 0x38).getLsbD 15 then s.dmBus none else s)
  else if a < 0x40 then (s.dmGet a, s)
  else (0, s)

/-- A read of `n` bytes in the window. -/
def State.dmiRead (s : State) (o n : Nat) : CsrAns :=
  let one (o : Nat) (s : State) : CsrAns :=
    let x := s.dmRead ((o - 0x12000) / 4)
    .done (x.1.setWidth 64) x.2
  if n = 4 ∧ o % 4 = 0 then one o s
  else if n = 8 ∧ o % 8 = 0 then (one o s).andThen fun s => one (o + 4) s
  else .refused

/-- A write of `n` bytes in the window. -/
def State.dmiWrite (s : State) (o n : Nat) (v : W64) : CsrAns :=
  let at_ (o : Nat) : Nat := (o - 0x12000) / 4
  if n = 4 ∧ o % 4 = 0 then .done 0 (s.dmWrite (at_ o) (v.setWidth 32))
  else if n = 8 ∧ o % 8 = 0 then .done 0 ((s.dmWrite (at_ o) (v.setWidth 32)).dmWrite (at_ (o + 4)) ((v >>> 32).setWidth 32))
  else .refused

end Sys2Proof.Machine
end

