-- ==== Sys2Proof/Machine/HostCmds.lean ====
section
/-!
DEFINITION. Host reads and writes through the BARs (R313, R314, Tables 12.10, 12.11).
-/

namespace Sys2Proof.Machine

open Sys2Proof

/-! ### The window of a virtual function (Table 12.11) -/

/-- What lies at an offset of a virtual function's BAR0. -/
inductive VfAt where
  | reg (r : RegRef)
  | msix (vec word : Nat)
  | pending (word : Nat)
  | hole
deriving DecidableEq, Repr

/-- A register at an offset of the CSR space that the window shows. -/
def vfReg (o : Nat) : VfAt :=
  match regAt o with
  | some r => .reg r
  | none => .hole

/-- Table 12.11: the offset of partition `p`'s window. -/
def State.vfAt (s : State) (p o : Nat) : VfAt :=
  if o < 0x40 then vfReg (0x20000 + 0x40 * p + o)
  else if 0x1000 ≤ o ∧ o < 0x1040 then vfReg (0x40000 + 0x40 * p + (o - 0x1000))
  else if 0x2000 ≤ o ∧ o < 0x2008 then vfReg (0x30000 + 8 * p + (o - 0x2000))
  else if 0x3000 ≤ o ∧ o < 0x3080 then vfReg (0x50000 + (o - 0x3000))
  else if 0x4000 ≤ o ∧ o < 0x4400 then vfReg (0x90000 + 0x400 * p + (o - 0x4000))
  else if 0x8000 ≤ o ∧ o < 0x8000 + 0x100 * 64 then
    match s.partCfg p with
    | none => .hole
    | some c =>
      let n := (o - 0x8000) / 0x100
      if n < c.barCount then vfReg (0x51000 + 0x100 * (c.barBase + n) + o % 0x100) else .hole
  else if 0x20000 ≤ o ∧ o < 0x20000 + 16 * 120 then .msix ((o - 0x20000) / 16) (o % 16 / 4)
  else if 0x21000 ≤ o ∧ o < 0x21010 then .pending ((o - 0x21000) / 4)
  else if 0x22000 ≤ o ∧ o < 0x22000 + 16 * 112 then
    let vec := 8 + (o - 0x22000) / 16
    match o % 16 with
    | 0 => .reg { name := .TRIG_CFG, i := p + 1, j := vec }
    | 8 => .reg { name := .TRIG_LO, i := p + 1, j := vec }
    | 12 => .reg { name := .TRIG_HI, i := p + 1, j := vec }
    | _ => .hole
  else .hole

def State.vfRead32 (s : State) (p : PartId) (o : Nat) : CsrAns :=
  match s.vfAt p o with
  | .reg r => s.readAt (.vf p) r .plain
  | .msix v w => .done ((SMap.get 0 s.msixTable (msixKey (p + 1) v w)).setWidth 64) s
  | .pending w => .done ((s.msixPending (p + 1) w).setWidth 64) s
  | .hole => .done 0 s

def State.vfWrite32 (s : State) (p : PartId) (o : Nat) (v : W32) : CsrAns :=
  match s.vfAt p o with
  | .reg r => .done 0 (s.writeReg (.vf p) r .plain v)
  | .msix k w => .done 0 (s.msixWrite (p + 1) k w v)
  | _ => .done 0 s

/-- A read of `n` bytes of the window, in the sizes of R375. -/
def State.vfRead (s : State) (p : PartId) (o n : Nat) : CsrAns :=
  if 0x40000 ≤ o then .refused
  else if n = 4 ∧ o % 4 = 0 then s.vfRead32 p o
  else if n = 8 ∧ o % 8 = 0 then (s.vfRead32 p o).andThen fun s => s.vfRead32 p (o + 4)
  else .refused

def State.vfWrite (s : State) (p : PartId) (o n : Nat) (v : W64) : CsrAns :=
  if 0x40000 ≤ o then .refused
  else if n = 4 ∧ o % 4 = 0 then s.vfWrite32 p o (v.setWidth 32)
  else if n = 8 ∧ o % 8 = 0 then
    (s.vfWrite32 p o (v.setWidth 32)).andThen fun s => s.vfWrite32 p (o + 4) ((v >>> 32).setWidth 32)
  else .refused

/-! ### The BARs -/

/-- The largest payload of a write and the largest read of the host link (Table 12.9). -/
def maxPayload : Nat := 512
def maxRead : Nat := 4096

/-- A target of this module that exists, or memory of another module. -/
def State.hostTarget (s : State) (x : Nat × Nat) : Option (Nat × Nat) :=
  let t := s.localise x.1
  if (s.remoteOf t).isSome || s.isMemoryRange t x.2 then some (t, x.2) else none

/-- The targets of a BAR2 access: local physical addresses of the rows that the host may reach, or the partition's addresses
through stage 2 or its direct apertures (R314, R240). -/
def State.hostPieces (s : State) (f : HostFn) (a n : Nat) : Option (List (Nat × Nat)) :=
  match f with
  | .pf0 => if ((windowOf a).isSome || s.inRow a n) && s.targetHere a n then some [(a, n)] else none
  | .vf p =>
    if (windowOf a).isSome then if s.ownsWindow p a n && s.targetHere a n then some [(a, n)] else none
    else if s.ownsScratch p a n then some [(a, n)]
    else
      let m := s.s2Table p
      (rangePieces m (m.length + 1) a n).bind fun l => l.mapM s.hostTarget

/-- The registers that a read of `n` bytes at an offset names. -/
def regsAt (o n : Nat) : List RegRef := (List.range (n / 4)).filterMap fun k => regAt (o + 4 * k)

/-- The offset in the CSR space that an offset of a virtual function's view registers shows (Table 12.11). -/
def viewOffset (b : Bar) (f : HostFn) (a : Nat) : Nat :=
  match f, b with
  | .vf _, _ => 0x50000 + (a - 0x3000)
  | .pf0, .bar0 => a
  | .pf0, .bar2 => a - csrBase

/-- A register access of the host: refused as R375 says, or with its answer; a read of a view whose snapshot is on its way waits for
it (R289). -/
def State.hostAnswer (s : State) (f : HostFn) (b : Bar) (a n : Nat) (read : Bool) (x : CsrAns) : State :=
  match x with
  | .refused => s.hostRefuse f read a
  | .waits => s.hostIssue { fn := f, targets := [], view := regsAt (viewOffset b f a) n }
  | .done v s' => if read then s'.toHost (.data f.number (leBytes n v.toNat)) else s'

/-- A register access that the BAR and address name; none for an access of memory. -/
def State.hostCsr (s : State) (f : HostFn) (b : Bar) (a n : Nat) (wr : Option W64) : Option CsrAns :=
  let pf (o : Nat) : CsrAns :=
    if inDebugWindow o then
      match wr with
      | none => s.dmiRead o n
      | some v => s.dmiWrite o n v
    else
      match wr with
      | none => s.csrRead .pf0 o n
      | some v => s.csrWrite .pf0 o n v
  match f, b with
  | .pf0, .bar0 => some (pf a)
  | .pf0, .bar2 => (csrOffset a).map pf
  | .vf p, .bar0 => some (match wr with
    | none => s.vfRead p a n
    | some v => s.vfWrite p a n v)
  | .vf _, .bar2 => none

/-- The access reaches no register or memory: its function is absent, or it is longer than the link carries (R313, R312). -/
def State.hostBad (s : State) (f : HostFn) (n most : Nat) : Bool := !s.present f || decide (most < n)

/-- HOST_READ (R312, R314, R375): taken while the link is up. -/
def execHostRead (f : HostFn) (b : Bar) (addr : Nat) (len : Nat) (s : State) : Res :=
  if s.hostPort.isNone then .next s
  else if s.hostBad f len maxRead then .next (s.hostRefuse f true addr)
  else
    match s.hostCsr f b addr len none with
    | some x => .next (s.hostAnswer f b addr len true x)
    | none =>
      match s.hostPieces f addr len with
      | none => .next (s.hostRefuse f true addr)
      | some ps => .next (s.hostIssue { fn := f, targets := ps })

/-- HOST_WRITE (R312, R314, R375): taken while the link is up. -/
def execHostWrite (f : HostFn) (b : Bar) (addr : Nat) (data : List Byte) (s : State) : Res :=
  if s.hostPort.isNone then .next s
  else if s.hostBad f data.length maxPayload then .next (s.hostRefuse f false addr)
  else
    match s.hostCsr f b addr data.length (some (BitVec.ofNat 64 (ofLe data))) with
    | some x => .next (s.hostAnswer f b addr data.length false x)
    | none =>
      match s.hostPieces f addr data.length with
      | none => .next (s.hostRefuse f false addr)
      | some ps => .next (s.hostIssue { fn := f, targets := ps, data := some data })

end Sys2Proof.Machine
end

