-- ==== Sys2Proof/Machine/ImageLoad.lean ====
section
/-!
DEFINITION. Loading a Gebry image (3.7): the verifier's checks by the reason codes of Table 3.10, and what an accepted image leaves
in the partition.
-/

namespace Sys2Proof.Machine

open Sys2Proof

/-! ### Control programs (R59, R62) -/

/-- Every instruction of a program, read as half-words, is one that the control core has (R59), an Xclq word of Table 3.5 among them. -/
def State.programOk (s : State) : Nat → List Nat → Bool
  | 0, _ => true
  | _, [] => true
  | fuel + 1, h :: rest =>
    match expand (BitVec.ofNat 32 (h + rest.headD 0 * 2 ^ 16)) with
    | none => false
    | some (w, len) =>
      (s.ccExecute 0 w len).isSome && xclqLegal w && State.programOk s fuel (if len = 4 then rest.drop 1 else rest)

def halvesOf (ws : List W32) : List Nat := ws.flatMap fun w => [bitsOf w 15 0, bitsOf w 31 16]

/-! ### Kernels (R135) -/

/-- An instruction that nothing guards: every active lane runs it. -/
def alwaysRuns (w : TWord) : Bool := w.guard == 7 && !w.gneg

/-- The targets that a BRA or a SPLIT names. -/
def codeTargets (op : Nat) (w : TWord) : List Nat :=
  if op = 0x100 then [bitsOf w.lit 31 0] else if op = 0x101 then [bitsOf w.lit 31 0, bitsOf w.lit 63 32] else []

/-- A place that control reaches in a kernel: the offset of an instruction and the number of SPLITs open there (R112). -/
abbrev CodeAt := Nat × Nat

/-- Where control goes from an instruction with `d` SPLITs open: a guard that is false passes it, a JOIN closes the innermost SPLIT,
an EXIT ends its threads. -/
def codeNext (op : Nat) (w : TWord) (next d : Nat) : List CodeAt :=
  let on : List CodeAt := if alwaysRuns w then [] else [(next, d)]
  if op = 0x100 then (bitsOf w.lit 31 0, d) :: on
  else if op = 0x101 then (next, d + 1) :: (bitsOf w.lit 31 0, d + 1) :: on
  else if op = 0x102 then (next, d - 1) :: on
  else if op = 0x103 then on
  else [(next, d)]

/-- Every place that control reaches from `todo` is an instruction of the kernel, opens no more than `most` SPLITs and is no BSYNC
within one; `seen` are the places looked at. `fuel` bounds the walk. -/
def codeWalk (is : List (Nat × BitVec 10 × TWord)) (most : Nat) : Nat → List CodeAt → List CodeAt → Bool
  | _, _, [] => true
  | 0, _, _ :: _ => false
  | fuel + 1, seen, c :: todo =>
    if seen.contains c then codeWalk is most fuel seen todo
    else
      match is.find? fun i => i.1 == c.1 with
      | none => false
      | some i =>
        let op := i.2.1.toNat
        decide (c.2 ≤ most) && !(op == 0x104 && decide (0 < c.2)) &&
          codeWalk is most fuel (c :: seen) (codeNext op i.2.2 (c.1 + if i.2.2.bcls = 3 then 16 else 8) c.2 ++ todo)

/-- A kernel that no clause of R135 rejects, and whose SPLITs nest no deeper than it declares (R114): control goes from its first
word through instructions alone and ends at EXIT. -/
def kernelOk (k : Kernel) : Bool :=
  match parseKernel 0 k.words with
  | none => false
  | some is =>
    (is.all fun i => wordOk i.2.1.toNat k.regs (8 * k.words.length) i.2.2 &&
      (codeTargets i.2.1.toNat i.2.2).all fun t => is.any fun j => j.1 == t) &&
    codeWalk is k.depth (3 * is.length * (k.depth + 2) + 3) [] [(0, 0)]

/-! ### Tables and resources -/

/-- The arena and span tables are well formed (R91). -/
def imageTablesOk (img : Image) : Bool :=
  decide (img.arenas.length ≤ 64) && (img.arenas.all fun a => decide (a.len % 64 = 0)) && decide (img.spanBase % 64 = 0)

/-- A range of the partition that the loader can write: the pinned map and the module's memory hold it. -/
def State.loadable (s : State) (p a n : Nat) : Bool :=
  match s.pinnedLocal p a n with
  | some ps => ps.all fun x => s.isMemoryRange x.1 x.2
  | none => false

/-- The partition has what the image needs (reason 0x0109), declared pinned ranges among it (R248). -/
def State.resourcesOk (s : State) (p : Nat) (c : PartCfg) (img : Image) : Bool :=
  decide (img.needClusters ≤ (s.clustersOf p).length) && decide (img.needModCounters ≤ c.modCount) &&
  decide (img.needRgnCounters ≤ c.rgnCount) && decide (img.needSysCounters ≤ c.sysCount) &&
  decide (img.needBarriers ≤ c.barCount) &&
  (img.programs.all fun x => decide (s.partOf x.core = some p) && decide (4 * x.words.length ≤ imemBytes)) &&
  (img.rings.all fun r => r.clusters.all fun k => (s.clustersOf p).contains k.val) &&
  (img.pinnedRanges.all fun r => (s.mappedPieces p r.1 r.2).isSome) &&
  s.loadable p img.spanBase (2048 + 32 * img.spans.length) && img.kernels.all fun k => s.loadable p k.addr (8 * k.words.length)

/-- The bytes of the arena declarations (R91). -/
def arenaBytes (as : List Arena) : List Byte :=
  as.flatMap fun a => leBytes 8 a.base ++ leBytes 8 a.len ++ leBytes 1 (if a.virt then 1 else 0) ++ leBytes 1 a.ctx ++ leBytes 14 0

/-- The bytes of a span's entry (R91). -/
def spanBytes (m : W64 × W64) : List Byte := leBytes 8 m.1.toNat ++ leBytes 8 m.2.toNat ++ leBytes 16 0

/-- The content hash of a span, its templates and its arena declarations (R95, log entry 44). -/
def spanKey (img : Image) (m : W64 × W64) : BitVec 384 := sha384 (spanBytes m ++ img.templates ++ arenaBytes img.arenas)

/-- Every span's certificate holds, or the verification cache has its proof (R95). -/
def State.proofsHold (s : State) (img : Image) : Bool :=
  img.spans.zipIdx.all fun x => img.certs.getD x.2 false || s.sto.proofs.contains (spanKey img x.1)

/-- The reason for which an image is rejected, 0 for none: the lowest of Table 3.10 that applies. -/
def State.loadReason (s : State) (p : Nat) (c : PartCfg) (img : Image) : Nat :=
  if !img.digestOk then 0x0101
  else if img.claoc2 then
    if !(img.programs.all fun x => s.programOk (2 * x.words.length) (halvesOf x.words)) then 0x0103
    else if !img.noImemStore then 0x0104
    else if !img.templatesOk then 0x0105
    else if !img.fixedFieldsOk then 0x0106
    else if !s.proofsHold img then 0x0107
    else if !imageTablesOk img then 0x0108
    else if !s.resourcesOk p c img then 0x0109
    else if !img.kernels.all kernelOk then 0x010A
    else if !s.partQuiesced p then 0x010B
    else 0
  else 0x0102

/-! ### The load -/

/-- The bytes of the arena and span tables (R91). -/
def imageTableBytes (img : Image) : List Byte :=
  let head := arenaBytes img.arenas
  head ++ leBytes (2048 - head.length) 0 ++ img.spans.flatMap spanBytes

/-- A control program in a core's IMEM (R62). -/
def State.putProgram (s : State) (x : CcProgram) : State :=
  s.modCore x.core fun c => c.privStore 0 (x.words.flatMap fun w => leBytes 4 w.toNat)

/-- The registers of one core that the Stoker writes at image load: the tables' place and size (R91), and the flags, which read 0
again (R178). -/
def State.loadCore (s : State) (img : Image) (l : Nat) : State :=
  let k := s.physOf l
  let s := (s.setPair .CORE_SPAN_BASE_LO .CORE_SPAN_BASE_HI k 0 img.spanBase).copyArenas k
  (s.spanCountWrite k (BitVec.ofNat 32 img.spans.length)).setReg .CORE_FP_FLAGS k 0 0

/-- A cluster's distributor: the rings declared for it (Table 4.9f). -/
def State.loadRings (s : State) (img : Image) (c : Nat) : State :=
  let mine := img.rings.filter fun r => r.clusters.isEmpty || r.clusters.any fun k => k.val == c
  let s := s.setField .CLU_DIST_CFG c 0 3 0 (mine.foldl (fun m r => m ||| 2 ^ r.ring.val) 0)
  mine.foldl (fun s r => s.setPair .CLU_DIST_RING_LO .CLU_DIST_RING_HI c r.ring (r.base / 128 * 128)) s

/-- An address lies in a scratchpad group of the partition. -/
def State.inScratchOf (s : State) (p a : Nat) : Bool := decide (scratchBase ≤ a) && decide (a < scratchEnd) && s.ownsScratch p a 1

/-- The lines that a control cache and its eviction buffer hold of a partition's scratchpad groups are gone. -/
def Core.dropLines (c : Core) (gone : Nat → Bool) : Core :=
  { c with cache := c.cache.filter fun e => !gone (e.line * 256), evict := c.evict.filter fun e => !gone (e.line * 256) }

/-- Scratchpad groups of a partition are zeroed, in whatever place their bytes stand (R224). -/
def State.zeroScratch (s : State) (p : Nat) : State :=
  let gone := s.inScratchOf p
  let s := (List.range 768).foldl (fun s l => s.modCore l fun c => c.dropLines gone) (s.eraseMem gone)
  { s with inFlight := s.inFlight.filter fun e => !gone (e.1 * 256), presence := s.presence.filter fun e => !gone (e.1 * 256) }

/-- A lost core is placed on its cluster's spare, when it has a working one again (R344). -/
def State.reviveCore (s : State) (l : Nat) : State :=
  let c := l / 8
  if (s.core l).lost && s.hasSpare c then
    let s := s.setField .CLU_CORE_MAP c 0 (4 * (l % 8) + 3) (4 * (l % 8)) (s.field .CLU_SPARE c 0 3 0)
    (s.setSpare c 15).modCore l fun x => { x with lost := false }
  else s

/-- The number of proofs that the verification cache holds (R95). -/
def proofDepth : Nat := 262144

/-- A proof used or accepted is the newest of the cache. -/
def Stoker.keepProof (x : Stoker) (d : BitVec 384) : Stoker :=
  let ps := x.proofs.filter (· != d) ++ [d]
  { x with proofs := ps.drop (ps.length - proofDepth) }

/-- An accepted image in its partition. -/
def State.loadImage (s : State) (p : Nat) (img : Image) : State :=
  let s := (s.coresOf p).foldl State.reviveCore s
  let s := s.zeroScratch p
  let s := img.programs.foldl State.putProgram s
  let s := s.partWrite .stoker p img.spanBase (imageTableBytes img)
  let s := img.kernels.foldl (fun s k => s.partWrite .stoker p k.addr (k.words.flatMap fun w => leBytes 8 w.toNat)) s
  let s := (s.coresOf p).foldl (fun s l => s.loadCore img l) s
  let s := (s.clustersOf p).foldl (fun s c => s.loadRings img c) s
  let s := s.modPart p fun x => { x with image := some img.digest, declared := img.pinnedRanges }
  let sto := img.spans.foldl (fun x m => x.keepProof (spanKey img m)) s.sto
  let s := { s with sto := { sto with loadReason := 0 } }
  s.lossWrite p (putBits (s.reg .MOD_LOSS_CFG p) 31 30 1)

/-- IMAGE_LOAD (R27, R89): a rejected image changes nothing but the load's completion record and the ash log. -/
def execImageLoad (p : PartId) (img : Image) (s : State) : Res :=
  match s.partCfg p with
  | none => .next s
  | some c =>
    let why := s.loadReason p c img
    if why = 0 then .next (s.loadImage p img)
    else
      let s := { s with sto := { s.sto with loadReason := BitVec.ofNat 16 why } }
      .next (s.ashNow s.srcStoker 0x0E 0 p 0 0xFFFF 0 0 0 why)

end Sys2Proof.Machine
end

