-- ==== Sys2Proof/Machine/Observe.lean ====
section
/-!
DEFINITION. Observation (15.6, 15.7): counter exports and the budget.
-/

namespace Sys2Proof.Machine

open Sys2Proof

/-! ### Exports (R400, R401) -/

/-- Every counter of Table 15.12 in the order of an export. -/
def exportOrder : List (RegName × Nat × Nat) :=
  let block (n : RegName) (units each : Nat) : List (RegName × Nat × Nat) :=
    (List.range units).flatMap fun i => (List.range each).map fun j => (n, i, j)
  block .CORE_CNT_LO 864 10 ++ block .DIE_CNT_LO 4 6 ++ block .STK_CNT_LO 12 5 ++ block .RNG_CNT_LO 16 3 ++ block .FLP_CNT_LO 36 4

/-- The bytes of an export. -/
def exportBytes : Nat := 71392

/-- A sample of every counter: its 64-byte header and the values (R400). -/
def State.sampleBytes (s : State) : List Byte :=
  leBytes 8 s.gtb.toNat ++ leBytes 4 (s.obsExports + 1) ++ leBytes 52 0 ++
    exportOrder.flatMap fun c => leBytes 8 (s.count c.1 c.2.1 c.2.2)

/-- BUDGET percent of the near-memory rate for one microsecond, in bytes (R401). -/
def State.obsRefill (s : State) : Nat := s.field .MOD_OBS_CFG 0 0 20 16 * 393000

/-- An export is written to its buffer and taken from the budget. -/
def State.writeExport (s : State) (a : Nat) (bs : List Byte) : State :=
  let s := { s with obsBudget := s.obsBudget - exportBytes, obsExports := s.obsExports + 1, obsWaiting := none }
  let s := s.bumpField .MOD_OBS_STATUS 0 0 15 0 1
  if s.isMemoryRange a bs.length then s.writeMem .stoker a bs else s

/-- COUNTER_EXPORT (R400, R401): a sample is written at once or waits for the budget; a sample that comes while one waits is not
taken. -/
def execCounterExport (s : State) : Res :=
  let a := s.pair .MOD_OBS_EXP_LO .MOD_OBS_EXP_HI
  if s.field .MOD_OBS_CFG 0 0 15 0 = 0 || a = 0 || s.obsRefill = 0 || s.obsWaiting.isSome then .next s
  else if exportBytes ≤ s.obsBudget then .next (s.writeExport a s.sampleBytes)
  else .next { s with obsWaiting := some (a, s.sampleBytes) }

/-- BUDGET_REFILL (R401). -/
def execBudgetRefill (s : State) : Res :=
  let s := { s with obsBudget := s.obsRefill }
  match s.obsWaiting with
  | none => .next s
  | some (a, bs) =>
    let s := s.bumpField .MOD_OBS_STATUS 0 0 31 16 1
    if exportBytes ≤ s.obsBudget then .next (s.writeExport a bs) else .next s

end Sys2Proof.Machine
end

