-- ==== Sys2Proof/Machine/ThreadControl.lean ====
section
/-!
DEFINITION. Control flow, divergence and the block barrier (Table 5.9, R112 to R114, R133, R153).
-/

namespace Sys2Proof.Machine

open Sys2Proof

/-! ### The reconvergence stack (R112, R114, Table 4.7) -/

/-- The bytes of an entry in the spill area (Table 4.7). -/
def RecEntry.bytes (e : RecEntry) : List Byte :=
  leBytes 4 e.saved.toNat ++ leBytes 4 e.pending.toNat ++ leBytes 4 e.elsePc ++ leBytes 4 e.joinPc
def recEntryOf (bs : List Byte) : RecEntry :=
  { saved := BitVec.ofNat 32 (fieldLe bs 0 4), pending := BitVec.ofNat 32 (fieldLe bs 4 4), elsePc := fieldLe bs 8 4,
    joinPc := fieldLe bs 12 4 }

/-- Declared reconvergence depth D of a block's kernel. -/
def depthOf (b : Block) : Nat := launchFld b.body 98 1

/-- The address of spilled entry `i` of a group (R114). -/
def spillAddr (l : Nat) (g : Group) (b : Block) (i : Nat) : Nat :=
  localAddr l (b.lmBase + b.lmSize - (g.gi + 1) * (depthOf b - 16) * 16 + 16 * i)

/-- The stack, newest first, with room made for a push: the 8 oldest of 16 entries move to the spill area. -/
def State.spill (s : State) (l : Nat) (g : Group) (b : Block) : State × Group :=
  if g.stack.length < 16 then (s, g)
  else
    let old := (g.stack.drop (g.stack.length - 8)).reverse
    let r := old.foldl (fun (r : State × Nat) e => (r.1.store (spillAddr l g b r.2) e.bytes, r.2 + 1)) (s, g.spilled)
    (r.1, { g with stack := g.stack.take (g.stack.length - 8), spilled := g.spilled + 8 })

/-- The stack after a pop: with none left in the engine, the 8 most recently spilled come back. -/
def State.refill (s : State) (l : Nat) (g : Group) (b : Block) : Group :=
  if g.stack.length ≠ 0 ∨ g.spilled = 0 then g
  else
    let n := min 8 g.spilled
    let es := (List.range n).map fun i => recEntryOf (s.bytes (spillAddr l g b (g.spilled - 1 - i)) 16)
    { g with stack := es, spilled := g.spilled - n }

/-- What reaching the top entry's JOIN does: the pending threads run, or the saved mask returns and the entry is
popped (R112). -/
def State.joinTop (s : State) (l : Nat) (g : Group) (b : Block) : Group :=
  match g.stack with
  | [] => g
  | e :: rest =>
    if e.pending ≠ 0 then { g with active := e.pending, stack := { e with pending := 0 } :: rest, pc := e.elsePc }
    else s.refill l { g with active := e.saved, stack := rest, pc := e.joinPc + 8 } b

/-- A group whose active mask is 0 goes on as if at JOIN after JOIN until threads run or the stack is empty (R113). -/
def State.unwind (s : State) (l : Nat) (b : Block) : Nat → Group → Group
  | 0, g => g
  | fuel + 1, g => if g.active ≠ 0 ∨ g.stack.isEmpty then g else s.unwind l b fuel (s.joinTop l g b)

/-- Enough for every entry of the deepest stack to be entered twice. -/
def unwindFuel : Nat := 512

/-! ### Instructions -/

/-- BRA (R133): every active lane's guard has one value; where it is true the group goes on at the literal's offset. -/
def execBra (l : CoreId) (gi : GroupId) (w : TWord) (s : State) : Res :=
  s.threadIssue 0x100 l gi w fun s g b =>
    if !w.guardUniform g then .next (s.groupFault l gi g b 6 0 g.pc)
    else if (w.acting g).isEmpty then .next (s.finish l gi w g)
    else .next (s.setGroup l gi (some { g with pc := bitsOf w.lit 31 0, fills := [] }))

/-- SPLIT (R112, R114). -/
def execSplit (l : CoreId) (gi : GroupId) (w : TWord) (s : State) : Res :=
  s.threadIssue 0x101 l gi w fun s g b =>
    if !w.guardUniform g then .next (s.groupFault l gi g b 6 0 g.pc)
    else if (w.acting g).isEmpty then .next (s.finish l gi w g)
    else if depthOf b ≤ g.stack.length + g.spilled then .next (s.groupFault l gi g b 5 0 g.pc)
    else
      let p : W32 := laneMask ((List.range 32).filter fun k => g.pred (bitsOf w.srcA 2 0) k != w.opx.getLsbD 0)
      let taken := g.active &&& p
      let rest := g.active &&& ~~~p
      let elsePc := bitsOf w.lit 31 0
      let r := s.spill l g b
      let e : RecEntry := { joinPc := bitsOf w.lit 63 32, elsePc := elsePc, pending := rest, saved := g.active }
      if taken = 0 then
        .next (r.1.setGroup l gi (some { r.2 with
          active := rest, stack := { e with pending := 0 } :: r.2.stack, pc := elsePc, fills := [] }))
      else .next (r.1.finish l gi w { r.2 with active := taken, stack := e :: r.2.stack })

/-- JOIN (R112). -/
def execJoin (l : CoreId) (gi : GroupId) (w : TWord) (s : State) : Res :=
  s.threadIssue 0x102 l gi w fun s g b =>
    if !w.guardUniform g then .next (s.groupFault l gi g b 6 0 g.pc)
    else if (w.acting g).isEmpty then .next (s.finish l gi w g)
    else
      match g.stack with
      | [] => .next (s.groupFault l gi g b 6 0 g.pc)
      | e :: _ =>
        if e.joinPc ≠ g.pc then .next (s.groupFault l gi g b 6 0 g.pc)
        else .next (s.setGroup l gi (some { s.joinTop l g b with fills := [] }))

/-- The threads of a mask are cleared from every spilled entry of a group. -/
def State.clearSpilled (s : State) (l : Nat) (g : Group) (b : Block) (m : W32) : State :=
  (List.range g.spilled).foldl (fun s i =>
    let e := recEntryOf (s.bytes (spillAddr l g b i) 16)
    s.store (spillAddr l g b i) ({ e with pending := e.pending &&& ~~~m, saved := e.saved &&& ~~~m } : RecEntry).bytes) s

/-- The groups of a block that wait at its barrier go on once every group that has not ended has arrived (R153). -/
def State.releaseBarrier (s : State) (l c r : Nat) : State :=
  match s.block c r with
  | none => s
  | some b =>
    if b.arrived.isEmpty || !(b.groups.all fun g => b.arrived.contains g || s.groupEnded l g) then s
    else
      let s := b.arrived.foldl (fun s g => s.modGroup l g fun x => { x with status := .ready }) s
      s.setBlock c r (some { b with arrived := [] })

/-- EXIT (R113): the acting threads leave every mask; with none left the group ends, and a group with an empty active
mask behaves as if at its JOIN. -/
def execExit (l : CoreId) (gi : GroupId) (w : TWord) (s : State) : Res :=
  s.threadIssue 0x103 l gi w fun s g b =>
    let m := laneMask (w.acting g)
    let live := g.live &&& ~~~m
    if live = 0 then .next ((s.dropGroup l gi).releaseBarrier l (l / 8) g.block)
    else
      let keep (x : W32) : W32 := x &&& ~~~m
      let s := s.clearSpilled l g b m
      let g := { g.advance w with
        live := live
        active := keep g.active
        stack := g.stack.map fun e => { e with pending := keep e.pending, saved := keep e.saved } }
      .next (s.setGroup l gi (some (s.unwind l b unwindFuel g)))

/-- BSYNC (R153): the group waits at the block's barrier, which releases when every group that has not ended is there. -/
def execBsync (l : CoreId) (gi : GroupId) (w : TWord) (s : State) : Res :=
  s.threadIssue 0x104 l gi w fun s g b =>
    if (w.acting g).isEmpty then .next (s.finish l gi w g)
    else
      let s := s.setGroup l gi (some { g.advance w with status := .atBarrier })
      .next ((s.setBlock (l / 8) g.block (some { b with arrived := b.arrived ++ [gi.val] })).releaseBarrier l (l / 8) g.block)

end Sys2Proof.Machine
end

