-- ==== Sys2Proof/Machine/Dispatch.lean ====
section
/-!
DEFINITION. The dispatch: one arm per command, each a direct call of the command's meaning.
-/

namespace Sys2Proof.Machine

open Sys2Proof

/-- The effect of a command on everything but the queue. -/
def exec (i : Instr) (s : State) : Host.Outcome State Fault Refusal :=
  match i with
  | .qpush l rd rs1 rs2 f7 => Sys2Proof.Machine.execQpush l rd rs1 rs2 f7 s
  | .qpushAdmission l => Sys2Proof.Machine.execQpushAdmission l s
  | .qstat l rd rs1 f7 => Sys2Proof.Machine.execQstat l rd rs1 f7 s
  | .cwait l rd rs1 rs2 f7 => Sys2Proof.Machine.execCwait l rd rs1 rs2 f7 s
  | .csig l rd rs1 rs2 f7 => Sys2Proof.Machine.execCsig l rd rs1 rs2 f7 s
  | .gtb l rd f7 => Sys2Proof.Machine.execGtb l rd f7 s
  | .ccInstruction l w => Sys2Proof.Machine.execCcInstruction l w s
  | .ccLoad l rd rs1 imm f3 => Sys2Proof.Machine.execCcLoad l rd rs1 imm f3 s
  | .ccStore l rs1 rs2 imm f3 => Sys2Proof.Machine.execCcStore l rs1 rs2 imm f3 s
  | .ccAmo l f5 form rd rs1 rs2 => Sys2Proof.Machine.execCcAmo l f5 form rd rs1 rs2 s
  | .ccLr l form rd rs1 => Sys2Proof.Machine.execCcLr l form rd rs1 s
  | .ccSc l form rd rs1 rs2 => Sys2Proof.Machine.execCcSc l form rd rs1 rs2 s
  | .ccFence l form => Sys2Proof.Machine.execCcFence l form s
  | .mfpflagsClear l rd immForm src => Sys2Proof.Machine.execMfpflagsClear l rd immForm src s
  | .ccInterrupt l irq => Sys2Proof.Machine.execCcInterrupt l irq s
  | .mtimecmpMatch l => Sys2Proof.Machine.execMtimecmpMatch l s
  | .ccLineFill l => Sys2Proof.Machine.execCcLineFill l s
  | .readSnoop l line => Sys2Proof.Machine.execReadSnoop l line s
  | .ownershipSnoop l line => Sys2Proof.Machine.execOwnershipSnoop l line s
  | .writebackDone l => Sys2Proof.Machine.execWritebackDone l s
  | .homeRequest u op => Sys2Proof.Machine.execHomeRequest u op s
  | .ccCfgWrite a k v => Sys2Proof.Machine.execCcCfgWrite a k v s
  | .spanBaseWrite a k v => Sys2Proof.Machine.execSpanBaseWrite a k v s
  | .spanCountWrite a k v => Sys2Proof.Machine.execSpanCountWrite a k v s
  | .imageLoad p img => Sys2Proof.Machine.execImageLoad p img s
  | .instrStart l q => Sys2Proof.Machine.execInstrStart l q s
  | .instrComplete l q acc => Sys2Proof.Machine.execInstrComplete l q acc s
  | .instrCommit l q acc => Sys2Proof.Machine.execInstrCommit l q acc s
  | .launch l => Sys2Proof.Machine.execLaunch l s
  | .gridEntryAppend l slot => Sys2Proof.Machine.execGridEntryAppend l slot s
  | .distClaim c ring => Sys2Proof.Machine.execDistClaim c ring s
  | .blockStart b => Sys2Proof.Machine.execBlockStart b s
  | .l1Fill l line => Sys2Proof.Machine.execL1Fill l line s
  | .veCfgWrite a k v => Sys2Proof.Machine.execVeCfgWrite a k v s
  | .splitApply l => Sys2Proof.Machine.execSplitApply l s
  | .veKill a k v => Sys2Proof.Machine.execVeKill a k v s
  | .gridKillComplete l slot => Sys2Proof.Machine.execGridKillComplete l slot s
  | .nop l g w => Sys2Proof.Machine.execNop l g w s
  | .iadd l g w => Sys2Proof.Machine.execIadd l g w s
  | .isub l g w => Sys2Proof.Machine.execIsub l g w s
  | .imul l g w => Sys2Proof.Machine.execImul l g w s
  | .imulhi l g w => Sys2Proof.Machine.execImulhi l g w s
  | .imad l g w => Sys2Proof.Machine.execImad l g w s
  | .idiv l g w => Sys2Proof.Machine.execIdiv l g w s
  | .irem l g w => Sys2Proof.Machine.execIrem l g w s
  | .imin l g w => Sys2Proof.Machine.execImin l g w s
  | .imax l g w => Sys2Proof.Machine.execImax l g w s
  | .iabs l g w => Sys2Proof.Machine.execIabs l g w s
  | .blut l g w => Sys2Proof.Machine.execBlut l g w s
  | .shl l g w => Sys2Proof.Machine.execShl l g w s
  | .shr l g w => Sys2Proof.Machine.execShr l g w s
  | .popc l g w => Sys2Proof.Machine.execPopc l g w s
  | .clz l g w => Sys2Proof.Machine.execClz l g w s
  | .brev l g w => Sys2Proof.Machine.execBrev l g w s
  | .bfe l g w => Sys2Proof.Machine.execBfe l g w s
  | .bfi l g w => Sys2Proof.Machine.execBfi l g w s
  | .mov l g w => Sys2Proof.Machine.execMov l g w s
  | .fadd l g w => Sys2Proof.Machine.execFadd l g w s
  | .fmul l g w => Sys2Proof.Machine.execFmul l g w s
  | .ffma l g w => Sys2Proof.Machine.execFfma l g w s
  | .fmin l g w => Sys2Proof.Machine.execFmin l g w s
  | .fmax l g w => Sys2Proof.Machine.execFmax l g w s
  | .frcp l g w => Sys2Proof.Machine.execFrcp l g w s
  | .frsq l g w => Sys2Proof.Machine.execFrsq l g w s
  | .fsqrt l g w => Sys2Proof.Machine.execFsqrt l g w s
  | .fexp2 l g w => Sys2Proof.Machine.execFexp2 l g w s
  | .flog2 l g w => Sys2Proof.Machine.execFlog2 l g w s
  | .fsin l g w => Sys2Proof.Machine.execFsin l g w s
  | .fcos l g w => Sys2Proof.Machine.execFcos l g w s
  | .hadd2 l g w => Sys2Proof.Machine.execHadd2 l g w s
  | .hmul2 l g w => Sys2Proof.Machine.execHmul2 l g w s
  | .hfma2 l g w => Sys2Proof.Machine.execHfma2 l g w s
  | .hmin2 l g w => Sys2Proof.Machine.execHmin2 l g w s
  | .hmax2 l g w => Sys2Proof.Machine.execHmax2 l g w s
  | .cvt l g w => Sys2Proof.Machine.execCvt l g w s
  | .cvti l g w => Sys2Proof.Machine.execCvti l g w s
  | .cvtx l g w => Sys2Proof.Machine.execCvtx l g w s
  | .mxscale l g w => Sys2Proof.Machine.execMxscale l g w s
  | .cvts l g w => Sys2Proof.Machine.execCvts l g w s
  | .pack6 l g w => Sys2Proof.Machine.execPack6 l g w s
  | .unpk6 l g w => Sys2Proof.Machine.execUnpk6 l g w s
  | .icmp l g w => Sys2Proof.Machine.execIcmp l g w s
  | .fcmp l g w => Sys2Proof.Machine.execFcmp l g w s
  | .plut l g w => Sys2Proof.Machine.execPlut l g w s
  | .pick l g w => Sys2Proof.Machine.execPick l g w s
  | .pget l g w => Sys2Proof.Machine.execPget l g w s
  | .pput l g w => Sys2Proof.Machine.execPput l g w s
  | .bra l g w => Sys2Proof.Machine.execBra l g w s
  | .split l g w => Sys2Proof.Machine.execSplit l g w s
  | .join l g w => Sys2Proof.Machine.execJoin l g w s
  | .exit l g w => Sys2Proof.Machine.execExit l g w s
  | .bsync l g w => Sys2Proof.Machine.execBsync l g w s
  | .ldl l g w => Sys2Proof.Machine.execLdl l g w s
  | .stl l g w => Sys2Proof.Machine.execStl l g w s
  | .atoml l g w => Sys2Proof.Machine.execAtoml l g w s
  | .ldf l g w => Sys2Proof.Machine.execLdf l g w s
  | .stf l g w => Sys2Proof.Machine.execStf l g w s
  | .ldg l g w => Sys2Proof.Machine.execLdg l g w s
  | .stg l g w => Sys2Proof.Machine.execStg l g w s
  | .atomg l g w => Sys2Proof.Machine.execAtomg l g w s
  | .pref l g w => Sys2Proof.Machine.execPref l g w s
  | .ldw l g w => Sys2Proof.Machine.execLdw l g w s
  | .stw l g w => Sys2Proof.Machine.execStw l g w s
  | .xlane l g w => Sys2Proof.Machine.execXlane l g w s
  | .vote l g w => Sys2Proof.Machine.execVote l g w s
  | .gred l g w => Sys2Proof.Machine.execGred l g w s
  | .groupCwait l g w => Sys2Proof.Machine.execGroupCwait l g w s
  | .groupCsig l g w => Sys2Proof.Machine.execGroupCsig l g w s
  | .mqpush l g w => Sys2Proof.Machine.execMqpush l g w s
  | .mqpushAdmission l g => Sys2Proof.Machine.execMqpushAdmission l g s
  | .fence l g w => Sys2Proof.Machine.execFence l g w s
  | .rdsr l g w => Sys2Proof.Machine.execRdsr l g w s
  | .flagclr l g w => Sys2Proof.Machine.execFlagclr l g w s
  | .mma l => Sys2Proof.Machine.execMma l s
  | .muStationaryLoad l => Sys2Proof.Machine.execMuStationaryLoad l s
  | .muDrainFence l => Sys2Proof.Machine.execMuDrainFence l s
  | .muPairClose l => Sys2Proof.Machine.execMuPairClose l s
  | .cubeError l cube => Sys2Proof.Machine.execCubeError l cube s
  | .muCubesWrite a k v => Sys2Proof.Machine.execMuCubesWrite a k v s
  | .attend st l => Sys2Proof.Machine.execAttend st l s
  | .grateDispatch st => Sys2Proof.Machine.execGrateDispatch st s
  | .grateWorkItemEnd st e => Sys2Proof.Machine.execGrateWorkItemEnd st e s
  | .attendComplete st l acc => Sys2Proof.Machine.execAttendComplete st l acc s
  | .grateEngineFail st e => Sys2Proof.Machine.execGrateEngineFail st e s
  | .copy l acc => Sys2Proof.Machine.execCopy l acc s
  | .gather l acc => Sys2Proof.Machine.execGather l acc s
  | .scatter l acc => Sys2Proof.Machine.execScatter l acc s
  | .bucket l acc => Sys2Proof.Machine.execBucket l acc s
  | .fill l acc => Sys2Proof.Machine.execFill l acc s
  | .reduce l acc => Sys2Proof.Machine.execReduce l acc s
  | .xltWalkDone l acc => Sys2Proof.Machine.execXltWalkDone l acc s
  | .faultResolveRetry a p l fid => Sys2Proof.Machine.execFaultResolveRetry a p l fid s
  | .faultResolveDiscard a p l fid => Sys2Proof.Machine.execFaultResolveDiscard a p l fid s
  | .frHeadWrite a p v => Sys2Proof.Machine.execFrHeadWrite a p v s
  | .xltSwapGo a p v => Sys2Proof.Machine.execXltSwapGo a p v s
  | .xltSwapDone p => Sys2Proof.Machine.execXltSwapDone p s
  | .xltInvalidateGo a p v => Sys2Proof.Machine.execXltInvalidateGo a p v s
  | .xltInvalidateDone p => Sys2Proof.Machine.execXltInvalidateDone p s
  | .signalSend stream => Sys2Proof.Machine.execSignalSend stream s
  | .signalAdd m => Sys2Proof.Machine.execSignalAdd m s
  | .signalRaise m => Sys2Proof.Machine.execSignalRaise m s
  | .barrierArrive slot a phase => Sys2Proof.Machine.execBarrierArrive slot a phase s
  | .slotRegWrite a r v => Sys2Proof.Machine.execSlotRegWrite a r v s
  | .waitRegister w ctr expected => Sys2Proof.Machine.execWaitRegister w ctr expected s
  | .waitRetryTimer w => Sys2Proof.Machine.execWaitRetryTimer w s
  | .waitWake w => Sys2Proof.Machine.execWaitWake w s
  | .viewSnapshot a v => Sys2Proof.Machine.execViewSnapshot a v s
  | .memSideOp op => Sys2Proof.Machine.execMemSideOp op s
  | .goldArm a p v => Sys2Proof.Machine.execGoldArm a p v s
  | .goldDisarm a p v => Sys2Proof.Machine.execGoldDisarm a p v s
  | .goldCompareDone p e => Sys2Proof.Machine.execGoldCompareDone p e s
  | .nearUe addr who => Sys2Proof.Machine.execNearUe addr who s
  | .ringUe addr => Sys2Proof.Machine.execRingUe addr s
  | .hearthUe error => Sys2Proof.Machine.execHearthUe error s
  | .patrolScrub addr r => Sys2Proof.Machine.execPatrolScrub addr r s
  | .stkTempSample st temp => Sys2Proof.Machine.execStkTempSample st temp s
  | .regionTempSample sensor temp => Sys2Proof.Machine.execRegionTempSample sensor temp s
  | .itemPush l q fromDe bytes => Sys2Proof.Machine.execItemPush l q fromDe bytes s
  | .headerPush l q fromDe bytes => Sys2Proof.Machine.execHeaderPush l q fromDe bytes s
  | .headWindowRead l producer q => Sys2Proof.Machine.execHeadWindowRead l producer q s
  | .packetRelease l producer q hdr => Sys2Proof.Machine.execPacketRelease l producer q hdr s
  | .sqCfgWrite a k q v => Sys2Proof.Machine.execSqCfgWrite a k q v s
  | .sqResvWrite a k v => Sys2Proof.Machine.execSqResvWrite a k v s
  | .censusWindow arb arrivals => Sys2Proof.Machine.execCensusWindow arb arrivals s
  | .agingPromote arb request background waited => Sys2Proof.Machine.execAgingPromote arb request background waited s
  | .linkEnable p => Sys2Proof.Machine.execLinkEnable p s
  | .linkDisable p => Sys2Proof.Machine.execLinkDisable p s
  | .linkLight p locked => Sys2Proof.Machine.execLinkLight p locked s
  | .linkLocked p => Sys2Proof.Machine.execLinkLocked p s
  | .linkParamReceive p peer => Sys2Proof.Machine.execLinkParamReceive p peer s
  | .linkCreditsReceive p credits => Sys2Proof.Machine.execLinkCreditsReceive p credits s
  | .linkTrainingTimeout p => Sys2Proof.Machine.execLinkTrainingTimeout p s
  | .linkLanefail p wave => Sys2Proof.Machine.execLinkLanefail p wave s
  | .linkMapReceive p measured map => Sys2Proof.Machine.execLinkMapReceive p measured map s
  | .laserInputLoss n => Sys2Proof.Machine.execLaserInputLoss n s
  | .flitReceive p bytes => Sys2Proof.Machine.execFlitReceive p bytes s
  | .nakReceive p ack => Sys2Proof.Machine.execNakReceive p ack s
  | .ackTimer p => Sys2Proof.Machine.execAckTimer p s
  | .routeSwapTime p => Sys2Proof.Machine.execRouteSwapTime p s
  | .read p pk => Sys2Proof.Machine.execRead p pk s
  | .write p pk => Sys2Proof.Machine.execWrite p pk s
  | .readData p pk => Sys2Proof.Machine.execReadData p pk s
  | .writeAck p pk => Sys2Proof.Machine.execWriteAck p pk s
  | .refuse p pk => Sys2Proof.Machine.execRefuse p pk s
  | .signal p pk => Sys2Proof.Machine.execSignal p pk s
  | .signalAck p pk => Sys2Proof.Machine.execSignalAck p pk s
  | .register p pk => Sys2Proof.Machine.execRegister p pk s
  | .wake p pk => Sys2Proof.Machine.execWake p pk s
  | .counterRead p pk => Sys2Proof.Machine.execCounterRead p pk s
  | .value p pk => Sys2Proof.Machine.execValue p pk s
  | .mgmt p pk => Sys2Proof.Machine.execMgmt p pk s
  | .packetTransit p pk => Sys2Proof.Machine.execPacketTransit p pk s
  | .packetResendTimeout tag => Sys2Proof.Machine.execPacketResendTimeout tag s
  | .timeSyncSend => Sys2Proof.Machine.execTimeSyncSend s
  | .timeSync p t1 t2 => Sys2Proof.Machine.execTimeSync p t1 t2 s
  | .timeReply p t1 t2 t3 t4 => Sys2Proof.Machine.execTimeReply p t1 t2 t3 t4 s
  | .ppsEdge => Sys2Proof.Machine.execPpsEdge s
  | .ppsLossTimeout => Sys2Proof.Machine.execPpsLossTimeout s
  | .gtbDieCheck d => Sys2Proof.Machine.execGtbDieCheck d s
  | .refclkLoss => Sys2Proof.Machine.execRefclkLoss s
  | .refclkReturn => Sys2Proof.Machine.execRefclkReturn s
  | .hostRead f b addr len => Sys2Proof.Machine.execHostRead f b addr len s
  | .hostWrite f b addr data => Sys2Proof.Machine.execHostWrite f b addr data s
  | .doorbellRing f p d hi => Sys2Proof.Machine.execDoorbellRing f p d hi s
  | .triggerArm f vec cfg => Sys2Proof.Machine.execTriggerArm f vec cfg s
  | .vfFlr p => Sys2Proof.Machine.execVfFlr p s
  | .pfFlr => Sys2Proof.Machine.execPfFlr s
  | .datapathCheckFail l => Sys2Proof.Machine.execDatapathCheckFail l s
  | .volatileUe error => Sys2Proof.Machine.execVolatileUe error s
  | .heartbeatTimeout l => Sys2Proof.Machine.execHeartbeatTimeout l s
  | .migrationComplete c => Sys2Proof.Machine.execMigrationComplete c s
  | .recordStoreUe l q acc r => Sys2Proof.Machine.execRecordStoreUe l q acc r s
  | .lagSample r first => Sys2Proof.Machine.execLagSample r first s
  | .testSlice c slot => Sys2Proof.Machine.execTestSlice c slot s
  | .testSliceRun a c slot => Sys2Proof.Machine.execTestSliceRun a c slot s
  | .testSliceEnd c r => Sys2Proof.Machine.execTestSliceEnd c r s
  | .lossResume a p => Sys2Proof.Machine.execLossResume a p s
  | .ashRecordReadable => Sys2Proof.Machine.execAshRecordReadable s
  | .alogPop a => Sys2Proof.Machine.execAlogPop a s
  | .perfReqWrite a r p v => Sys2Proof.Machine.execPerfReqWrite a r p v s
  | .voltageSlewDone r => Sys2Proof.Machine.execVoltageSlewDone r s
  | .clockSwitchDone r => Sys2Proof.Machine.execClockSwitchDone r s
  | .powerCapSample r power => Sys2Proof.Machine.execPowerCapSample r power s
  | .neighbourCapStep r => Sys2Proof.Machine.execNeighbourCapStep r s
  | .pwrEventDemand a d => Sys2Proof.Machine.execPwrEventDemand a d s
  | .pwrEventParkReq a d => Sys2Proof.Machine.execPwrEventParkReq a d s
  | .pwrEventOffReq a d => Sys2Proof.Machine.execPwrEventOffReq a d s
  | .domainDemand d => Sys2Proof.Machine.execDomainDemand d s
  | .domainIdle d idleTicks => Sys2Proof.Machine.execDomainIdle d idleTicks s
  | .domainReady d => Sys2Proof.Machine.execDomainReady d s
  | .domainActionDone d => Sys2Proof.Machine.execDomainActionDone d s
  | .domainTimeout d => Sys2Proof.Machine.execDomainTimeout d s
  | .domainOvertemp d => Sys2Proof.Machine.execDomainOvertemp d s
  | .domainFault d => Sys2Proof.Machine.execDomainFault d s
  | .modeChangeGo a p v => Sys2Proof.Machine.execModeChangeGo a p v s
  | .modeApply p u => Sys2Proof.Machine.execModeApply p u s
  | .modeProgressRaise p => Sys2Proof.Machine.execModeProgressRaise p s
  | .damperArm a => Sys2Proof.Machine.execDamperArm a s
  | .damperResume a => Sys2Proof.Machine.execDamperResume a s
  | .damperTimeReached => Sys2Proof.Machine.execDamperTimeReached s
  | .unitStop u => Sys2Proof.Machine.execUnitStop u s
  | .moduleQuiet => Sys2Proof.Machine.execModuleQuiet s
  | .damperResumeTimeReached => Sys2Proof.Machine.execDamperResumeTimeReached s
  | .debugHaltReq l => Sys2Proof.Machine.execDebugHaltReq l s
  | .debugResumeReq l => Sys2Proof.Machine.execDebugResumeReq l s
  | .debugSingleStep l => Sys2Proof.Machine.execDebugSingleStep l s
  | .ebreak l => Sys2Proof.Machine.execEbreak l s
  | .triggerHit l t => Sys2Proof.Machine.execTriggerHit l t s
  | .accessRegister l r wr xclq => Sys2Proof.Machine.execAccessRegister l r wr xclq s
  | .accessMemory l addr f3 wr => Sys2Proof.Machine.execAccessMemory l addr f3 wr s
  | .progbufExec l => Sys2Proof.Machine.execProgbufExec l s
  | .sysbusAccess addr wr => Sys2Proof.Machine.execSysbusAccess addr wr s
  | .counterExport => Sys2Proof.Machine.execCounterExport s
  | .budgetRefill => Sys2Proof.Machine.execBudgetRefill s
  | .setAliasWrite a r v => Sys2Proof.Machine.execSetAliasWrite a r v s
  | .clearAliasWrite a r v => Sys2Proof.Machine.execClearAliasWrite a r v s
  | .toggleAliasWrite a r v => Sys2Proof.Machine.execToggleAliasWrite a r v s
  | .registerWrite a r v => Sys2Proof.Machine.execRegisterWrite a r v s
  | .ksGo a m => Sys2Proof.Machine.execKsGo a m s
  | .ksStart => Sys2Proof.Machine.execKsStart s
  | .ksCopyDone => Sys2Proof.Machine.execKsCopyDone s
  | .ksApply hwError => Sys2Proof.Machine.execKsApply hwError s
  | .standbyPowerUp straps => Sys2Proof.Machine.execStandbyPowerUp straps s
  | .pg48Assert => Sys2Proof.Machine.execPg48Assert s
  | .bootPhaseDone r => Sys2Proof.Machine.execBootPhaseDone r s
  | .pg48Deassert => Sys2Proof.Machine.execPg48Deassert s
  | .resetN => Sys2Proof.Machine.execResetN s
  | .pldmRestart => Sys2Proof.Machine.execPldmRestart s
  | .i3cDaa bus addr => Sys2Proof.Machine.execI3cDaa bus addr s
  | .pldmDiscovery bus => Sys2Proof.Machine.execPldmDiscovery bus s
  | .pldmGetSensor bus y => Sys2Proof.Machine.execPldmGetSensor bus y s
  | .pldmFirmwareUpdate bus c => Sys2Proof.Machine.execPldmFirmwareUpdate bus c s
  | .pldmAshLogRead bus => Sys2Proof.Machine.execPldmAshLogRead bus s
  | .spdmGetMeasurements block => Sys2Proof.Machine.execSpdmGetMeasurements block s
  | .spdmChallenge nonce => Sys2Proof.Machine.execSpdmChallenge nonce s
  | .spdmKeyExchange x y => Sys2Proof.Machine.execSpdmKeyExchange x y s
  | .provision slot key sig => Sys2Proof.Machine.execProvision slot key sig s
  | .revoke slot sig => Sys2Proof.Machine.execRevoke slot sig s
  | .retainedStateUe l error => Sys2Proof.Machine.execRetainedStateUe l error s
  | .bridgeLaneFail bridge lane => Sys2Proof.Machine.execBridgeLaneFail bridge lane s
  | .pseudoChannelFail st pc => Sys2Proof.Machine.execPseudoChannelFail st pc s
  | .laserInputReturn n => Sys2Proof.Machine.execLaserInputReturn n s
  | .standbyPowerLoss => Sys2Proof.Machine.execStandbyPowerLoss s
  | .resetNRelease => Sys2Proof.Machine.execResetNRelease s

end Sys2Proof.Machine
end

