-- ==== Sys2Proof/Safety.lean ====
section
/-!
DEFINITION. The terms in which statements about the block are made: what it is for a control core to issue an instruction, to
retire one and to take a trap; and the frames, which say that a command changed one part of the module and nothing else.
-/

namespace Sys2Proof.Machine

open Sys2Proof

/-! ### Frames -/

/-- Every byte of memory reads as before. -/
def SameBytes (s t : State) : Prop := ∀ a, t.byte a = s.byte a

/-- Every byte of memory outside the `n` bytes from `a` reads as before. -/
def SameBytesBut (s t : State) (a n : Nat) : Prop := ∀ x, x < a ∨ a + n ≤ x → t.byte x = s.byte x

/-- Every register of the CSR space reads as before. -/
def SameRegs (s t : State) : Prop := ∀ n i j, t.reg n i j = s.reg n i j

/-- Nothing but the core `l` has changed: no other core, no byte of memory, no register, no other unit. -/
def OnlyCore (s t : State) (l : Nat) : Prop :=
  t = { s with cores := t.cores } ∧ (∀ k, k ≠ l → t.core k = s.core k) ∧ SameBytes s t

/-- Nothing but the control core of core `l` has changed. -/
def OnlyCC (s t : State) (l : Nat) : Prop := OnlyCore s t l ∧ t.core l = { s.core l with cc := t.cc l }

/-- Nothing but the flue port `p` has changed. -/
def OnlyPort (s t : State) (p : Nat) : Prop :=
  t = { s with ports := t.ports } ∧ (∀ k, k ≠ p → t.port k = s.port k) ∧ SameBytes s t

/-- Nothing but the register `n` with its indices has changed. -/
def OnlyReg (s t : State) (n : RegName) (i j : Nat) : Prop :=
  t = { s with regs := t.regs } ∧ (∀ m a b, (m, a, b) ≠ (n, i, j) → a < 4096 → b < 4096 → i < 4096 → j < 4096 →
    t.reg m a b = s.reg m a b) ∧ SameBytes s t

/-! ### The control core -/

/-- The control core of `l` issues the next instruction: it runs, and the instruction at its pc lies in IMEM (R59, R62). -/
def CcIssues (s : State) (l : Nat) : Prop := s.ccRuns l = true ∧ s.fetchOk l = true

/-- The control core of `l` issues, and the instruction at its pc is `w`, in `len` bytes (R26, R62). -/
def CcAt (s : State) (l : Nat) (w : W32) (len : Nat) : Prop := CcIssues s l ∧ s.fetches l w = some len

/-- A control core retired an instruction of `len` bytes that gives `v` to rd, with the pc at `pc` after it: x0 stays zero, every
other integer register is unchanged, every CSR is unchanged but minstret, and dcsr when the core single-steps and halts. -/
def CcRetired (c c' : CC) (rd : XReg) (v : W64) (pc : W64) : Prop :=
  c'.pc = pc ∧ c'.stall = none ∧
  (∀ r : XReg, c'.xr r = if r.val = 0 then 0 else if r = rd then v else c.xr r) ∧
  (∀ n, n ≠ 0xB02 → n ≠ csrDcsr → c'.csr n = c.csr n) ∧
  c'.csr 0xB02 = (if (c.csr 0x320).getLsbD 2 then c.csr 0xB02 else c.csr 0xB02 + 1) ∧
  c'.halted = (c.halted || (c.csr csrDcsr).getLsbD 2) ∧
  ((c.csr csrDcsr).getLsbD 2 = false → c'.csr csrDcsr = c.csr csrDcsr) ∧
  c' = { c with x := c'.x, pc := c'.pc, csrs := c'.csrs, stall := c'.stall, halted := c'.halted, haltAt := c'.haltAt }

/-- A control core took a trap (R60): mepc holds the pc of the instruction, mcause and mtval say why, MPIE holds MIE, MIE is clear,
MPP reads machine mode, the pc is the handler's, and no integer register has changed. -/
def CcTrapped (c c' : CC) (interrupt : Bool) (cause : Nat) (tval : W64) : Prop :=
  c'.csr csrMepc = c.pc ∧ c'.csr csrMcause = putBit (BitVec.ofNat 64 cause) 63 interrupt ∧ c'.csr csrMtval = tval ∧
  (c'.csr csrMstatus).getLsbD 7 = (c.csr csrMstatus).getLsbD 3 ∧ (c'.csr csrMstatus).getLsbD 3 = false ∧
  (c'.csr csrMstatus).getLsbD 11 = true ∧ (c'.csr csrMstatus).getLsbD 12 = true ∧
  c'.pc = (c.csr csrMtvec &&& ~~~(3 : W64)) +
    (if interrupt && (c.csr csrMtvec).getLsbD 0 then BitVec.ofNat 64 (4 * cause) else 0) ∧
  c'.stall = none ∧ (∀ r : XReg, c'.xr r = c.xr r) ∧
  c' = { c with pc := c'.pc, csrs := c'.csrs, stall := c'.stall, halted := c'.halted, haltAt := c'.haltAt }

/-! ### Thread instructions -/

/-- Nothing but the group `gi` of core `l`, and the work that its engine counts (R346), has changed. -/
def OnlyGroup (s t : State) (l gi : Nat) : Prop :=
  OnlyCore s t l ∧
  t.core l = { s.core l with ve := { (s.core l).ve with groups := (t.core l).ve.groups }, nominal := (t.core l).nominal } ∧
  ∀ k, k ≠ gi → t.group l k = s.group l k

/-- Nothing but the group `gi` of core `l`, that core's CORE_FP_FLAGS and the work that its engine counts has changed. -/
def OnlyGroupAndFlags (s t : State) (l gi : Nat) : Prop :=
  t = { s with cores := t.cores, regs := t.regs } ∧ (∀ k, k ≠ l → t.core k = s.core k) ∧ SameBytes s t ∧
  t.core l = { s.core l with ve := { (s.core l).ve with groups := (t.core l).ve.groups }, nominal := (t.core l).nominal } ∧
  (∀ k, k ≠ gi → t.group l k = s.group l k) ∧ ∀ n i j, i < 4096 → j < 4096 →
    (n, i, j) ≠ (.CORE_FP_FLAGS, s.physOf l, 0) → t.reg n i j = s.reg n i j

/-- Group `gi` of core `l` is `g`, of block `b`, it issues, the word at its place in the kernel is `w` of opcode `op` (R26), and the
verifier accepts that word. -/
def Runs (s : State) (op : Nat) (l : CoreId) (gi : GroupId) (w : TWord) (g : Group) (b : Block) : Prop :=
  s.group l gi = some g ∧ s.block (l / 8) g.block = some b ∧ s.groupRuns l g = true ∧ s.atWord op l g b w = true ∧
  wordOk op (launchFld b.body 97 1) (launchFld b.body 80 4) w = true

/-- Group `h` is `g` after an instruction that gives its destination the value `f k` in each acting lane `k`: a vector destination
takes it in those lanes (a pair of registers for 64 bits), a uniform one takes the lowest acting lane's, once; register 255 takes
nothing; the group is ready at the next word, and nothing else of it has changed. -/
def Wrote (w : TWord) (g h : Group) (wide : Bool) (f : Nat → W64) : Prop :=
  h = { g with v := h.v, u := h.u, pc := g.pc + w.bytes, fills := [], status := .ready } ∧
  (w.ud = false → h.u = g.u ∧ ∀ r lane, r < 255 → lane < 32 →
    h.vreg r lane =
      if lane ∈ w.acting g ∧ r = w.dst.toNat then (f lane).setWidth 32
      else if wide = true ∧ lane ∈ w.acting g ∧ w.dst.toNat ≠ 255 ∧ r = w.dst.toNat + 1 then (f lane).extractLsb' 32 32
      else g.vreg r lane) ∧
  (w.ud = true → h.v = g.v ∧ ∀ r, r < 255 →
    h.ureg r = match w.acting g with
      | [] => g.ureg r
      | k :: _ => if r = w.dst.toNat then (if wide then f k else low32 (f k)) else g.ureg r)

/-- Group `h` is `g` after an instruction that gives predicate `i` the value `f k` in each lane `k` of `lanes`; p7 takes nothing. -/
def WrotePred (w : TWord) (g h : Group) (i : Nat) (lanes : List Nat) (f : Nat → Bool) : Prop :=
  h = { g with p := h.p, pc := g.pc + w.bytes, fills := [], status := .ready } ∧
  ∀ j lane, j < 8 → lane < 32 →
    h.pred j lane = if j = i ∧ j ≠ 7 ∧ lane ∈ lanes then f lane else g.pred j lane

/-- Nothing but the group `gi` of core `l`, the work that its engine counts, memory and the byte counters has changed. -/
def OnlyGroupAndMemory (s t : State) (l gi : Nat) : Prop :=
  t = { s with cores := t.cores, counts := t.counts, mem := t.mem, lost := t.lost } ∧ (∀ k, k ≠ l → t.core k = s.core k) ∧
  t.core l = { s.core l with ve := { (s.core l).ve with groups := (t.core l).ve.groups }, nominal := (t.core l).nominal } ∧
  ∀ k, k ≠ gi → t.group l k = s.group l k

/-- Group `gi` of core `l`, which was `g`, halts with a fault code (R125): it keeps its registers, and no byte of memory, no
other group and no other core changes. -/
def Halts (s t : State) (l gi : Nat) (g : Group) (code : Nat) : Prop :=
  SameBytes s t ∧ t.group l gi = some { g with status := .halted code, fills := [] } ∧
  (∀ k, k ≠ gi → t.group l k = s.group l k) ∧ (∀ k, k ≠ l → t.core k = s.core k)

/-- No control cache holds a line, none is under way, and no golden copy is armed: memory alone holds every byte. -/
def Plain (s : State) : Prop := s.presence = [] ∧ s.inFlight = [] ∧ ∀ a, s.armedAt a = none

/-- Group `h` is `g` after a load of `width` that found the bytes `f k` for lane `k`. -/
def Loaded (w : TWord) (g h : Group) (width : Nat) (f : Nat → List Byte) : Prop :=
  (width ≠ 6 → Wrote w g h (decide (width = 5)) fun k => loadedVal width (f k)) ∧
  (width = 6 →
    h = { g with v := h.v, pc := g.pc + w.bytes, fills := [], status := .ready } ∧
    ∀ r lane, r < 255 → lane < 32 → h.vreg r lane =
      if lane ∈ w.acting g ∧ w.dst.toNat ≤ r ∧ r < w.dst.toNat + 4
      then BitVec.ofNat 32 (fieldLe (f lane) (4 * (r - w.dst.toNat)) 4) else g.vreg r lane)

/-- The bytes of a range in context `ctx` of a DMA engine translate, in one piece, to this module's bytes at `t`, whichever of its
range-cache entries answers. -/
def DeReaches (s : State) (l p ctx a n t : Nat) : Prop :=
  s.remoteOf t = none ∧ s.targetStalls t n = false ∧ s.targetHere t n = true ∧
  (∀ k off, windowOf t = some (k, off) → off + n ≤ s.blockLm k) ∧ (s.core l).l1x.length ≤ 32 ∧
  if ctx = 255 ∧ isDirect a = true then t = a ∧ ∃ m, s.directLen p a = some m ∧ n ≤ m
  else
    let hits (e : XEntry) : Prop := e.ctx = ctx ∧ e.start ≤ a ∧ a < e.start + e.len
    (∃ e ∈ (s.core l).l1x, hits e) ∧ ∀ e ∈ (s.core l).l1x, hits e → ∃ m a', s.throughEntry p e a = .here t m a' ∧ n ≤ m

/-- Entry `e` of core `l`'s DMA queue is a started instruction of opcode `op` at its first byte, which nothing holds up. -/
def DmaStarted (s : State) (l : CoreId) (p : Nat) (e : QEntry) (op : Nat) : Prop :=
  s.entry l 2 e.acc = some e ∧ s.partOf l = some p ∧ e.desc.opcode = op ∧ e.st = .running ∧ e.done = false ∧ e.void = false ∧ e.fault = none ∧
  e.walk = none ∧ e.held = none ∧ e.buf = [] ∧ e.sub = 0 ∧ e.progress = 0 ∧ e.discs = [] ∧ e.index = none ∧
  e.bkCount = [] ∧ e.bkDone = [] ∧ (s.core l).deStopped = false ∧ s.fenced l = false

/-- No unit makes trace records: no applied mode word, and none that an entry was pushed under, has TRACE set (R396, R370). -/
def Untraced (s : State) : Prop :=
  (∀ u, traceBit (s.mode 0 u).2 = false) ∧ ∀ l q, ∀ e ∈ (s.queue l q).entries, traceBit e.mode.2 = false

/-- Registers of which a write does nothing more than leave its word: they hold only RW and RO fields. -/
def plainRegs : List RegName :=
  [.STO_KS_ADDR_LO, .STO_KS_ADDR_HI, .STO_KS_LEN, .CORE_SPAN_BASE_LO, .CLU_DIST_CFG, .CLU_DIST_RING_LO, .CLU_DIST_RING_HI,
   .GRT_PT_BASE_LO, .GRT_PT_BASE_HI, .GRT_PT_COUNT, .GRT_PT_CFG, .STK_SPLIT, .MOD_XLT_CTX_LO, .MOD_XLT_CTX_HI, .MOD_XLT_S2_LO,
   .MOD_XLT_S2_HI, .MOD_XLT_PIN_LO, .MOD_XLT_PIN_HI, .FCH_VIEW_WHERE, .FCH_GROUP, .DB_CFG, .DB_RING_LO,
   .RMT_BASE_LO, .RMT_BASE_HI, .RMT_LEN, .RMT_SRC, .MOD_MODE_NEXT, .MOD_DAMP_TIME_LO, .MOD_DAMP_TIME_HI,
   .MOD_DAMP_RES_LO, .MOD_DAMP_RES_HI, .MOD_DAMP_BUF_LO, .MOD_DAMP_BUF_HI, .MOD_OBS_CFG, .MOD_OBS_EXP_LO, .MOD_OBS_EXP_HI,
   .MOD_TRC_BASE_LO, .MOD_TRC_BASE_HI, .MOD_TRC_CTRL, .MOD_TRC_HEAD]

/-- The newest record of the ash log is of a kind and a severity. -/
def Logged (t : State) (kind severity : Nat) : Prop :=
  ∃ r, t.sto.ash.getLast? = some r ∧ r.kind.toNat = kind ∧ r.severity = severity

/-- A unit starts nothing more (R389). -/
def State.isStopped (t : State) : ModeUnit → Bool
  | .cc l => (t.cc l).stopped
  | .ve l => (t.core l).ve.stopped
  | .mu l => (t.core l).mu.stopped
  | .de l => (t.core l).deStopped
  | .dist c => (t.cluster c).stopped
  | .sched k => (t.stack k).stopped

/-- Every thread instruction with its opcode (5.3). -/
def threadOps : List (Nat × (CoreId → GroupId → TWord → Instr)) :=
  [(0x000, .nop), (0x001, .iadd), (0x002, .isub), (0x003, .imul), (0x004, .imulhi), (0x005, .imad), (0x006, .idiv),
   (0x007, .irem), (0x008, .imin), (0x009, .imax), (0x00A, .iabs), (0x00B, .blut), (0x00C, .shl), (0x00D, .shr),
   (0x00E, .popc), (0x00F, .clz), (0x010, .brev), (0x011, .bfe), (0x012, .bfi), (0x013, .mov)] ++
  [(0x040, .fadd), (0x041, .fmul), (0x042, .ffma), (0x043, .fmin), (0x044, .fmax), (0x045, .frcp), (0x046, .frsq),
   (0x047, .fsqrt), (0x048, .fexp2), (0x049, .flog2), (0x04A, .fsin), (0x04B, .fcos), (0x050, .hadd2), (0x051, .hmul2),
   (0x052, .hfma2), (0x053, .hmin2), (0x054, .hmax2), (0x080, .cvt), (0x081, .cvti), (0x082, .cvtx), (0x083, .mxscale),
   (0x084, .cvts), (0x085, .pack6), (0x086, .unpk6)] ++
  [(0x0C0, .icmp), (0x0C1, .fcmp), (0x0C2, .plut), (0x0C3, .pick), (0x0C4, .pget), (0x0C5, .pput), (0x100, .bra),
   (0x101, .split), (0x102, .join), (0x103, .exit), (0x104, .bsync), (0x140, .ldl), (0x141, .stl), (0x142, .atoml),
   (0x143, .ldf), (0x144, .stf), (0x180, .ldg), (0x181, .stg), (0x182, .atomg), (0x183, .pref), (0x184, .ldw),
   (0x185, .stw), (0x200, .xlane), (0x201, .vote), (0x202, .gred), (0x240, .groupCwait), (0x241, .groupCsig),
   (0x280, .mqpush), (0x2C0, .fence), (0x300, .rdsr), (0x301, .flagclr)]

end Sys2Proof.Machine
end

