-- ==== Sys2Proof/WellFormed.lean ====
section
/-!
DEFINITION. Well-formed commands: operands that the spec's formats and tables allow. A field whose type already holds
exactly what the spec admits needs no check.
-/

namespace Sys2Proof

open Machine

/-- The word after an instruction is its literal only when B is a literal (R129). -/
def TWord.literalOk (w : TWord) : Bool := w.bcls == 3 || w.lit == 0

/-- A queue selector names a queue: selector 3 names none (R79). -/
def selOk (q : QSel) : Bool := decide (q.val ≠ 3)

/-- A line of 256 bytes of the 42-bit physical address space (R71, Table 9.1). -/
def lineOk (line : Nat) : Bool := decide (line < 2 ^ 34)

/-- An address of a memory row of Table 9.1 in some variant. -/
def placeOk (a : Nat) : Bool :=
  decide (a < nearEnd) || (decide (ringBase ≤ a) && decide (a < ringBase + 2 ^ 40)) ||
  (decide (scratchBase ≤ a) && decide (a < scratchEnd))

/-- A word of counter space that holds a counter (Table 11.3). -/
def counterOk (k : Nat) : Bool := (counterScope k).isSome

/-- The function codes of the atomic instructions of the A extension but for LR and SC (R78). -/
def amoCode (f5 : BitVec 5) : Bool := [0x00, 0x01, 0x04, 0x08, 0x0C, 0x10, 0x14, 0x18, 0x1C].contains f5.toNat

/-- A request of 1 to 4,096 bytes below the end of the physical address space. -/
def HomeOp.wf : HomeOp → Bool
  | .read a n _ => decide (1 ≤ n) && decide (n ≤ 4096) && decide (a + n ≤ 2 ^ 42)
  | .write a bs => decide (1 ≤ bs.length) && decide (bs.length ≤ 4096) && decide (a + bs.length ≤ 2 ^ 42)

/-- A packet of 1 to 17 flits (R300): its data fit, and a READ or a REFUSE carries none (Tables 12.5, 12.6). -/
def Packet.wf (pk : Packet) : Bool :=
  if Packet.carries pk.op.toNat then decide (pk.data.length ≤ 4096) && decide (pk.data.length = pk.len.toNat)
  else pk.data == []

/-- An ECDSA P-384 signature: two numbers of 384 bits (R416). -/
def MgmtSig.wf (x : MgmtSig) : Bool := decide (x.r < 2 ^ 384) && decide (x.s < 2 ^ 384)

/-- An image's arena table is at most 64 entries (R91). -/
def Image.wf (x : Image) : Bool := decide (x.arenas.length ≤ 64)

/-- The operands of a command that the spec admits. -/
def Instr.wf (i : Instr) : Bool :=
  match i with
  | .qpush _ _ _ _ f7 | .qstat _ _ _ f7 | .cwait _ _ _ _ f7 | .gtb _ _ f7 => f7 == 0
  | .csig _ _ _ _ f7 => decide (f7.toNat ≤ 2)
  | .ccLoad _ _ _ _ f3 => f3 != 7
  | .ccStore _ _ _ _ f3 | .accessMemory _ _ f3 _ => decide (f3.toNat < 4)
  | .ccAmo _ f5 _ _ _ _ => amoCode f5
  | .readSnoop _ line | .ownershipSnoop _ line => lineOk line
  | .homeRequest _ op => op.wf
  | .imageLoad _ img => img.wf
  | .instrStart _ q | .instrComplete _ q _ | .instrCommit _ q _ | .recordStoreUe _ q _ _ => selOk q
  | .l1Fill _ line => decide (line < 2 ^ 35)
  | .signalAdd m => m.kind == .add && counterOk m.ctr
  | .signalRaise m => m.kind == .raise && counterOk m.ctr
  | .slotRegWrite _ r _ | .setAliasWrite _ r _ | .clearAliasWrite _ r _ | .toggleAliasWrite _ r _
  | .registerWrite _ r _ => r.exists?
  | .waitRegister _ c _ => counterOk c
  | .memSideOp op => placeOk op.addr
  | .nearUe addr _ | .ringUe addr | .hearthUe ⟨addr, _⟩ | .patrolScrub addr _ => placeOk addr
  | .itemPush _ _ _ bs | .headerPush _ _ _ bs => decide (bs.length = 64)
  | .linkCreditsReceive _ cs => decide (cs.length = 8)
  | .flitReceive _ bs => decide (bs.length = 256)
  | .read _ pk | .write _ pk | .readData _ pk | .writeAck _ pk | .refuse _ pk | .signal _ pk | .signalAck _ pk
  | .register _ pk | .wake _ pk | .counterRead _ pk | .value _ pk | .mgmt _ pk | .packetTransit _ pk => pk.wf
  | .hostRead _ _ _ n => decide (1 ≤ n) && decide (n ≤ 4096)
  | .hostWrite _ _ _ bs => decide (1 ≤ bs.length) && decide (bs.length ≤ 512)
  | .sysbusAccess addr _ => decide (addr < 2 ^ 42)
  | .spdmKeyExchange x y => decide (x < 2 ^ 384) && decide (y < 2 ^ 384)
  | .provision _ _ sg | .revoke _ sg => sg.wf
  | .nop _ _ w | .iadd _ _ w | .isub _ _ w | .imul _ _ w | .imulhi _ _ w | .imad _ _ w | .idiv _ _ w | .irem _ _ w
  | .imin _ _ w | .imax _ _ w | .iabs _ _ w | .blut _ _ w | .shl _ _ w | .shr _ _ w | .popc _ _ w | .clz _ _ w
  | .brev _ _ w | .bfe _ _ w | .bfi _ _ w | .mov _ _ w | .fadd _ _ w | .fmul _ _ w | .ffma _ _ w | .fmin _ _ w
  | .fmax _ _ w | .frcp _ _ w | .frsq _ _ w | .fsqrt _ _ w | .fexp2 _ _ w | .flog2 _ _ w | .fsin _ _ w | .fcos _ _ w
  | .hadd2 _ _ w | .hmul2 _ _ w | .hfma2 _ _ w | .hmin2 _ _ w | .hmax2 _ _ w | .cvt _ _ w | .cvti _ _ w | .cvtx _ _ w
  | .mxscale _ _ w | .cvts _ _ w | .pack6 _ _ w | .unpk6 _ _ w | .icmp _ _ w | .fcmp _ _ w | .plut _ _ w
  | .pick _ _ w | .pget _ _ w | .pput _ _ w | .bra _ _ w | .split _ _ w | .join _ _ w | .exit _ _ w | .bsync _ _ w
  | .ldl _ _ w | .stl _ _ w | .atoml _ _ w | .ldf _ _ w | .stf _ _ w | .ldg _ _ w | .stg _ _ w | .atomg _ _ w
  | .pref _ _ w | .ldw _ _ w | .stw _ _ w | .xlane _ _ w | .vote _ _ w | .gred _ _ w | .groupCwait _ _ w
  | .groupCsig _ _ w | .mqpush _ _ w | .fence _ _ w | .rdsr _ _ w | .flagclr _ _ w => w.literalOk
  | .qpushAdmission _ | .ccInstruction _ _ | .ccLr _ _ _ _ | .ccSc _ _ _ _ _ | .ccFence _ _ | .mfpflagsClear _ _ _ _
  | .ccInterrupt _ _ | .mtimecmpMatch _ | .ccLineFill _ | .writebackDone _ | .ccCfgWrite _ _ _ | .spanBaseWrite _ _ _
  | .spanCountWrite _ _ _ | .launch _ | .gridEntryAppend _ _ | .distClaim _ _ | .blockStart _ | .veCfgWrite _ _ _
  | .splitApply _ | .veKill _ _ _ | .gridKillComplete _ _ | .mqpushAdmission _ _ | .mma _ | .muStationaryLoad _
  | .muDrainFence _ | .muPairClose _ | .cubeError _ _ | .muCubesWrite _ _ _ | .attend _ _ | .grateDispatch _
  | .grateWorkItemEnd _ _ | .attendComplete _ _ _ | .grateEngineFail _ _ | .copy _ _ | .gather _ _ | .scatter _ _
  | .bucket _ _ | .fill _ _ | .reduce _ _ | .xltWalkDone _ _ | .faultResolveRetry _ _ _ _
  | .faultResolveDiscard _ _ _ _ | .frHeadWrite _ _ _ | .xltSwapGo _ _ _ | .xltSwapDone _ | .xltInvalidateGo _ _ _
  | .xltInvalidateDone _ | .signalSend _ | .barrierArrive _ _ _ | .waitRetryTimer _ | .waitWake _ | .viewSnapshot _ _
  | .goldArm _ _ _ | .goldDisarm _ _ _ | .goldCompareDone _ _ | .stkTempSample _ _ | .regionTempSample _ _
  | .headWindowRead _ _ _ | .packetRelease _ _ _ _ | .sqCfgWrite _ _ _ _ | .sqResvWrite _ _ _ | .censusWindow _ _
  | .agingPromote _ _ _ _ | .linkEnable _ | .linkDisable _ | .linkLight _ _ | .linkLocked _ | .linkParamReceive _ _
  | .linkTrainingTimeout _ | .linkLanefail _ _ | .linkMapReceive _ _ _ | .laserInputLoss _ | .nakReceive _ _
  | .ackTimer _ | .routeSwapTime _ | .packetResendTimeout _ | .timeSyncSend | .timeSync _ _ _ | .timeReply _ _ _ _ _
  | .ppsEdge | .ppsLossTimeout | .gtbDieCheck _ | .refclkLoss | .refclkReturn | .doorbellRing _ _ _ _
  | .triggerArm _ _ _ | .vfFlr _ | .pfFlr | .datapathCheckFail _ | .volatileUe _ | .heartbeatTimeout _
  | .migrationComplete _ | .lagSample _ _ | .testSlice _ _ | .testSliceRun _ _ _ | .testSliceEnd _ _
  | .lossResume _ _ | .ashRecordReadable | .alogPop _ | .perfReqWrite _ _ _ _ | .voltageSlewDone _
  | .clockSwitchDone _ | .powerCapSample _ _ | .neighbourCapStep _ | .pwrEventDemand _ _ | .pwrEventParkReq _ _
  | .pwrEventOffReq _ _ | .domainDemand _ | .domainIdle _ _ | .domainReady _ | .domainActionDone _ | .domainTimeout _
  | .domainOvertemp _ | .domainFault _ | .modeChangeGo _ _ _ | .modeApply _ _ | .modeProgressRaise _ | .damperArm _
  | .damperResume _ | .damperTimeReached | .unitStop _ | .moduleQuiet | .damperResumeTimeReached | .debugHaltReq _
  | .debugResumeReq _ | .debugSingleStep _ | .ebreak _ | .triggerHit _ _ | .accessRegister _ _ _ _ | .progbufExec _
  | .counterExport | .budgetRefill | .ksGo _ _ | .ksStart | .ksCopyDone | .ksApply _ | .standbyPowerUp _
  | .pg48Assert | .bootPhaseDone _ | .pg48Deassert | .resetN | .pldmRestart | .i3cDaa _ _ | .pldmDiscovery _
  | .pldmGetSensor _ _ | .pldmFirmwareUpdate _ _ | .pldmAshLogRead _ | .spdmGetMeasurements _ | .spdmChallenge _
  | .retainedStateUe _ _ | .bridgeLaneFail _ _ | .pseudoChannelFail _ _ | .laserInputReturn _ | .standbyPowerLoss
  | .resetNRelease => true

end Sys2Proof
end

