-- ==== Sys2Proof/Certificates/Slice0/Obligations.lean ====
section
/-!
DEFINITION. The statements made of the block for the provers, one definition each.
-/

open Sys2Proof Sys2Proof.Machine

/-- For every command c and state s, a step of s with c at the front of its queue answers exactly what exec answers for c on s
with the rest of the queue. It rests on the model's queue of commands (log entry 1), and on no numbered rule.
(95_what_each_step_holds) -/
def Obligations.StepRunsFrontCommand : Prop :=
  ∀ (c : Instr) (rest : List Instr) (s : State),
    step { s with pending := c :: rest } = exec c { s with pending := rest }

/-- In the state after reset every counter of counter space holds 0, has not saturated and has no waiter (R270), and the signal
sequence of every control core (R67) and of every engine queue (R86) reads 0, so that the first signal stamped carries 1.
Memory lists nothing and is in the canonical form that every step keeps, and each byte reads the value that log entry 5 names
(a design choice: the spec gives no contents). (R270, R67, R86, 09_memory_system) -/
def Obligations.StateAfterReset : Prop :=
  (∀ k, State.reset.counter k = {}) ∧
  (∀ k, (State.reset.counter k).value = 0 ∧ (State.reset.counter k).sat = false ∧ (State.reset.counter k).waiters = []) ∧
  (∀ l : CoreId, (State.reset.cc l).sigSeq = 0) ∧
  (∀ (l : CoreId) (q : Nat), (State.reset.queue l q).sigSeq = 0 ∧ (State.reset.queue l q).accepted = 0) ∧
  Memory.wf State.reset.mem = true ∧ State.reset.mem = [] ∧ ∀ a, State.reset.byte a = blankByte

/-- For every state whose memory is in the canonical form (addresses strictly rising, no entry equal to what an unlisted address
reads as), and whatever command is at the front of its queue, if a step answers a next state then the memory of that state is
in the canonical form too: equal memories stay equal data. (09_memory_system, 95_what_each_step_holds) -/
def Obligations.MemoryStaysCanonical : Prop :=
  ∀ s t : State, Memory.wf s.mem = true → step s = .next t → Memory.wf t.mem = true

/-- For every opcode and every operand field of a thread instruction at every value that its field of Tables 5.1 and 5.2 admits,
an instruction with B class 3 occupies two words, any other one word; and decoding the words of an encoded instruction, the
second word being the literal where B is one, gives back the opcode and every field. (R128, R129) -/
def Obligations.ThreadWordsRoundTrip : Prop :=
  ∀ (op : BitVec 10) (w : TWord), w.literalOk = true →
    TWord.words op w = (if w.bcls = 3 then [TWord.encode op w, w.lit] else [TWord.encode op w]) ∧
    TWord.decode (TWord.encode op w) w.lit = some (op, w)

/-- When a control core issues GTB from its pc, rd takes its die's copy of the time base. QSTAT on a queue that exists gives a
word whose ACCEPTED, PENDING and FREE fields are the queue's counts. CWAIT whose wait is satisfied gives the value observed
and, with tracing off, changes nothing else; one that is not stalls, with its wait registered at a home that has room. CSIG
stalls with its handle, kind and operand, changing nothing else; and when its signal may leave to a home of this module,
SIGNAL_SEND sends the one signal that bears the next value of the core's signal sequence and the operand, rd takes that
value, and the instruction retires. (R63, R65, R66, R67, R68, R83, R275, R278) -/
def Obligations.XclqReadsWaitsAndSignals : Prop :=
  (∀ (s : State) (l : CoreId) (rd rs1 rs2 : XReg) (len : Nat),
    (CcAt s l (xclqEnc 0 0 0 4 rd) len →
      ∃ t, exec (.gtb l rd 0) s = .next t ∧
        CcRetired (s.cc l) (t.cc l) rd (s.gtb (l.val / 192)) ((s.cc l).pc + 4) ∧ OnlyCC s t l) ∧
    (∀ sel, CcAt s l (xclqEnc 0 0 rs1 1 rd) len → ((s.cc l).xr rs1).toNat = sel → isQueue sel = true →
      ∃ t v, exec (.qstat l rd rs1 0) s = .next t ∧ CcRetired (s.cc l) (t.cc l) rd v ((s.cc l).pc + 4) ∧ OnlyCC s t l ∧
        bitsOf v 63 40 = (s.queue l sel).accepted % 2 ^ 24 ∧ bitsOf v 15 8 = (s.queue l sel).countState .pending % 256 ∧
        bitsOf v 7 0 = (queueDepth sel - (s.queue l sel).entries.length) % 256) ∧
    (∀ h, CcAt s l (xclqEnc 0 rs2 rs1 2 rd) len → ((s.cc l).xr rs1).toNat % 2 ^ 24 = h → s.coreHandle l h = true →
      (s.waitMet (.cc l) (counterOf l h) ((s.cc l).xr rs2) = true →
        ∃ t u, exec (.cwait l rd rs1 rs2 0) s = .next t ∧ t = u.traceWait l false (s.value (counterOf l h)) ∧
          CcRetired (s.cc l) (u.cc l) rd (s.value (counterOf l h)) ((s.cc l).pc + 4) ∧ OnlyCC s u l ∧
          (traceBit (s.mode 0 (.cc l)).2 = false → t = u)) ∧
      (s.waitMet (.cc l) (counterOf l h) ((s.cc l).xr rs2) = false →
        ∃ t, exec (.cwait l rd rs1 rs2 0) s = .next t ∧ SameBytes s t ∧
          t.cc l = { s.cc l with stall := some (.cwait rd (counterOf l h) ((s.cc l).xr rs2)) } ∧
          (s.ownerElsewhere (counterOf l h) = none → s.waitsAt (counterHome (counterOf l h)) < waitDepth →
            SameRegs s t ∧ t.retries = s.retries ∧
            ∃ w ∈ (t.counter (counterOf l h)).waiters, w.who = .cc l ∧ w.expected = (s.cc l).xr rs2))) ∧
    (∀ (kind : BitVec 7) (p : PartId) (h : Nat), CcAt s l (xclqEnc kind.toNat rs2 rs1 3 rd) len → kind.toNat ≤ 2 →
      s.partOf l = some p.val → ((s.cc l).xr rs1).toNat % 2 ^ 24 = h → s.targetOk p kind.toNat h = true →
      ∃ t, exec (.csig l rd rs1 rs2 kind) s = .next t ∧ OnlyCC s t l ∧
        t.cc l = { s.cc l with stall := some (.csig rd h kind.toNat ((s.cc l).xr rs2)) })) ∧
  (∀ (s : State) (l : CoreId) (rd : XReg) (h kind : Nat) (x : W64) (g : Sig), (s.cc l).stall = some (.csig rd h kind x) →
    s.csigReady l = some (rd, g) → homeModule g.home = none → (s.stream (ccStream l).toNat).unsent = [] →
    s.sourceReady (ccStream l) g.msg.seq g.msg.system = true → s.mayFollow (s.stream (ccStream l).toNat) g = true →
    (s.stream (ccStream l).toNat).sent.contains g = false →
    g.msg.seq = (s.cc l).sigSeq + 1 ∧ g.msg.operand = x ∧ g.msg.kind = kindOf kind ∧
    ∃ t, exec (.signalSend (ccStream l)) s = .next t ∧
      CcRetired { s.cc l with sigSeq := (s.cc l).sigSeq + 1 } (t.cc l) rd (((s.cc l).sigSeq + 1).setWidth 64)
        ((s.cc l).pc + 4) ∧
      (t.stream (ccStream l).toNat).sent = (s.stream (ccStream l).toNat).sent ++ [g] ∧
      (t.stream (ccStream l).toNat).unsent = [] ∧ t = { s with cores := t.cores, streams := t.streams } ∧ SameBytes s t ∧
      (∀ k, k ≠ (ccStream l).toNat → t.stream k = s.stream k) ∧ ∀ k, k ≠ l.val → t.core k = s.core k)

/-- A QPUSH from a 128-byte aligned DMEM address to a queue that exists stalls with that address and selector, and changes
nothing else but the requests for a shared record that its cluster holds. Once its queue has a slot, its core a record and no
store waits, its copy of the descriptor is checked: with no failing field the queue's accepted count rises by one, the count
goes to rd, the pc advances, and the entry is the queue's newest, pending, with the new count; with a failing field the core
takes exception 24 with mtval the descriptor's address and the queue is unchanged. (R64, R79, R86, R92, R333) -/
def Obligations.QpushIsAdmittedOrFaults : Prop :=
  (∀ (s : State) (l : CoreId) (rd rs1 rs2 : XReg) (a len : Nat), CcAt s l (xclqEnc 0 rs2 rs1 0 rd) len →
    ((s.cc l).xr rs1).toNat = a → a % 128 = 0 →
    privBase + 0x10000 ≤ a → a < privBase + 0x20000 → isQueue ((s.cc l).xr rs2).toNat = true →
    ∃ t, exec (.qpush l rd rs1 rs2 0) s = .next t ∧
      t.core l = { s.core l with cc := { s.cc l with stall := some (.qpush rd a ((s.cc l).xr rs2).toNat) } } ∧
      t = { s with cores := t.cores, clusters := t.clusters } ∧ SameBytes s t ∧ (∀ k, k ≠ l.val → t.core k = s.core k) ∧
      (∀ c, c ≠ l.val / 8 → t.cluster c = s.cluster c) ∧
      t.cluster (l.val / 8) = { s.cluster (l.val / 8) with recordWait := (t.cluster (l.val / 8)).recordWait }) ∧
  (∀ (s : State) (l : CoreId) (rd : XReg) (a sel : Nat), (s.cc l).stall = some (.qpush rd a sel) →
    (s.cc l).halted = false → (s.cc l).stopped = false → s.fenced l = false → s.quiesced l = false →
    (s.cc l).stores = [] → s.canAccept l sel = true →
    ∃ t, exec (.qpushAdmission l) s = .next t ∧
      (∀ q, q ≠ sel → t.queue l q = s.queue l q) ∧
      let d := descOf ((s.core l).privBytes (a - privBase) 128)
      match firstFail (((s.countStall l).endAsk l).admissionFails l ((s.partOf l).getD 16) sel d).1 with
      | none =>
        CcRetired { s.cc l with resv := (t.cc l).resv } (t.cc l) rd (BitVec.ofNat 64 ((s.queue l sel).accepted + 1))
          ((s.cc l).pc + 4) ∧
        (t.queue l sel).accepted = (s.queue l sel).accepted + 1 ∧
        (t.queue l sel).sigSeq = (stampSeqs sel (s.queue l sel).sigSeq d).2 ∧
        ∃ e, (t.queue l sel).entries = (s.queue l sel).entries ++ [e] ∧ e.acc = (s.queue l sel).accepted + 1 ∧
          e.st = .pending ∧ e.desc = (stampSeqs sel (s.queue l sel).sigSeq d).1
      | some _ =>
        CcTrapped { s.cc l with resv := (t.cc l).resv } (t.cc l) false excAdmission (BitVec.ofNat 64 a) ∧
        t.queue l sel = s.queue l sel)

/-- A non-zero funct7 of QPUSH, QSTAT, CWAIT or GTB, a CSIG kind above 2, a load funct3 of 7 and a store funct3 of 4 or more are
illegal instructions; a QPUSH from a misaligned address is a load address-misaligned fault and one from outside DMEM a load
access fault; a CWAIT on a handle outside the partition's ranges is a load access fault and a CSIG on one a store access
fault; an aligned store to counter space is a store access fault; and an instruction at a pc outside IMEM is an instruction
access fault. In each case nothing but the control core changes. (R60, R61, R62, R63, R64, R66, R67) -/
def Obligations.ReservedXclqAndFaultsTrap : Prop :=
  (∀ (s : State) (l : CoreId) (rd rs1 rs2 : XReg) (len : Nat),
    let traps (w : W32) (i : Instr) (cause : Nat) (tval : W64) : Prop := CcAt s l w len →
      ∃ t, exec i s = .next t ∧ CcTrapped (s.cc l) (t.cc l) false cause tval ∧ OnlyCC s t l
    (∀ f7 : BitVec 7, f7 ≠ 0 →
      traps (xclqEnc f7.toNat rs2 rs1 0 rd) (.qpush l rd rs1 rs2 f7) excIllegal (xclqWord f7.toNat rs2 rs1 0 rd) ∧
      traps (xclqEnc f7.toNat 0 rs1 1 rd) (.qstat l rd rs1 f7) excIllegal (xclqWord f7.toNat 0 rs1 1 rd) ∧
      traps (xclqEnc f7.toNat rs2 rs1 2 rd) (.cwait l rd rs1 rs2 f7) excIllegal (xclqWord f7.toNat rs2 rs1 2 rd) ∧
      traps (xclqEnc f7.toNat 0 0 4 rd) (.gtb l rd f7) excIllegal (xclqWord f7.toNat 0 0 4 rd)) ∧
    (∀ f7 : BitVec 7, 2 < f7.toNat →
      traps (xclqEnc f7.toNat rs2 rs1 3 rd) (.csig l rd rs1 rs2 f7) excIllegal (xclqWord f7.toNat rs2 rs1 3 rd)) ∧
    (∀ imm : BitVec 12,
      traps (loadWord rd rs1 imm 7) (.ccLoad l rd rs1 imm 7) excIllegal ((loadWord rd rs1 imm 7).setWidth 64)) ∧
    (∀ (imm : BitVec 12) (f3 : BitVec 3), 4 ≤ f3.toNat →
      traps (storeWord rs1 rs2 imm f3.toNat) (.ccStore l rs1 rs2 imm f3) excIllegal
        ((storeWord rs1 rs2 imm f3.toNat).setWidth 64)) ∧
    (isQueue ((s.cc l).xr rs2).toNat = true → ((s.cc l).xr rs1).toNat % 128 ≠ 0 →
      traps (xclqEnc 0 rs2 rs1 0 rd) (.qpush l rd rs1 rs2 0) excLoadMisaligned ((s.cc l).xr rs1)) ∧
    (isQueue ((s.cc l).xr rs2).toNat = true → ((s.cc l).xr rs1).toNat % 128 = 0 →
      ((s.cc l).xr rs1).toNat < privBase + 0x10000 ∨ privBase + 0x20000 ≤ ((s.cc l).xr rs1).toNat →
      traps (xclqEnc 0 rs2 rs1 0 rd) (.qpush l rd rs1 rs2 0) excLoadFault ((s.cc l).xr rs1)) ∧
    (s.coreHandle l (((s.cc l).xr rs1).toNat % 2 ^ 24) = false →
      traps (xclqEnc 0 rs2 rs1 2 rd) (.cwait l rd rs1 rs2 0) excLoadFault ((s.cc l).xr rs1) ∧
      ∀ f7 : BitVec 7, f7.toNat ≤ 1 →
        traps (xclqEnc f7.toNat rs2 rs1 3 rd) (.csig l rd rs1 rs2 f7) excStoreFault ((s.cc l).xr rs1)) ∧
    (∀ (imm : BitVec 12) (f3 : BitVec 3) (a : W64), f3.toNat < 4 → (s.cc l).xr rs1 + imm.signExtend 64 = a →
      counterBase ≤ a.toNat → a.toNat < counterEnd → a.toNat % 2 ^ f3.toNat = 0 →
      traps (storeWord rs1 rs2 imm f3.toNat) (.ccStore l rs1 rs2 imm f3) excStoreFault a)) ∧
  (∀ (s : State) (l : CoreId) (w : W32), s.ccRuns l = true →
    (s.cc l).pc.toNat < privBase ∨ privBase + imemBytes ≤ (s.cc l).pc.toNat →
    ∃ t, exec (.ccInstruction l w) s = .next t ∧ OnlyCC s t l ∧
      CcTrapped (s.cc l) (t.cc l) false excFetchFault (s.cc l).pc)

/-- For every fetched word with the fields of ADDI, ADD or SUB, rd takes the sum or difference; of JAL, rd takes the next address
and the pc the target; of BEQ, the pc takes the target when the sources are equal and the next address otherwise. ECALL takes
exception 11 and MRET returns to mepc with MIE taking MPIE. FENCE with no store waiting, and FENCE.I, retire. Clearing bits
of mfpflags gives rd the old flags and clears exactly the bits named in CORE_FP_FLAGS of the core. (R59, R60, R70, R179) -/
def Obligations.ControlCoreInstructionsComplete : Prop :=
  ∀ (s : State) (l : CoreId), CcIssues s l →
    let does (i : Instr) (rd : XReg) (v pc : W64) : Prop :=
      ∃ t, exec i s = .next t ∧ CcRetired (s.cc l) (t.cc l) rd v pc ∧ OnlyCC s t l
    let c := s.cc l
    (∀ w : W32, s.fetchesRaw l w = some 4 →
      (bitsOf w 6 0 = 0x13 → f3Of w = 0 →
        does (.ccInstruction l w) (xregOf (rdOf w)) (c.xr (rs1Of w) + immI w) (c.pc + 4)) ∧
      (bitsOf w 6 0 = 0x33 → f3Of w = 0 → f7Of w = 0 →
        does (.ccInstruction l w) (xregOf (rdOf w)) (c.xr (rs1Of w) + c.xr (rs2Of w)) (c.pc + 4)) ∧
      (bitsOf w 6 0 = 0x33 → f3Of w = 0 → f7Of w = 32 →
        does (.ccInstruction l w) (xregOf (rdOf w)) (c.xr (rs1Of w) - c.xr (rs2Of w)) (c.pc + 4)) ∧
      (bitsOf w 6 0 = 0x6F → does (.ccInstruction l w) (xregOf (rdOf w)) (c.pc + 4) (c.pc + immJ w)) ∧
      (bitsOf w 6 0 = 0x63 → f3Of w = 0 →
        does (.ccInstruction l w) 0 0 (if c.xr (rs1Of w) = c.xr (rs2Of w) then c.pc + immB w else c.pc + 4)) ∧
      (w = 0x00000073 → ∃ t, exec (.ccInstruction l w) s = .next t ∧ CcTrapped c (t.cc l) false excEcallM 0 ∧ OnlyCC s t l) ∧
      (w = 0x30200073 → ∃ t, exec (.ccInstruction l w) s = .next t ∧ OnlyCC s t l ∧ (t.cc l).pc = c.csr csrMepc ∧
        ((t.cc l).csr csrMstatus).getLsbD 3 = (c.csr csrMstatus).getLsbD 7 ∧
        ((t.cc l).csr csrMstatus).getLsbD 7 = true ∧ ∀ r : XReg, (t.cc l).xr r = c.xr r)) ∧
    (∀ (rd rs1 : XReg) (imm : BitVec 12) (fencei : Bool) (len : Nat), s.fetches l (fenceWord fencei rd rs1 imm) = some len →
      fencei = true ∨ c.stores = [] → does (.ccFence l ⟨fencei, rd, rs1, imm⟩) 0 0 (c.pc + BitVec.ofNat 64 len)) ∧
    (∀ (rd : XReg) (imm : Bool) (src : BitVec 5) (len : Nat),
      s.fetches l (encI 0x7C0 src.toNat (if imm then 7 else 3) rd 0x73) = some len →
      let v : W32 := if imm then src.setWidth 32 else (c.xr src.toNat).setWidth 32
      let f := s.reg .CORE_FP_FLAGS (s.physOf l)
      ∃ t, exec (.mfpflagsClear l rd imm src) s = .next t ∧
        CcRetired c (t.cc l) rd (f.setWidth 64) (c.pc + BitVec.ofNat 64 len) ∧ t = { s with cores := t.cores, regs := t.regs } ∧
        SameBytes s t ∧ t.reg .CORE_FP_FLAGS (s.physOf l) = f &&& ~~~v)

/-- An aligned load of every width from IMEM, DMEM or a locked entry gives rd the bytes there, sign-extended for LB, LH and LW
and zero-extended for the rest; an aligned store of every width writes the low bytes of rs2 there, lowest byte first, and
every other private byte, register and byte of memory stays. (R61, R62, R73) -/
def Obligations.PrivateLoadsAndStores : Prop :=
  ∀ (s : State) (l : CoreId) (rs1 : XReg) (imm : BitVec 12) (f3 : BitVec 3) (a : W64) (off len : Nat),
    (s.cc l).xr rs1 + imm.signExtend 64 = a → a.toNat % 2 ^ (f3.toNat % 4) = 0 → privOff a.toNat = some off →
    s.privOk l off (2 ^ (f3.toNat % 4)) = true →
    (∀ rd : XReg, f3.toNat < 7 → CcAt s l (loadWord rd rs1 imm f3.toNat) len →
      ∃ t, exec (.ccLoad l rd rs1 imm f3) s = .next t ∧ OnlyCC s t l ∧
        CcRetired (s.cc l) (t.cc l) rd
          (let v := (s.core l).privLoad off (2 ^ (f3.toNat % 4))
           if f3.toNat < 3 then sext (8 * 2 ^ f3.toNat) v else BitVec.ofNat 64 v) ((s.cc l).pc + BitVec.ofNat 64 len)) ∧
    (∀ rs2 : XReg, f3.toNat < 4 → CcAt s l (storeWord rs1 rs2 imm f3.toNat) len →
      ∃ t, exec (.ccStore l rs1 rs2 imm f3) s = .next t ∧ OnlyCore s t l ∧
        CcRetired (s.cc l) (t.cc l) 0 0 ((s.cc l).pc + BitVec.ofNat 64 len) ∧
        t.core l = { s.core l with cc := t.cc l, priv := (t.core l).priv } ∧
        ∀ o, SMap.get 0 (t.core l).priv o =
          if off ≤ o ∧ o < off + 2 ^ f3.toNat then (leBytes 8 ((s.cc l).xr rs2).toNat).getD (o - off) 0
          else SMap.get 0 (s.core l).priv o)

/-- With no cached copy of any line and no golden copy armed, an aligned AMO on a cacheable address whose power domains are ON
gives rd the old word, sign-extended when it is 32 bits, and leaves the operation's result in memory; LR gives rd the word
and holds a reservation; SC with a reservation on the same line stores rs2 and gives rd 0, and without one stores nothing and
gives rd 1. Every byte outside the word stays. (R76, R78) -/
def Obligations.AtomicsActAtTheHome : Prop :=
  ∀ (s : State) (l : CoreId) (aq rl dbl : Bool) (rd rs1 rs2 : XReg) (t n len : Nat),
    n = (if dbl then 8 else 4) → ((s.cc l).xr rs1).toNat % n = 0 → s.ccPlace l ((s.cc l).xr rs1).toNat n = .cached t →
    t % n = 0 → s.homeAsleep t = false → (s.cc l).stores = [] → s.presence = [] → s.inFlight = [] → s.lost = [] → (∀ a, s.armedAt a = none) →
    (∀ (f5 : BitVec 5) (v : Nat), CcAt s l (amoWord f5.toNat aq rl dbl rs2 rs1 rd) len →
      amoValue f5.toNat n (s.load t n) ((s.cc l).xr rs2) = some v →
      ∃ u, exec (.ccAmo l f5 ⟨aq, rl, dbl⟩ rd rs1 rs2) s = .next u ∧ u.bytes t n = leBytes n v ∧ SameBytesBut s u t n ∧
        (u.cc l).pc = (s.cc l).pc + 4 ∧
        ∀ r : XReg, (u.cc l).xr r = if r.val = 0 then 0 else if r = rd then atomicValue n (s.load t n) else (s.cc l).xr r) ∧
    (CcAt s l (amoWord 2 aq rl dbl 0 rs1 rd) len → ∃ u, exec (.ccLr l ⟨aq, rl, dbl⟩ rd rs1) s = .next u ∧ SameBytes s u ∧ (u.cc l).resv = some (t, n) ∧
      (u.cc l).pc = (s.cc l).pc + 4 ∧
      ∀ r : XReg, (u.cc l).xr r = if r.val = 0 then 0 else if r = rd then atomicValue n (s.load t n) else (s.cc l).xr r) ∧
    (CcAt s l (amoWord 3 aq rl dbl rs2 rs1 rd) len → ∃ u, exec (.ccSc l ⟨aq, rl, dbl⟩ rd rs1 rs2) s = .next u ∧ (u.cc l).resv = none ∧ (u.cc l).pc = (s.cc l).pc + 4 ∧
      SameBytesBut s u t n ∧
      let hit := (s.cc l).resv.any fun r => r.1 / 128 == t / 128
      (∀ r : XReg, (u.cc l).xr r = if r.val = 0 then 0 else if r = rd then (if hit then 0 else 1) else (s.cc l).xr r) ∧
      u.bytes t n = if hit then leBytes n ((s.cc l).xr rs2).toNat else s.bytes t n)

/-- A pending and enabled interrupt of a core with an image that is not halted, stopped, lost, quiesced, or in a load or a CSIG,
is taken: mepc holds the pc, the cause is 7, 16 or 17 with the interrupt bit, and a stalled QPUSH or CWAIT is undone with its
waits dropped. Once the die's time base has reached mtimecmp the timer bit of mip is set and nothing else changes. (R60, R69) -/
def Obligations.ControlCoreInterrupts : Prop :=
  (∀ (s : State) (l : CoreId) (irq : CcIrq), s.imaged l = true → (s.cc l).halted = false → (s.cc l).stopped = false → s.fenced l = false →
    s.quiesced l = false → (∀ rd a f3 n, (s.cc l).stall ≠ some (.load rd a f3 n)) →
    (∀ rd h k x, (s.cc l).stall ≠ some (.csig rd h k x)) → (s.cc l).canTake (irqBit irq) = true →
    ∃ t, exec (.ccInterrupt l irq) s = .next t ∧ CcTrapped (s.cc l) (t.cc l) true (irqBit irq) 0 ∧ SameBytes s t ∧
      SameRegs s t ∧ (∀ k, k ≠ l.val → t.core k = s.core k) ∧
      ∀ k, ∀ w ∈ (t.counter k).waiters, w.who ≠ .cc l) ∧
  (∀ (s : State) (l : CoreId), (s.cc l).mtimecmp.toNat ≤ (s.gtb (l.val / 192)).toNat →
    ∃ t, exec (.mtimecmpMatch l) s = .next t ∧ OnlyCC s t l ∧ ((t.cc l).csr csrMip).getLsbD 7 = true ∧
      (∀ i, i ≠ 7 → ((t.cc l).csr csrMip).getLsbD i = ((s.cc l).csr csrMip).getLsbD i) ∧
      (∀ n, n ≠ csrMip → (t.cc l).csr n = (s.cc l).csr n) ∧ t.cc l = { s.cc l with csrs := (t.cc l).csrs })

/-- A load that waits for a line that no cache holds, for which there is room and whose power domains are ON fills the line in
state K with the home's bytes, completes with the bytes at its address, and the presence filter then names this core alone. A
store at the head of the waiting stores whose line is held in D or K is performed in the cache, and the line becomes D. With
no golden copy armed, a read snoop of a line held in D writes its data home and leaves it in S, one held in K leaves it in S
with no write, and one not held changes nothing. An ownership snoop removes the line and puts a D or K holder's data in
flight. A completed write-back to a home whose power domains are ON stores the oldest line of the eviction buffer there and
frees its entry. (R71, R74, R75, R77) -/
def Obligations.ControlCacheTransitions : Prop :=
  (∀ (s : State) (l : CoreId) (rd : XReg) (a : Nat) (f3 : BitVec 3) (len : Nat), (s.cc l).stores = [] →
    (s.cc l).stall = some (.load rd a f3 len) → a < counterBase → a % 2 ^ (f3.toNat % 4) = 0 → s.ccHolds l (a / 256) = false →
    (s.rivals l (a / 256)).1.length < (s.rivals l (a / 256)).2 → s.holders (a / 256) = [] →
    SMap.get none s.inFlight (a / 256) = none → s.homesAsleep (a / 256 * 256) 256 = false →
    ∃ t, exec (.ccLineFill l) s = .next t ∧ SameBytes s t ∧ t.holders (a / 256) = [l.val] ∧
      (t.core l).lineAt (a / 256) = some { line := a / 256, st := .K, data := lineData (s.bytes (a / 256 * 256) 256) } ∧
      CcRetired (s.cc l) (t.cc l) rd (loadValue f3.toNat (s.bytes a (2 ^ (f3.toNat % 4))))
        ((s.cc l).pc + BitVec.ofNat 64 len)) ∧
  (∀ (s : State) (l : CoreId) (p : PendStore) (rest : List PendStore) (x : CLine), (s.cc l).stores = p :: rest →
    (s.core l).evictAt (p.addr / 256) = none → (s.core l).lineAt (p.addr / 256) = some x → x.st = .D ∨ x.st = .K →
    ∃ t, exec (.ccLineFill l) s = .next t ∧ SameBytes s t ∧ (t.cc l).stores = rest ∧ (t.cc l).pc = (s.cc l).pc ∧
      (t.core l).lineAt (p.addr / 256) = some (CLine.mk (p.addr / 256) .D
        (patchLine x.data (p.addr % 256) (leBytes p.width p.data.toNat)))) ∧
  (∀ (s : State) (l : CoreId) (line : Nat), (∀ a, s.armedAt a = none) →
    ∃ t, exec (.readSnoop l line) s = .next t ∧ SameRegs s t ∧ SameBytesBut s t (line * 256) 256 ∧
      ((s.core l).evictAt line = none → (s.core l).lineAt line = none → t = s) ∧
      (∀ x, (s.core l).evictAt line = none → (s.core l).lineAt line = some x →
        (x.st = .D → t.bytes (line * 256) 256 = x.bytes ∧ (t.core l).lineAt line = some { x with st := .S }) ∧
        (x.st = .K → SameBytes s t ∧ (t.core l).lineAt line = some { x with st := .S }) ∧
        (x.st = .S → t = s)) ∧
      (∀ w, (s.core l).evictAt line = some w → w.line = line →
        t.bytes (line * 256) 256 = w.bytes ∧ (t.core l).evictAt line = none)) ∧
  (∀ (s : State) (l : CoreId) (line : Nat),
    ∃ t, exec (.ownershipSnoop l line) s = .next t ∧ SameBytes s t ∧ (t.core l).lineAt line = none ∧
      (t.core l).evictAt line = none ∧ (∀ k, k ≠ l.val → t.core k = s.core k) ∧ t.cc l = s.cc l ∧
      (∀ d, (s.core l).supplied line = some d → SMap.get none t.inFlight line = some (l.val, d)) ∧
      ((s.core l).supplied line = none → t.inFlight = s.inFlight)) ∧
  (∀ (s : State) (l : CoreId) (w : CLine) (rest : List CLine), (s.core l).evict = w :: rest → (∀ a, s.armedAt a = none) →
    s.homesAsleep (w.line * 256) 256 = false → ∃ t, exec (.writebackDone l) s = .next t ∧ t.bytes (w.line * 256) 256 = w.bytes ∧
      SameBytesBut s t (w.line * 256) 256 ∧ SameRegs s t ∧ (t.core l).evictAt w.line = none)

/-- A range that homes serve is read by any unit with no byte, no register and no core changed, where no control cache holds a
line; a write of bytes to such a range with no golden copy armed leaves exactly those bytes there and every other byte as
before. So it is once the power domains of the range are ON; before, the request stalls. A request of a range that no home
serves stops with noSuchAddress. (R76, R218, R222, R366) -/
def Obligations.HomesServeReadsAndWrites : Prop :=
  (∀ (s : State) (u : Sys2Proof.Unit) (a n : Nat) (stream : Bool), s.isMemoryRange a n = true → s.presence = [] → s.inFlight = [] →
    s.homesAsleep a n = false → ∃ t, exec (.homeRequest u (.read a n stream)) s = .next t ∧ SameBytes s t ∧ SameRegs s t ∧ t.cores = s.cores) ∧
  (∀ (s : State) (u : Sys2Proof.Unit) (a : Nat) (bs : List Byte), s.isMemoryRange a bs.length = true → s.presence = [] →
    s.inFlight = [] → (∀ x, s.armedAt x = none) → s.homesAsleep a bs.length = false →
    ∃ t, exec (.homeRequest u (.write a bs)) s = .next t ∧ t.bytes a bs.length = bs ∧ SameBytesBut s t a bs.length ∧
      SameRegs s t) ∧
  (∀ (s : State) (u : Sys2Proof.Unit) (a n : Nat) (stream : Bool) (bs : List Byte),
    (s.isMemoryRange a n = false → exec (.homeRequest u (.read a n stream)) s = .fault .noSuchAddress) ∧
    (s.isMemoryRange a bs.length = false → exec (.homeRequest u (.write a bs)) s = .fault .noSuchAddress) ∧
    (s.isMemoryRange a n = true → s.homesAsleep a n = true → exec (.homeRequest u (.read a n stream)) s = .next s) ∧
    (s.isMemoryRange a bs.length = true → s.homesAsleep a bs.length = true → exec (.homeRequest u (.write a bs)) s = .next s))

/-- A write of CORE_CC_CFG that R73 allows and that changes it leaves the new value, an empty cache and eviction buffer, and
every private byte of an entry newly locked or unlocked zero, and with nothing dirty no byte of memory changes; one that R73
does not allow changes nothing. A write of the CORE_SPAN_BASE pair takes effect in its address bits, empties the span cache
and takes the copy of the arena table found there, with any line of it that a control cache holds dirty written back first;
where no control cache holds a line, nothing else changes. A write of CORE_SPAN_COUNT leaves the count and an empty span
cache. Each writer is an agent that may write the register. (R73, R91, R96) -/
def Obligations.ControlCoreRegistersTakeEffect : Prop :=
  ∀ (s : State) (a : Agent) (k : PhysId) (l : Nat), s.logicalOf k = some l →
    (∀ v new : W32, s.mayWrite a { name := .CORE_CC_CFG, i := k } = true →
      RegName.written .CORE_CC_CFG (s.reg .CORE_CC_CFG k) v = new →
      (lockedOk new = true → new ≠ s.reg .CORE_CC_CFG k →
        ∃ t, exec (.ccCfgWrite a k v) s = .next t ∧ t.reg .CORE_CC_CFG k = new ∧ (t.core l).cache = [] ∧
          (t.core l).evict = [] ∧
          (∀ off, 0x20000 + 256 * min (s.field .CORE_CC_CFG k 0 5 1) (bitsOf new 5 1) ≤ off →
            off < 0x20000 + 256 * max (s.field .CORE_CC_CFG k 0 5 1) (bitsOf new 5 1) →
            SMap.get 0 (t.core l).priv off = 0) ∧
          ((s.core l).evict = [] → (∀ x ∈ (s.core l).cache, x.st ≠ .D) → SameBytes s t)) ∧
      (lockedOk new = false → exec (.ccCfgWrite a k v) s = .next s)) ∧
    (∀ v : W64, s.mayWrite a { name := .CORE_SPAN_BASE_LO, i := k } = true →
      ∃ t, exec (.spanBaseWrite a k v) s = .next t ∧
        natBits (t.pair .CORE_SPAN_BASE_LO .CORE_SPAN_BASE_HI k) 31 6 = bitsOf v 31 6 ∧
        natBits (t.pair .CORE_SPAN_BASE_LO .CORE_SPAN_BASE_HI k) 41 32 = bitsOf v 41 32 ∧
        (t.core l).spanCache = [] ∧
        (t.core l).arenas = (((t.partOf l).bind fun p =>
          t.partPieces p (t.pair .CORE_SPAN_BASE_LO .CORE_SPAN_BASE_HI k) 2048).map fun ps =>
            arenasOf (ps.flatMap fun x => t.bytes x.1 x.2)).getD [] ∧
        (s.presence = [] → s.inFlight = [] →
          t = { s with cores := t.cores, regs := t.regs, effLo := t.effLo } ∧ SameBytes s t ∧
          ∀ i, i ≠ l → t.core i = s.core i)) ∧
    (∀ v : W32, s.mayWrite a { name := .CORE_SPAN_COUNT, i := k } = true →
      ∃ t, exec (.spanCountWrite a k v) s = .next t ∧ t.reg .CORE_SPAN_COUNT k = v ∧ (t.core l).spanCache = [] ∧
        t = { s with cores := t.cores, regs := t.regs } ∧ SameBytes s t ∧ ∀ i, i ≠ l → t.core i = s.core i)

/-- With tracing off, the oldest unstarted entry of a queue starts when its waits are satisfied and its engine is neither stopped
nor lost: a NOP completes in the same step (behind a paused DMA instruction none starts); a DMA instruction runs when nothing
else does. A running entry whose work is done, with no fault and no remote write open, becomes complete; when all earlier
entries are complete and have sent their signals to the stream, its signals join the stream in slot order with their stamped
numbers, and while an earlier one is not complete they do not. A complete entry with no signal unacknowledged and no remote
write open leaves its queue at commit, and its reduce marks go with it. Only what is named changes, and no byte of memory.
(R80, R81, R87, R88, R276, R278, R337) -/
def Obligations.InstructionsStartCompleteAndCommit : Prop :=
  ∀ (s : State) (l : CoreId) (q : QSel) (e : QEntry) (pre post : List QEntry), Untraced s → isQueue q.val = true →
    (s.queue l q).entries = pre ++ e :: post → (∀ y ∈ pre ++ post, y.acc ≠ e.acc) → e.void = false →
    ((s.queue l q).oldestPending = some e → s.waitsMet l q e = true → s.engineStopped l q = false → s.fenced l = false →
      (e.desc.opcode = 0 → (q.val = 2 → ∀ r ∈ (s.queue l 2).running, r.paused = false) →
        ∃ t x, exec (.instrStart l q) s = .next t ∧ t.entry l q e.acc = some x ∧ x.st = .complete ∧ x.desc = e.desc ∧
          x.unacked = e.desc.sigSlots.map (·.seq) ∧
          t = { s with cores := t.cores, streams := t.streams, counters := t.counters, retries := t.retries } ∧
          SameBytes s t ∧ t.cc l = s.cc l ∧ ∀ k, k ≠ q.val → t.queue l k = s.queue l k) ∧
      (e.desc.opcode ≠ 0 → q.val = 2 → (s.queue l 2).running = [] →
        ∃ t x, exec (.instrStart l q) s = .next t ∧ t.entry l q e.acc = some x ∧ x.st = .running ∧ x.done = false ∧
          x.desc = e.desc ∧ x.pushBase = s.pushCounts l ∧
          t = { s with cores := t.cores, counters := t.counters, retries := t.retries } ∧ SameBytes s t ∧ t.cc l = s.cc l ∧
          (∀ k w, w ∈ (t.counter k).waiters → w.who ≠ entryWaiter l q e.acc) ∧
          ∀ k, k ≠ q.val → t.queue l k = s.queue l k)) ∧
    (e.st = .running → e.done = true → e.paused = false → e.remoteWrites = 0 →
      (∀ y ∈ pre, y.st = .complete → y.sigs = []) → (∀ y, post.head? = some y → y.st ≠ .complete) →
      ∃ t x, exec (.instrComplete l q e.acc) s = .next t ∧ t.entry l q e.acc = some x ∧ x.st = .complete ∧ x.desc = e.desc ∧
        x.unacked = e.desc.sigSlots.map (·.seq) ∧ t = { s with cores := t.cores, streams := t.streams } ∧ SameBytes s t ∧
        t.cc l = s.cc l ∧
        ((∀ y ∈ pre, y.st = .complete) →
          ∃ gs, (t.stream (queueStream l q).toNat).unsent = (s.stream (queueStream l q).toNat).unsent ++ gs ∧
            gs.map (·.msg.seq) = e.desc.sigSlots.map (·.seq) ∧
            gs.map (·.msg.operand) = e.desc.sigSlots.map (·.operand) ∧ x.sigs = []) ∧
        ((∃ y ∈ pre, y.st ≠ .complete) → t.streams = s.streams ∧ x.sigs = e.desc.sigSlots)) ∧
    (e.st = .complete → e.unacked = [] → e.remoteWrites = 0 → e.slot = none → (s.stream (queueStream l q).toNat).away = [] →
      ∃ t, exec (.instrCommit l q e.acc) s = .next t ∧ t.entry l q e.acc = none ∧ (t.queue l q).entries = pre ++ post ∧
        (∀ h el wd, OpRecord.reduceMark h (queueStream l q) e.acc el wd ∉ t.opRecords) ∧
        t = { s with cores := t.cores, opRecords := t.opRecords, deliveries := t.deliveries, remotes := t.remotes,
                     streams := t.streams, regs := t.regs } ∧
        SameBytes s t ∧ t.cc l = s.cc l ∧ (q.val ≠ 2 → t.remotes = s.remotes) ∧
        (∀ n i j, i < 4096 → j < 4096 → ¬(q.val = 1 ∧ n = .CORE_FP_FLAGS ∧ i = s.physOf l) → t.reg n i j = s.reg n i j))

/-- A unit whose applied mode word has TRACE clear, or that belongs to no partition, makes no trace record and changes nothing. A
record that finds its partition's trace ring full, or less than 32 bytes of observation budget, is dropped: MOD_TRC_DROPS
rises by one, holding at its largest value, and nothing else changes. (R396, R397, R401) -/
def Obligations.TraceRecordsFollowTheMode : Prop :=
  ∀ (s : State) (p : PartId) (m : Nat × W32) (r : TraceEv),
    s.traceUnit none m r = s ∧ (traceBit m.2 = false → s.traceUnit (some p.val) m r = s) ∧
    (traceBit m.2 = true →
      (s.field .MOD_TRC_CTRL p 0 24 0 + 2 ^ 25 - s.field .MOD_TRC_HEAD p 0 24 0) % 2 ^ 25 =
        2 ^ s.field .MOD_TRC_CTRL p 0 29 25 ∨ s.obsBudget < 32 →
      OnlyReg s (s.traceUnit (some p.val) m r) .MOD_TRC_DROPS p 0 ∧
      ((s.traceUnit (some p.val) m r).reg .MOD_TRC_DROPS p).toNat = min ((s.reg .MOD_TRC_DROPS p).toNat + 1) (2 ^ 32 - 1))

/-- The oldest unstarted LAUNCH of a core that is neither stopped nor lost, with its waits met and a grid slot free, starts: its
entry runs and names the slot, which holds the grid with its launch body, block count and, in ring mode, its ring. With no
control cache holding a line, a ring-mode grid whose ring has room appends its 64-byte entry at the tail and raises the tail
by one, in memory, and every other byte stays. A kill written for a grid that has no block record marks the grid killed; a
killed grid with no block left completes its LAUNCH, frees its slot and sets KILLED. (R106, R107, R108, R109) -/
def Obligations.GridsStartAndAppendEntries : Prop :=
  (∀ (s : State) (l : CoreId) (e : QEntry) (k : Nat), (s.queue l 0).oldestPending = some e → s.entry l 0 e.acc = some e →
    e.desc.opcode = 1 → s.waitsMet l 0 e = true → s.engineStopped l 0 = false → s.fenced l = false →
    e.void = false → s.freeSlot l = some k → traceBit (s.mode 0 (.ve l)).2 = false →
    ∃ t g x, exec (.launch l) s = .next t ∧ t.grid l k = some g ∧ g.acc = e.acc ∧ g.publisher = l.val ∧ g.pslot = k ∧
      g.body = e.desc.body ∧ g.total = blocksOf e.desc.body ∧ g.entry = none ∧ g.next = 0 ∧ g.ended = 0 ∧
      g.ring = (if (e.desc.fld 99 1).testBit 7 then some (e.desc.fld 99 1 % 4) else none) ∧
      g.killed = (g.ring.isNone && decide (s.blockLm l < localOf g.body)) ∧
      t.entry l 0 e.acc = some x ∧ x.st = .running ∧ x.slot = some k ∧ SameBytes s t ∧ t.cc l = s.cc l ∧
      (∀ c w, w ∈ (t.counter c).waiters → w.who ≠ entryWaiter l 0 e.acc) ∧
      (g.killed = false → t = { s with cores := t.cores, counters := t.counters, retries := t.retries } ∧
        ∀ c, c ≠ l.val → t.core c = s.core c)) ∧
  (∀ (s : State) (l : CoreId) (slot : Fin 4) (g : Grid) (p r x y h : Nat), s.grid l slot = some g → s.partOf l = some p →
    g.ring = some r → g.entry = none → g.publisher = l.val → g.killed = false → s.presence = [] → s.inFlight = [] →
    (∀ a, s.armedAt a = none) →
    s.pinnedLocal p (s.ringAddr (l / 8) r) 16 = some [(h, 16)] → s.isMemoryRange h 16 = true →
    s.load (h + 12) 4 ≠ 0 → (s.load (h + 8) 4 + 2 ^ 32 - s.load (h + 4) 4) % 2 ^ 32 < s.load (h + 12) 4 →
    s.entryHeld p r ((s.load (h + 8) 4 + 2 ^ 32 - s.load (h + 12) 4) % 2 ^ 32) = false →
    s.pinnedLocal p (ringEntry (s.ringAddr (l / 8) r) (s.load (h + 12) 4) (s.load (h + 8) 4)) 64 = some [(x, 64)] →
    s.pinnedLocal p (s.ringAddr (l / 8) r + 8) 4 = some [(y, 4)] → s.isMemoryRange x 64 = true →
    s.isMemoryRange y 4 = true → x + 64 ≤ y ∨ y + 4 ≤ x →
    ∃ t, exec (.gridEntryAppend l slot) s = .next t ∧ t.grid l slot = some { g with entry := some (s.load (h + 8) 4) } ∧
      t.bytes x 64 = leBytes 56 g.body.toNat ++ leBytes 2 l ++ leBytes 1 slot ++ leBytes 5 0 ∧
      t.bytes y 4 = leBytes 4 (s.load (h + 8) 4 + 1) ∧
      ∀ a, a < x ∨ x + 64 ≤ a → a < y ∨ y + 4 ≤ a → t.byte a = s.byte a) ∧
  (∀ (s : State) (a : Agent) (k : PhysId) (l : CoreId) (b : Fin 4) (g : Grid) (p : PartId), s.logicalOf k = some l.val →
    s.mayWrite a { name := .CORE_VE_KILL, i := k } = true → s.partOf l = some p.val → s.grid l b = some g →
    g.publisher = l.val → g.pslot = b.val → g.killed = false → g.ring = none →
    (∀ c, (s.cluster c).blocks = []) →
    ∃ t, exec (.veKill a k (BitVec.ofNat 32 (2 ^ b.val))) s = .next t ∧ t.grid l b = some { g with killed := true } ∧
      (t.reg .CORE_VE_KILL k).getLsbD b = true ∧ SameBytes s t ∧ t.cc l = s.cc l ∧
      t = { s with cores := t.cores, regs := t.regs }) ∧
  (∀ (s : State) (l : CoreId) (slot : Fin 4) (g : Grid) (p : PartId), s.grid l slot = some g → s.partOf l = some p.val →
    g.killed = true → g.publisher = l.val → g.pslot = slot.val →
    (∀ c, ∀ e ∈ (s.cluster c).blocks, ∀ x, e.2 = some x → x.gridId = g.id → x.st = .ended) →
    ∃ t, exec (.gridKillComplete l slot) s = .next t ∧ t.grid l slot = none ∧
      (t.reg .CORE_VE_STATUS (s.physOf l)).getLsbD 30 = true ∧ (t.reg .CORE_VE_KILL (s.physOf l)).getLsbD slot = false ∧
      (∀ e, s.entry l 0 g.acc = some e → t.entry l 0 g.acc = some { e with done := true }) ∧ SameBytes s t ∧
      t = { s with cores := t.cores, regs := t.regs })

/-- A distributor that is enabled, not stopped and below its limit of pulled blocks claims the block at the head of the next of
its rings that holds one, in turn after the ring it claimed from last: its record, the lowest free one of the cluster, holds
the block's index, its grid and its launch body, and joins the pulled blocks last. The next block of a local-mode grid that
fits starts on its core: a record of the cluster holds it as resident with one group for each of the kernel's groups at the
lowest free local-memory address that fits, and the grid's next index rises. The first pulled block starts the same way on
the core that R111 picks and leaves the pulled blocks. An outstanding L1 miss whose line lies in this module's memory ends:
the groups that wait for it are ready and find the line's bytes, and no byte of memory changes. (R103, R107, R110, R111,
R121, R126) -/
def Obligations.BlocksStartAndLinesArrive : Prop :=
  (∀ (s : State) (c : ClusterId) (ring : Fin 4) (p r : Nat) (h g : List Byte) (s1 s2 : State) (before after : List Nat),
    s.partOfCluster c = some p → s.freeBlockRecord c = some r → s.ringTurns c = before ++ ring.val :: after →
    (∀ x ∈ before, s.claim c p r x = none) → (s.cluster c).stopped = false → (s.cluster c).pulled.length < 8 * (s.activeCores c).length →
    s.partRead (.dist c) p (s.ringAddr c ring) 16 = some (h, s1) → fieldLe h 4 4 ≠ fieldLe h 8 4 → fieldLe h 12 4 ≠ 0 →
    s1.partRead (.dist c) p (ringEntry (s.ringAddr c ring) (fieldLe h 12 4) (fieldLe h 4 4)) 64 = some (g, s2) → fieldLe g 59 1 ≠ 1 →
    ∃ t b, exec (.distClaim c ring) s = .next t ∧ t.block c r = some b ∧ b.st = .pulled ∧ b.index = fieldLe h 0 4 ∧
      b.ring = some ring.val ∧ b.grid = fieldLe h 4 4 ∧ (t.cluster c).nextRing = (ring + 1) % 4 ∧
      b.body = BitVec.ofNat 448 (fieldLe g 0 56) ∧ b.publisher = fieldLe g 56 2 ∧ b.pslot = fieldLe g 58 1 ∧
      (t.cluster c).pulled = (s.cluster c).pulled ++ [r] ∧ ∀ k, k ≠ c.val → t.cluster k = s.cluster k) ∧
  (∀ (s : State) (l : CoreId) (k : Fin 4) (g : Grid) (r : Nat), s.localReady l k = some g →
    s.freeBlockRecord (l / 8) = some r → ((s.core l).ve.distTurn && s.pulledReady l) = false →
    ∃ t b, exec (.blockStart (.locally l k)) s = .next t ∧ t.block (l / 8) r = some b ∧ b.st = .resident ∧
      b.core = l.val ∧ b.index = g.next ∧ b.publisher = l.val ∧ b.pslot = k.val ∧ b.body = g.body ∧
      b.groups.length = groupsOf g.body ∧ s.findLm l (localOf g.body) = some b.lmBase ∧
      (t.grid l k).map (·.next) = some (g.next + 1) ∧ (t.core l).ve.distTurn = true) ∧
  (∀ (s : State) (c : ClusterId) (r : Nat) (b : Block) (l : Nat), s.headPulled c = some (r, b) →
    s.gridDead b.gridId = false → ((s.activeCores c).all fun k => decide (s.blockLm k < b.lmSize)) = false →
    s.pickCore c b = some l →
    (!(s.core l).ve.distTurn && (List.range 4).any fun k => (s.localReady l k).isSome) = false → b.lmSize = localOf b.body →
    ∃ t x, exec (.blockStart (.pulled c)) s = .next t ∧ t.block c r = some x ∧ x.st = .resident ∧ x.core = l ∧
      x.index = b.index ∧ x.body = b.body ∧ x.groups.length = groupsOf b.body ∧
      s.findLm l b.lmSize = some x.lmBase ∧ r ∉ (t.cluster c).pulled ∧ (t.core l).ve.distTurn = false) ∧
  (∀ (s : State) (l : CoreId) (line p a : Nat), s.partOf l = some p → (s.core l).ve.misses.contains line = true →
    s.pinnedPieces p (line * 128) 128 = some [(a, 128)] → s.remoteOf a = none → s.isMemoryRange a 128 = true →
    s.homesAsleep a 128 = false → s.presence = [] → s.inFlight = [] →
    ∃ t, exec (.l1Fill l line) s = .next t ∧ SameBytes s t ∧ SameRegs s t ∧ (t.core l).ve.misses.contains line = false ∧
      (∀ (g : GroupId) (x : Group), s.group l g = some x → x.status = .missed line →
        t.group l g = some { x with status := .ready, fills := SMap.set [] x.fills (lineKey line) (s.bytes a 128) }) ∧
      (∀ (g : GroupId) (x : Group), s.group l g = some x → x.status ≠ .missed line → t.group l g = some x) ∧
      (s.l1Sets l ≠ 0 → (t.core l).ve.l1.head? =
        some { line := line, data := BitVec.ofNat 1024 (ofLe (s.bytes a 128)) }))

/-- A write of CORE_VE_CFG with LMSIZE 2 to 8 by an agent that may write it takes effect at once on a core with no resident
group, and stays pending on a core with one; other values of LMSIZE change nothing. A pending split takes effect when no
group is resident. Where it takes effect, with no grid and no pulled block on the core, LMSIZE reads the new value, nothing
is pending, and no byte outside the core's local memory changes; a value that differs from the one in force leaves the L1
empty and local memory with free values, and the same value leaves both as they are. (R122, R123) -/
def Obligations.SplitOfLocalMemory : Prop :=
  ∀ (s : State) (l : CoreId), (s.core l).ve.grids = [] → (s.cluster (l / 8)).pulled = [] →
    (∀ (a : Agent) (k : PhysId) (v : W32) (n : Nat), s.logicalOf k = some l.val → bitsOf v 7 4 = n →
      s.mayWrite a { name := .CORE_VE_CFG, i := k } = true →
      (2 ≤ n → n ≤ 8 → (s.core l).ve.resident = 0 → (s.core l).ve.resvPending = none →
        ∃ t, exec (.veCfgWrite a k v) s = .next t ∧ t.field .CORE_VE_CFG k 0 7 4 = n ∧
          (n ≠ s.field .CORE_VE_CFG k 0 7 4 → (t.core l).ve.l1 = []) ∧
          (n = s.field .CORE_VE_CFG k 0 7 4 → SameBytes s t ∧ (t.core l).ve.l1 = (s.core l).ve.l1) ∧
          (t.core l).ve.splitPending = none ∧ SameBytesBut s t (localAddr l 0) (n * 65536) ∧ t.cc l = s.cc l) ∧
      (2 ≤ n → n ≤ 8 → (s.core l).ve.resident ≠ 0 →
        ∃ t, exec (.veCfgWrite a k v) s = .next t ∧ (t.core l).ve.splitPending = some n ∧ OnlyCore s t l ∧ t.cc l = s.cc l) ∧
      (n < 2 ∨ 8 < n → exec (.veCfgWrite a k v) s = .next s)) ∧
    (∀ n, 2 ≤ n → n ≤ 8 → (s.core l).ve.resident = 0 → (s.core l).ve.splitPending = some n →
      (s.core l).ve.resvPending = none →
      ∃ t, exec (.splitApply l) s = .next t ∧ t.field .CORE_VE_CFG (s.physOf l) 0 7 4 = n ∧
        (n ≠ s.field .CORE_VE_CFG (s.physOf l) 0 7 4 → (t.core l).ve.l1 = []) ∧
        (n = s.field .CORE_VE_CFG (s.physOf l) 0 7 4 → SameBytes s t ∧ (t.core l).ve.l1 = (s.core l).ve.l1) ∧
        (t.core l).ve.splitPending = none ∧ SameBytesBut s t (localAddr l 0) (n * 65536) ∧ t.cc l = s.cc l)

/-- For every thread instruction: where the group is absent, or is not ready, or its core is stopped or lost, or another word
stands at the group's place in its kernel, the state is unchanged; where the group would issue the word and it is not one
that R135 lets a kernel hold, the command is refused as a malformed word, since no group ever executes it. (R125, R135, R158) -/
def Obligations.MalformedAndIdleThreadWordsDoNothing : Prop :=
  ∀ p ∈ threadOps, ∀ (s : State) (l : CoreId) (gi : GroupId) (w : TWord),
    (s.group l gi = none → exec (p.2 l gi w) s = .next s) ∧
    (∀ g b, s.group l gi = some g → s.block (l / 8) g.block = some b →
      (s.groupRuns l g = false → exec (p.2 l gi w) s = .next s) ∧
      (s.atWord p.1 l g b w = false → exec (p.2 l gi w) s = .next s) ∧
      (s.groupRuns l g = true → s.atWord p.1 l g b w = true → wordOk p.1 (launchFld b.body 97 1) (launchFld b.body 80 4) w = false →
        exec (p.2 l gi w) s = .refused .malformedWord))

/-- An issued integer thread instruction answers a next state in which nothing but its group has changed: it neither faults nor
sets a flag. IADD, ISUB, IMUL, IMAD and SHL give their result modulo 2^32, or modulo 2^64 with W64, in each acting lane or
once for a uniform destination. IDIV by zero gives all ones and IREM by zero gives a; signed division of the most negative
value by −1 gives that value, with remainder zero; other quotients and remainders are those of division that truncates.
(R137) -/
def Obligations.IntegerArithmeticWraps : Prop :=
  ∀ (s : State) (l : CoreId) (gi : GroupId) (w : TWord) (g : Group) (b : Block),
    let does (i : Instr) (op : Nat) (wide : Bool) (f : IntOp) : Prop := Runs s op l gi w g b →
      ∃ t h, exec i s = .next t ∧ OnlyGroup s t l gi ∧ t.group l gi = some h ∧ Wrote w g h wide (f.lane w g wide)
    does (.iadd l gi w) 0x001 w.wide (fun n x y _ => BitVec.ofNat n (x.toNat + y.toNat)) ∧
    does (.isub l gi w) 0x002 w.wide (fun n x y _ => BitVec.ofInt n (x.toInt - y.toInt)) ∧
    does (.imul l gi w) 0x003 w.wide (fun n x y _ => BitVec.ofNat n (x.toNat * y.toNat)) ∧
    does (.imad l gi w) 0x005 w.wide (fun n x y z => BitVec.ofNat n (x.toNat * y.toNat + z.toNat)) ∧
    does (.idiv l gi w) 0x006 w.wide (fun n x y _ =>
      if y = 0 then BitVec.allOnes n
      else if w.opx.getLsbD 0 then
        if x.toInt = -2 ^ (n - 1) ∧ y.toInt = -1 then x else BitVec.ofInt n (x.toInt.tdiv y.toInt)
      else BitVec.ofNat n (x.toNat / y.toNat)) ∧
    does (.irem l gi w) 0x007 w.wide (fun n x y _ =>
      if y = 0 then x
      else if w.opx.getLsbD 0 then
        if x.toInt = -2 ^ (n - 1) ∧ y.toInt = -1 then 0 else BitVec.ofInt n (x.toInt.tmod y.toInt)
      else BitVec.ofNat n (x.toNat % y.toNat)) ∧
    does (.shl l gi w) 0x00C w.wide (fun n x y _ => BitVec.ofNat n (x.toNat * 2 ^ (y.toNat % n))) ∧
    ∀ i ∈ [((0x004 : Nat), Instr.imulhi l gi w), (0x008, .imin l gi w), (0x009, .imax l gi w), (0x00A, .iabs l gi w),
        (0x00B, .blut l gi w), (0x00D, .shr l gi w), (0x00E, .popc l gi w), (0x00F, .clz l gi w), (0x010, .brev l gi w),
        (0x011, .bfe l gi w), (0x012, .bfi l gi w), (0x013, .mov l gi w)],
      Runs s i.1 l gi w g b → ∃ t, exec i.2 s = .next t ∧ OnlyGroup s t l gi

/-- NOP only advances. Each other integer instruction gives its destination, in each acting lane or once for a uniform
destination, the value Table 5.5 gives for its sources: the high half of the product, minimum, maximum, absolute value, table
of bits, right shifts by B modulo the width, bit counts, reversal, field extract and insert (a field that leaves the operand
is the free value of log entry 18), and the copy of B. Nothing but the group changes. (R100, R130, R132, R133) -/
def Obligations.IntegerBitsAndCopies : Prop :=
  ∀ (s : State) (l : CoreId) (gi : GroupId) (w : TWord) (g : Group) (b : Block),
    let does (i : Instr) (op : Nat) (wide : Bool) (f : IntOp) : Prop := Runs s op l gi w g b →
      ∃ t h, exec i s = .next t ∧ OnlyGroup s t l gi ∧ t.group l gi = some h ∧ Wrote w g h wide (f.lane w g wide)
    (Runs s 0x000 l gi w g b → ∃ t, exec (.nop l gi w) s = .next t ∧ OnlyGroup s t l gi ∧
      t.group l gi = some { g with pc := g.pc + w.bytes, fills := [], status := .ready }) ∧
    does (.imulhi l gi w) 0x004 w.wide (fun n x y _ =>
      if w.opx.getLsbD 0 then BitVec.ofInt n (x.toInt * y.toInt / 2 ^ n) else BitVec.ofNat n (x.toNat * y.toNat / 2 ^ n)) ∧
    does (.imin l gi w) 0x008 w.wide (fun _ x y _ =>
      if (if w.opx.getLsbD 0 then y.slt x else y.ult x) then y else x) ∧
    does (.imax l gi w) 0x009 w.wide (fun _ x y _ =>
      if (if w.opx.getLsbD 0 then x.slt y else x.ult y) then y else x) ∧
    does (.iabs l gi w) 0x00A w.wide (fun _ x _ _ => if x.msb then -x else x) ∧
    does (.blut l gi w) 0x00B false (fun n x y z => bitLut (w.opxBits 7 0) n x y z) ∧
    does (.shr l gi w) 0x00D w.wide (fun n x y _ =>
      if w.opx.getLsbD 0 then x.sshiftRight (y.toNat % n) else x >>> (y.toNat % n)) ∧
    does (.popc l gi w) 0x00E w.wide (fun n x _ _ =>
      BitVec.ofNat n ((List.range n).filter fun i => x.getLsbD i).length) ∧
    does (.clz l gi w) 0x00F w.wide (fun n x _ _ =>
      BitVec.ofNat n ((List.range n).takeWhile fun i => !x.getLsbD (n - 1 - i)).length) ∧
    does (.brev l gi w) 0x010 w.wide (fun _ x _ _ => x.reverse) ∧
    does (.bfe l gi w) 0x011 w.wide (fun n x y _ => fieldExtract (w.opx.getLsbD 0) n x y) ∧
    does (.bfi l gi w) 0x012 w.wide (fun n x y z => fieldInsert n x y z) ∧
    does (.mov l gi w) 0x013 w.wide (fun _ _ y _ => y)

/-- FADD, FMUL, FFMA, FMIN, FMAX and FSQRT give the exact result of the decoded operands, with the operand modifiers applied,
rounded once in the mode of OPX[2:0]; the packed forms do so for each half on its own, in FP16 or BF16. FEXP2 gives the
correctly rounded power; FRCP, FRSQ, FLOG2, FSIN and FCOS give one of the codes that their bound admits (which one is a free
value, log entry 2). The flags of the acting lanes join the core's sticky flags, and nothing else changes. (R138, R139, R175,
R176, R178) -/
def Obligations.FloatInstructionsRoundOnce : Prop :=
  ∀ (s : State) (l : CoreId) (gi : GroupId) (w : TWord) (g : Group) (b : Block),
    let does (i : Instr) (op : Nat) (f : Nat → Nat × Nat) : Prop := Runs s op l gi w g b →
      let lanes := if w.ud then (w.acting g).take 1 else w.acting g
      ∃ t h, exec i s = .next t ∧ OnlyGroupAndFlags s t l gi ∧ t.group l gi = some h ∧
        Wrote w g h false (fun k => BitVec.ofNat 64 (f k).1) ∧
        t.reg .CORE_FP_FLAGS (s.physOf l) =
          s.reg .CORE_FP_FLAGS (s.physOf l) ||| BitVec.ofNat 32 (orFlags (lanes.map fun k => (f k).2) % 16)
    let rd := floatRnd w == .rd
    does (.fadd l gi w) 0x040 (FloatOp.lane (fun x y _ => x.add rd y) w g) ∧
    does (.fmul l gi w) 0x041 (FloatOp.lane (fun x y _ => x.mul y) w g) ∧
    does (.ffma l gi w) 0x042 (FloatOp.lane (fun x y z => x.fma rd y z) w g) ∧
    does (.fmin l gi w) 0x043 (FloatOp.lane (fun x y _ => (x.min y, false)) w g) ∧
    does (.fmax l gi w) 0x044 (FloatOp.lane (fun x y _ => (x.max y, false)) w g) ∧
    does (.fsqrt l gi w) 0x047 (FloatOp.lane (fun x _ _ => x.sqrt) w g) ∧
    does (.frcp l gi w) 0x045 (fun k => approxFn 0x045 (BitVec.ofNat 32 (approxArg w g k))) ∧
    does (.frsq l gi w) 0x046 (fun k => approxFn 0x046 (BitVec.ofNat 32 (approxArg w g k))) ∧
    does (.fexp2 l gi w) 0x048 (fun k => fexp2 (approxArg w g k)) ∧
    does (.flog2 l gi w) 0x049 (fun k => approxFn 0x049 (BitVec.ofNat 32 (approxArg w g k))) ∧
    does (.fsin l gi w) 0x04A (fun k => approxFn 0x04A (BitVec.ofNat 32 (approxArg w g k))) ∧
    does (.fcos l gi w) 0x04B (fun k => approxFn 0x04B (BitVec.ofNat 32 (approxArg w g k))) ∧
    does (.hadd2 l gi w) 0x050 (FloatOp.half (fun x y _ => x.add rd y) w g) ∧
    does (.hmul2 l gi w) 0x051 (FloatOp.half (fun x y _ => x.mul y) w g) ∧
    does (.hfma2 l gi w) 0x052 (FloatOp.half (fun x y z => x.fma rd y z) w g) ∧
    does (.hmin2 l gi w) 0x053 (FloatOp.half (fun x y _ => (x.min y, false)) w g) ∧
    does (.hmax2 l gi w) 0x054 (FloatOp.half (fun x y _ => (x.max y, false)) w g)

/-- For NaN every approximation returns the canonical NaN with no flag; FRSQ and FLOG2 of a negative number return it with
invalid; FRCP of a zero gives the infinity of its sign and of an infinity the zero of its sign (log entry 91); FEXP2 never
sets inexact. Otherwise the code returned for a finite operand with a stated bound lies between the first and the last code
that the bound admits. (R138, R176) -/
def Obligations.ApproximationsKeepTheirBounds : Prop :=
  (∀ (fn : Nat) (a : W32), fp32.decode a.toNat = .nan → approxFn fn a = (fp32.nanCode, 0)) ∧
  (∀ (fn : Nat) (a : W32) (m : Nat) (e : Int), fn = 0x046 ∨ fn = 0x049 → fp32.decode a.toNat = .fin true m e → m ≠ 0 →
    approxFn fn a = (fp32.nanCode, flInvalid)) ∧
  (∀ (a : W32) (sg : Bool) (e : Int), fp32.decode a.toNat = .fin sg 0 e → approxFn 0x045 a = (fp32.signed sg fp32.infCode, 0)) ∧
  (∀ (a : W32) (sg : Bool), fp32.decode a.toNat = .inf sg → approxFn 0x045 a = (fp32.signed sg 0, 0)) ∧
  (∀ a : Nat, (fexp2 a).2 < 8) ∧
  (∀ (fn : Nat) (a : W32) (x d : Val), (codeRange x d).1 ≤ (codeRange x d).2 →
    -(2 ^ 31) ≤ (codeRange x d).1 → (codeRange x d).2 < 2 ^ 31 →
    (codeRange x d).1 ≤ ordOf (approxCode fn a x d).1 ∧ ordOf (approxCode fn a x d).1 ≤ (codeRange x d).2)

/-- CVT converts element 0 of A, CVTX the element at the position named, CVTI places the converted element at its position in C
and keeps C's other bits, each through the partition's P4 table named, with the flags of the acting lanes; CVTS divides by
the scale of C first; MXSCALE gives a uniform register the shared scale of the acting lanes' values; PACK6 packs and UNPK6
spreads four 6-bit codes. Nothing else changes. (R140, R141, R142, R172) -/
def Obligations.ConversionsBetweenFormats : Prop :=
  ∀ (s : State) (l : CoreId) (gi : GroupId) (w : TWord) (g : Group) (b : Block),
    let does (i : Instr) (op : Nat) (f : Nat → Nat × Nat) : Prop := Runs s op l gi w g b →
      let lanes := if w.ud then (w.acting g).take 1 else w.acting g
      ∃ t h, exec i s = .next t ∧ OnlyGroupAndFlags s t l gi ∧ t.group l gi = some h ∧
        Wrote w g h false (fun k => BitVec.ofNat 64 (f k).1) ∧
        t.reg .CORE_FP_FLAGS (s.physOf l) =
          s.reg .CORE_FP_FLAGS (s.physOf l) ||| BitVec.ofNat 32 (orFlags (lanes.map fun k => (f k).2) % 16)
    let tbl := s.p4Of l (cvtTable w)
    let a (k : Nat) : Nat := (w.valA g false k).toNat
    let conv (x : Nat) : Nat × Nat := toElem tbl (cvtD w) ((cvtMode w).getD .rne) (elemVal tbl (cvtS w) x)
    does (.cvt l gi w) 0x080 (fun k => conv (a k % 2 ^ codeBits (cvtS w))) ∧
    does (.cvti l gi w) 0x081 (fun k =>
      let sh := slotBits (cvtD w) * cvtPos w
      let c := (w.valC g false k).toNat
      let r := conv (a k % 2 ^ codeBits (cvtS w))
      (c - (c / 2 ^ sh % 2 ^ slotBits (cvtD w)) * 2 ^ sh + r.1 * 2 ^ sh, r.2)) ∧
    does (.cvtx l gi w) 0x082 (fun k => conv (a k / 2 ^ (slotBits (cvtS w) * cvtPos w) % 2 ^ codeBits (cvtS w))) ∧
    does (.cvts l gi w) 0x084 (fun k =>
      toScaled (s.p4Of l (if w.bcls = 2 then cvtTable w else 0)) (cvtD w) ((cvtMode w).getD .rne)
        ((w.valC g false k).toNat % 256) (fp32.decode (a k))) ∧
    (Runs s 0x083 l gi w g b → w.acting g ≠ [] →
      let r := blockScale (cvtD w) ((w.acting g).map fun k => fp32.decode (a k))
      ∃ t h, exec (.mxscale l gi w) s = .next t ∧ OnlyGroupAndFlags s t l gi ∧ t.group l gi = some h ∧ h.v = g.v ∧
        h.pc = g.pc + w.bytes ∧ (w.dst.toNat ≠ 255 → h.ureg w.dst.toNat = BitVec.ofNat 64 r.1) ∧
        t.reg .CORE_FP_FLAGS (s.physOf l) = s.reg .CORE_FP_FLAGS (s.physOf l) ||| BitVec.ofNat 32 (r.2 % 16)) ∧
    (Runs s 0x085 l gi w g b → ∃ t h, exec (.pack6 l gi w) s = .next t ∧ OnlyGroup s t l gi ∧ t.group l gi = some h ∧
      Wrote w g h false (fun k => BitVec.ofNat 64
        (a k % 64 + a k / 2 ^ 8 % 64 * 2 ^ 6 + a k / 2 ^ 16 % 64 * 2 ^ 12 + a k / 2 ^ 24 % 64 * 2 ^ 18))) ∧
    (Runs s 0x086 l gi w g b → ∃ t h, exec (.unpk6 l gi w) s = .next t ∧ OnlyGroup s t l gi ∧ t.group l gi = some h ∧
      Wrote w g h false (fun k => BitVec.ofNat 64
        (a k % 64 + a k / 2 ^ 6 % 64 * 2 ^ 8 + a k / 2 ^ 12 % 64 * 2 ^ 16 + a k / 2 ^ 18 % 64 * 2 ^ 24)))

/-- ICMP and FCMP write the condition, PLUT the table's bit for three predicates, to the predicate named in the acting lanes, p7
excepted; PPUT writes the bits of A where B's bits ask for it; PICK chooses between A and B by a predicate; PGET gathers the
eight predicates; XLANE gives each lane the value of A in its source lane; RDSR reads a special register. FLAGCLR clears the
vector engine's flags that its immediate names. Nothing else changes. (R132, R143, R157) -/
def Obligations.ComparisonsAndPredicates : Prop :=
  ∀ (s : State) (l : CoreId) (gi : GroupId) (w : TWord) (g : Group) (b : Block),
    let preds (i : Instr) (op : Nat) (f : Nat → Bool) : Prop := Runs s op l gi w g b →
      ∃ t h, exec i s = .next t ∧ OnlyGroup s t l gi ∧ t.group l gi = some h ∧
        WrotePred w g h (bitsOf w.dst 2 0) (w.acting g) f
    let does (i : Instr) (op : Nat) (wide : Bool) (f : Nat → W64) : Prop := Runs s op l gi w g b →
      ∃ t h, exec i s = .next t ∧ OnlyGroup s t l gi ∧ t.group l gi = some h ∧ Wrote w g h wide f
    preds (.icmp l gi w) 0x0C0 (fun k =>
      if w.wide then intCond w (w.valA g true k) (w.valB g true k)
      else intCond w ((w.valA g false k).setWidth 32) ((w.valB g false k).setWidth 32)) ∧
    preds (.fcmp l gi w) 0x0C1 (fun k =>
      floatCond w (fp32.decode (w.valA g false k).toNat) (fp32.decode (w.valB g false k).toNat)) ∧
    preds (.plut l gi w) 0x0C2 (fun k => w.opx.getLsbD ((g.pred (bitsOf w.srcA 2 0) k).toNat +
      2 * (g.pred (bitsOf w.srcB 2 0) k).toNat + 4 * (g.pred (bitsOf w.srcC 2 0) k).toNat)) ∧
    does (.pick l gi w) 0x0C3 w.wide (fun k =>
      if g.pred (bitsOf w.srcC 2 0) k != w.opx.getLsbD 3 then w.valA g w.wide k else w.valB g w.wide k) ∧
    (Runs s 0x0C4 l gi w g b → ∃ t h f, exec (.pget l gi w) s = .next t ∧ OnlyGroup s t l gi ∧ t.group l gi = some h ∧
      Wrote w g h false f ∧ ∀ k i, i < 64 → (f k).getLsbD i = (decide (i < 8) && g.pred i k)) ∧
    (Runs s 0x0C5 l gi w g b → ∃ t h, exec (.pput l gi w) s = .next t ∧ OnlyGroup s t l gi ∧ t.group l gi = some h ∧
      h = { g with p := h.p, pc := g.pc + w.bytes, fills := [], status := .ready } ∧
      ∀ j lane, j < 8 → lane < 32 → h.pred j lane =
        if j ≠ 7 ∧ lane ∈ w.acting g ∧ (w.valB g false lane).getLsbD j = true then (w.valA g false lane).getLsbD j
        else g.pred j lane) ∧
    does (.xlane l gi w) 0x200 w.wide (fun k =>
      w.valA g w.wide (xlaneSrc (w.opxBits 1 0) (2 ^ w.opxBits 4 2) k (w.valB g w.wide k).toNat)) ∧
    does (.rdsr l gi w) 0x300 (w.opxBits 5 0 == 5) (fun k =>
      match w.opxBits 5 0 with
      | 0 => BitVec.ofNat 64 k
      | 1 => BitVec.ofNat 64 gi
      | 2 => BitVec.ofNat 64 l
      | 3 => g.active.setWidth 64
      | 4 => BitVec.ofNat 64 (bitsOf (s.reg .CORE_FP_FLAGS (s.physOf l)) 3 0)
      | 5 => s.gtb (l.val / 192)
      | 6 => BitVec.ofNat 64 b.slot
      | _ => BitVec.ofNat 64 (s.lmSize l)) ∧
    (Runs s 0x301 l gi w g b → w.acting g ≠ [] → ∃ t, exec (.flagclr l gi w) s = .next t ∧
      OnlyGroupAndFlags s t l gi ∧
      t.group l gi = some { g with pc := g.pc + w.bytes, fills := [], status := .ready } ∧
      t.reg .CORE_FP_FLAGS (s.physOf l) =
        s.reg .CORE_FP_FLAGS (s.physOf l) &&& ~~~(BitVec.ofNat 32 (bitsOf w.srcB 3 0)))

/-- For the acting lanes S and the predicate named by SRCA[2:0], negated when OPX[2] is set: mode 0 gives the destination
predicate, in the lanes of S, whether the predicate holds in every lane of S; mode 1 whether it holds in some lane; mode 2
whether it has one value in every lane of S; mode 3 gives each destination lane the mask of the lanes of S in which it holds.
Nothing else changes. (R144) -/
def Obligations.VotesOverActingLanes : Prop :=
  ∀ (s : State) (l : CoreId) (gi : GroupId) (w : TWord) (g : Group) (b : Block), Runs s 0x201 l gi w g b →
    let p (k : Nat) : Bool := g.pred (bitsOf w.srcA 2 0) k != w.opx.getLsbD 2
    ∃ t h, exec (.vote l gi w) s = .next t ∧ OnlyGroup s t l gi ∧ t.group l gi = some h ∧
      (w.opxBits 1 0 = 0 → WrotePred w g h (bitsOf w.dst 2 0) (w.acting g) fun _ => decide (∀ k ∈ w.acting g, p k = true)) ∧
      (w.opxBits 1 0 = 1 → WrotePred w g h (bitsOf w.dst 2 0) (w.acting g) fun _ => decide (∃ k ∈ w.acting g, p k = true)) ∧
      (w.opxBits 1 0 = 2 → WrotePred w g h (bitsOf w.dst 2 0) (w.acting g) fun _ =>
        decide (∀ j ∈ w.acting g, ∀ k ∈ w.acting g, p j = p k)) ∧
      (w.opxBits 1 0 = 3 → ∃ m : W32, (∀ k, k < 32 → m.getLsbD k = (decide (k ∈ w.acting g) && p k)) ∧
        Wrote w g h false fun _ => m.setWidth 64)

/-- With an acting lane, an integer GRED gives its uniform destination the sum, minimum, maximum, and, or, or exclusive-or of A
over the acting lanes and leaves the flags alone; an FP32 one gives the value of the fixed tree over the 32 lanes, with the
operation's neutral element in lanes that do not act; an FP32 add may set flags. Nothing else changes. (R145, R176) -/
def Obligations.GroupReductions : Prop :=
  ∀ (s : State) (l : CoreId) (gi : GroupId) (w : TWord) (g : Group) (b : Block), Runs s 0x202 l gi w g b →
    w.acting g ≠ [] →
    ∃ t h, exec (.gred l gi w) s = .next t ∧ OnlyGroupAndFlags s t l gi ∧ t.group l gi = some h ∧ h.v = g.v ∧
      h.pc = g.pc + w.bytes ∧ (∀ r, r < 255 → r ≠ w.dst.toNat → h.ureg r = g.ureg r) ∧
      (w.opxBits 3 0 ≠ 6 → t.regs = s.regs) ∧
      (w.dst.toNat ≠ 255 → h.ureg w.dst.toNat = BitVec.ofNat 64 (
        let vs := (w.acting g).map fun k => (w.valA g false k).setWidth 32
        if w.opxBits 3 0 < 6 then (gredInt (w.opxBits 3 0) (w.opx.getLsbD 4) vs).toNat
        else gredFloat (w.opxBits 3 0) fun k =>
          if (w.acting g).contains k then some (fp32.decode (w.valA g false k).toNat) else none))

/-- Each of the five completes. BRA with a guard that is true in every active lane goes on at the literal's offset. SPLIT below
the declared depth pushes one entry with the join point, the saved mask and the threads not taken, and runs the taken threads
at the next word, or the others at the else point when none are taken; with 16 entries in the engine the oldest 8 move to the
spill area first. JOIN at the join point of the top entry runs the pending threads, or restores the saved mask and goes on
behind the JOIN, and brings spilled entries back when the engine holds none. EXIT takes the acting threads out of every mask
of a group that keeps others; the EXIT of a group's last threads ends the group, which keeps its slot until the last group of
its block ends. BSYNC waits, and when every group of the block that has not ended has arrived all of them are ready. BRA,
SPLIT, JOIN and BSYNC whose guard holds in no active lane only advance. A guard of two values, a SPLIT beyond the depth and a
JOIN elsewhere halt the group with code 6, 5 and 6. (R103, R112, R113, R114, R133, R153) -/
def Obligations.ControlFlowOfGroups : Prop :=
  ∀ (s : State) (l : CoreId) (gi : GroupId) (w : TWord) (g : Group) (b : Block),
    let next : Group := { g with pc := g.pc + w.bytes, fills := [], status := .ready }
    let m := laneMask (w.acting g)
    (Runs s 0x100 l gi w g b → w.guardUniform g = true → w.acting g ≠ [] →
      ∃ t, exec (.bra l gi w) s = .next t ∧ OnlyGroup s t l gi ∧
        t.group l gi = some { g with pc := bitsOf w.lit 31 0, fills := [] }) ∧
    (Runs s 0x101 l gi w g b → w.guardUniform g = true → w.acting g ≠ [] → g.stack.length + g.spilled < depthOf b →
      let e : RecEntry := { joinPc := bitsOf w.lit 63 32, elsePc := bitsOf w.lit 31 0, pending := 0, saved := g.active }
      ∃ t h taken, exec (.split l gi w) s = .next t ∧ t.group l gi = some h ∧
        (∀ k, k < 32 → taken.getLsbD k = (g.active.getLsbD k && (g.pred (bitsOf w.srcA 2 0) k != w.opx.getLsbD 0))) ∧
        (taken ≠ 0 → h.active = taken ∧ h.pc = g.pc + w.bytes ∧ h.stack.head? = some { e with pending := g.active &&& ~~~taken }) ∧
        (taken = 0 → h.active = g.active ∧ h.pc = bitsOf w.lit 31 0 ∧ h.stack.head? = some e) ∧
        (g.stack.length < 16 → h.stack.tail = g.stack ∧ h.spilled = g.spilled ∧ OnlyGroup s t l gi) ∧
        (16 ≤ g.stack.length → h.stack.tail = g.stack.take (g.stack.length - 8) ∧ h.spilled = g.spilled + 8)) ∧
    (∀ e rest, Runs s 0x102 l gi w g b → w.guardUniform g = true → w.acting g ≠ [] → g.stack = e :: rest → e.joinPc = g.pc →
      ∃ t h, exec (.join l gi w) s = .next t ∧ OnlyGroup s t l gi ∧ t.group l gi = some h ∧
        (e.pending ≠ 0 →
          h = { g with active := e.pending, pc := e.elsePc, stack := { e with pending := 0 } :: rest, fills := [] }) ∧
        (e.pending = 0 → h.active = e.saved ∧ h.pc = e.joinPc + 8 ∧
          (rest ≠ [] ∨ g.spilled = 0 → h.stack = rest ∧ h.spilled = g.spilled) ∧
          (rest = [] → h.stack.length = min 8 g.spilled ∧ h.spilled = g.spilled - min 8 g.spilled))) ∧
    (Runs s 0x103 l gi w g b → g.live &&& ~~~m ≠ 0 →
      ∃ t h, exec (.exit l gi w) s = .next t ∧ t.group l gi = some h ∧ h.live = g.live &&& ~~~m ∧
        h.v = g.v ∧ h.u = g.u ∧ h.p = g.p ∧ (∀ k, k ≠ gi.val → t.group l k = s.group l k) ∧
        (g.spilled = 0 → g.active &&& ~~~m ≠ 0 → OnlyGroup s t l gi ∧ h.active = g.active &&& ~~~m ∧ h.pc = g.pc + w.bytes ∧
          (h.stack.map (·.pending)) = g.stack.map fun e => e.pending &&& ~~~m)) ∧
    (Runs s 0x103 l gi w g b → g.live &&& ~~~m = 0 → gi.val ∈ b.groups → b.core = l.val →
      ((∃ k ∈ b.groups, k ≠ gi.val ∧ s.groupEnded l k = false) →
        ∃ t h, exec (.exit l gi w) s = .next t ∧ SameBytes s t ∧ t.group l gi = some h ∧ h.status = .ended) ∧
      ((∀ k ∈ b.groups, k ≠ gi.val → s.groupEnded l k = true) →
        ∃ t, exec (.exit l gi w) s = .next t ∧ (∀ k ∈ b.groups, t.group l k = none) ∧ t.cc l = s.cc l)) ∧
    (Runs s 0x104 l gi w g b → w.acting g ≠ [] →
      ((∀ k ∈ b.groups, k ≠ gi.val → k ∈ b.arrived ∨ s.groupEnded l k = true) →
        ∃ t, exec (.bsync l gi w) s = .next t ∧ SameBytes s t ∧ SameRegs s t ∧ t.group l gi = some next ∧
          (∀ k x, k ∈ b.arrived → k ≠ gi.val → s.group l k = some x → t.group l k = some { x with status := .ready }) ∧
          t.block (l / 8) g.block = some { b with arrived := [] }) ∧
      (∀ k, k ∈ b.groups → k ≠ gi.val → k ∉ b.arrived → s.groupEnded l k = false →
        ∃ t, exec (.bsync l gi w) s = .next t ∧ SameBytes s t ∧ SameRegs s t ∧
          t.group l gi = some { next with status := .atBarrier } ∧
          t.block (l / 8) g.block = some { b with arrived := b.arrived ++ [gi.val] })) ∧
    (∀ i ∈ [((0x100 : Nat), Instr.bra l gi w), (0x101, .split l gi w), (0x102, .join l gi w), (0x104, .bsync l gi w)],
      Runs s i.1 l gi w g b → w.acting g = [] → w.guardUniform g = true →
      ∃ t, exec i.2 s = .next t ∧ OnlyGroup s t l gi ∧ t.group l gi = some next) ∧
    (∀ i ∈ [((0x100 : Nat), Instr.bra l gi w), (0x101, .split l gi w), (0x102, .join l gi w)],
      Runs s i.1 l gi w g b → w.guardUniform g = false → ∃ t, exec i.2 s = .next t ∧ Halts s t l gi g 6) ∧
    (Runs s 0x101 l gi w g b → w.guardUniform g = true → w.acting g ≠ [] → depthOf b ≤ g.stack.length + g.spilled →
      ∃ t, exec (.split l gi w) s = .next t ∧ Halts s t l gi g 5) ∧
    (Runs s 0x102 l gi w g b → w.guardUniform g = true → w.acting g ≠ [] → (∀ e rest, g.stack = e :: rest → e.joinPc ≠ g.pc) →
      ∃ t, exec (.join l gi w) s = .next t ∧ Halts s t l gi g 6)

/-- LDL with every accessed address aligned and within the block's size gives each acting lane, or the uniform destination, the
bytes at its address, extended as its width says; STL leaves at each byte the one of the highest acting lane that writes it;
ATOML performs the operation in ascending lane order, each lane seeing the result of the lanes before it and receiving the
old value. The first lane whose address is misaligned or beyond the size halts the group with code 4 or 3, and nothing is
written. Nothing else changes. (R117, R120, R146, R147, R150, R151) -/
def Obligations.LocalMemoryOfGroups : Prop :=
  ∀ (s : State) (l : CoreId) (gi : GroupId) (w : TWord) (g : Group) (b : Block),
    let width := w.opxBits 2 0
    let n := memBytes width
    let lanes := if w.ud then (w.acting g).take 1 else w.acting g
    let at_ (k : Nat) : Nat := blockAddr l b (w.addrL g k)
    let bad (a n : Nat) : Option Nat := if a % n ≠ 0 then some 4 else if b.lmSize < a + n then some 3 else none
    (Runs s 0x140 l gi w g b →
      ((∀ k ∈ lanes, bad (w.addrL g k) n = none) →
        ∃ t h, exec (.ldl l gi w) s = .next t ∧ OnlyGroupAndMemory s t l gi ∧ SameBytes s t ∧ t.group l gi = some h ∧
          Loaded w g h width fun k => s.bytes (at_ k) n) ∧
      (∀ k c, k ∈ lanes → bad (w.addrL g k) n = some c → (∀ j ∈ lanes, j < k → bad (w.addrL g j) n = none) →
        ∃ t, exec (.ldl l gi w) s = .next t ∧ Halts s t l gi g c)) ∧
    (Runs s 0x141 l gi w g b →
      ((∀ k ∈ w.acting g, bad (w.addrL g k) n = none) →
        ∃ t, exec (.stl l gi w) s = .next t ∧ OnlyGroupAndMemory s t l gi ∧
          t.group l gi = some { g with pc := g.pc + w.bytes, fills := [], status := .ready } ∧
          (∀ x, (∀ k ∈ w.acting g, x < at_ k ∨ at_ k + n ≤ x) → t.byte x = s.byte x) ∧
          ∀ k ∈ w.acting g, ∀ i, i < n →
            (∀ j ∈ w.acting g, k < j → at_ k + i < at_ j ∨ at_ j + n ≤ at_ k + i) →
            t.byte (at_ k + i) = (w.storeBytes g width k).getD i 0) ∧
      (∀ k c, k ∈ w.acting g → bad (w.addrL g k) n = some c → (∀ j ∈ w.acting g, j < k → bad (w.addrL g j) n = none) →
        ∃ t, exec (.stl l gi w) s = .next t ∧ Halts s t l gi g c)) ∧
    (Runs s 0x142 l gi w g b →
      let code := w.opxBits 3 0
      let m := memOpBytes code
      let addr (k : Nat) : Nat := (w.valA g false k).toNat
      let new (k : Nat) (old : W64) : Nat :=
        (memOpNew code (w.opx.getLsbD 4) old (w.valB g (atomLong code) k) (w.valC g (atomLong code) k)).toNat
      ((∀ k ∈ lanes, bad (addr k) m = none) →
        ∃ t h olds, exec (.atoml l gi w) s = .next t ∧ OnlyGroupAndMemory s t l gi ∧ t.group l gi = some h ∧
          Wrote w g h (atomLong code) olds ∧
          (∀ x, (∀ k ∈ lanes, x < blockAddr l b (addr k) ∨ blockAddr l b (addr k) + m ≤ x) → t.byte x = s.byte x) ∧
          (∀ k ∈ lanes, (∀ j ∈ lanes, j < k → addr j ≠ addr k) →
            olds k = BitVec.ofNat 64 (s.load (blockAddr l b (addr k)) m)) ∧
          (∀ j ∈ lanes, ∀ k ∈ lanes, j < k → addr j = addr k → (∀ i ∈ lanes, j < i → i < k → addr i ≠ addr k) →
            olds k = BitVec.ofNat 64 (new j (olds j) % 2 ^ (8 * m))) ∧
          ∀ k ∈ lanes, (∀ j ∈ lanes, k < j → addr j ≠ addr k) →
            t.load (blockAddr l b (addr k)) m = new k (olds k) % 2 ^ (8 * m)) ∧
      (∀ k c, k ∈ lanes → bad (addr k) m = some c → (∀ j ∈ lanes, j < k → bad (addr j) m = none) →
        ∃ t, exec (.atoml l gi w) s = .next t ∧ Halts s t l gi g c))

/-- With every element aligned and within the block's size, LDF completes: each register of the fragment, in each acting lane,
takes the elements that Table 4.10 assigns to it at base + row × stride + column × size, the first in the low bits; and STF
completes: it stores them from there, where lanes meet the highest acting lane's, and changes no other byte. An address that
fails halts the group. Nothing else changes. (R117, R120, R148) -/
def Obligations.FragmentsOfGroups : Prop :=
  ∀ (s : State) (l : CoreId) (gi : GroupId) (w : TWord) (g : Group) (b : Block),
    let layout := w.opxBits 2 0
    let sz := fragSize layout
    let base := (w.valA g false 0).toNat
    (∀ stride, Runs s 0x143 l gi w g b → (w.valC g false 0).toNat = stride →
      (∀ k ∈ w.acting g, ∀ r, r < fragRegs layout → ∀ a ∈ fragAddrs layout base stride r k, a % sz = 0 ∧ a + sz ≤ b.lmSize) →
      ∃ t h, exec (.ldf l gi w) s = .next t ∧ OnlyGroupAndMemory s t l gi ∧ SameBytes s t ∧
        t.group l gi = some h ∧ h = { g with v := h.v, pc := g.pc + w.bytes, fills := [], status := .ready } ∧
        ∀ q lane, q < 255 → lane < 32 → h.vreg q lane =
          if lane ∈ w.acting g ∧ w.dst.toNat ≤ q ∧ q < w.dst.toNat + fragRegs layout
          then BitVec.ofNat 32 (ofLe ((fragAddrs layout base stride (q - w.dst.toNat) lane).flatMap fun a =>
            s.bytes (blockAddr l b a) sz))
          else g.vreg q lane) ∧
    (∀ stride, Runs s 0x144 l gi w g b → (w.valB g false 0).toNat = stride →
      (∀ k ∈ w.acting g, ∀ r, r < fragRegs layout → ∀ a ∈ fragAddrs layout base stride r k, a % sz = 0 ∧ a + sz ≤ b.lmSize) →
      let reaches (x r k i : Nat) : Prop := ∃ a, (fragAddrs layout base stride r k)[i]? = some a ∧
        blockAddr l b a ≤ x ∧ x < blockAddr l b a + sz
      ∃ t, exec (.stf l gi w) s = .next t ∧ OnlyGroupAndMemory s t l gi ∧
        t.group l gi = some { g with pc := g.pc + w.bytes, fills := [], status := .ready } ∧
        (∀ x, (∀ k ∈ w.acting g, ∀ r, r < fragRegs layout → ∀ i, ¬ reaches x r k i) → t.byte x = s.byte x) ∧
        ∀ x r k i a, k ∈ w.acting g → r < fragRegs layout → (fragAddrs layout base stride r k)[i]? = some a →
          blockAddr l b a ≤ x → x < blockAddr l b a + sz →
          (∀ r' k' i', k' ∈ w.acting g → r' < fragRegs layout → reaches x r' k' i' → k' < k ∨ k' = k ∧ r' = r ∧ i' = i) →
          t.byte x = (g.vreg (w.srcC.toNat + r) k).extractLsb' (8 * (sz * i + (x - blockAddr l b a))) 8) ∧
    (∀ i stride, i = ((0x143 : Nat), Instr.ldf l gi w) ∧ (w.valC g false 0).toNat = stride ∨
        i = (0x144, Instr.stf l gi w) ∧ (w.valB g false 0).toNat = stride →
      Runs s i.1 l gi w g b →
      (∃ k ∈ w.acting g, ∃ r, r < fragRegs layout ∧ ∃ a ∈ fragAddrs layout base stride r k, ¬(a % sz = 0 ∧ a + sz ≤ b.lmSize)) →
      ∃ t c, exec i.2 s = .next t ∧ Halts s t l gi g c ∧ (c = 3 ∨ c = 4))

/-- With every address aligned and in the window of a core of the partition that is neither lost nor migrating, below its local
memory in force, and with no stream queue enabled, LDW gives each acting lane the bytes of that core's local memory and STW
stores them there, the highest acting lane's where they meet; nothing else changes. The first lane that is misaligned or
outside halts the group with code 4 or 3. (R117, R149, R321, R322) -/
def Obligations.WindowsOfGroups : Prop :=
  ∀ (s : State) (l : CoreId) (gi : GroupId) (w : TWord) (g : Group) (b : Block),
    let width := w.opxBits 2 0
    let n := memBytes width
    let bad (a : Nat) : Option Nat :=
      if a % n ≠ 0 then some 4
      else match windowOf a with
        | none => some 3
        | some (k, off) => if off + n ≤ s.lmSize k ∧ s.partOf k = s.partOf l ∧ (s.partOf l).isSome = true then none else some 3
    let open_ (a : Nat) : Prop := ∀ k off, windowOf a = some (k, off) → s.fenced k = false ∧ ∀ i, s.sqAt k i = none
    (Runs s 0x184 l gi w g b →
      let lanes := if w.ud then (w.acting g).take 1 else w.acting g
      ((∀ k ∈ lanes, bad (w.addrG g k) = none ∧ open_ (w.addrG g k)) →
        ∃ t h, exec (.ldw l gi w) s = .next t ∧ OnlyGroupAndMemory s t l gi ∧ SameBytes s t ∧ t.group l gi = some h ∧
          Loaded w g h width fun k => s.bytes (w.addrG g k) n) ∧
      (∀ k c, k ∈ lanes → bad (w.addrG g k) = some c → (∀ j ∈ lanes, j < k → bad (w.addrG g j) = none) →
        ∃ t, exec (.ldw l gi w) s = .next t ∧ Halts s t l gi g c)) ∧
    (Runs s 0x185 l gi w g b →
      ((∀ k ∈ w.acting g, bad (w.addrG g k) = none ∧ open_ (w.addrG g k)) →
        ∃ t, exec (.stw l gi w) s = .next t ∧ OnlyGroupAndMemory s t l gi ∧
          t.group l gi = some { g with pc := g.pc + w.bytes, fills := [], status := .ready } ∧
          (∀ x, (∀ k ∈ w.acting g, x < w.addrG g k ∨ w.addrG g k + n ≤ x) → t.byte x = s.byte x) ∧
          ∀ k ∈ w.acting g, ∀ i, i < n →
            (∀ j ∈ w.acting g, k < j → w.addrG g k + i < w.addrG g j ∨ w.addrG g j + n ≤ w.addrG g k + i) →
            t.byte (w.addrG g k + i) = (w.storeBytes g width k).getD i 0) ∧
      (∀ k c, k ∈ w.acting g → bad (w.addrG g k) = some c → (∀ j ∈ w.acting g, j < k → bad (w.addrG g j) = none) →
        ∃ t, exec (.stw l gi w) s = .next t ∧ Halts s t l gi g c))

/-- When memory alone holds every byte and each accessed address translates to one piece of this module's memory whose power
domains are ON, inside an arena that its access needs: LDG with BYP gives the bytes at the target; STG stores each lane's
bytes there, the highest lane's where they meet; an ATOMG of one lane with no record held leaves the result at its home and
gives the old value. An access that fails its checks halts the group with the code of the first failing lane and writes
nothing. PREF asks for each line of the acting lanes' addresses that translates and that neither the L1 nor an outstanding
miss has, and advances; with an L1 of size 0 it only advances. Every FENCE but FENCE.S before outstanding remote stores only
advances. No byte outside those named changes. (R118, R121, R122, R146, R147, R150, R152) -/
def Obligations.GlobalMemoryOfGroups : Prop :=
  ∀ (s : State) (l : CoreId) (gi : GroupId) (w : TWord) (g : Group) (b : Block),
    let width := w.opxBits 2 0
    let n := memBytes width
    let lanes := if w.ud then (w.acting g).take 1 else w.acting g
    let goes (a n t : Nat) : Prop := ∀ p, s.partOf l = some p →
      s.pinnedPieces p a n = some [(t, n)] ∧ s.remoteOf t = none ∧ s.isMemoryRange t n = true ∧ s.homesAsleep t n = false
    (Runs s 0x180 l gi w g b →
      (∀ tgt : Nat → Nat, Plain s → w.opx.getLsbD 3 = true → g.fills = [] →
        (∀ k ∈ lanes, s.globalFault l b (w.addrG g k) n false false = none ∧ goes (w.addrG g k) n (tgt k)) →
        ∃ t h, exec (.ldg l gi w) s = .next t ∧ SameBytes s t ∧ SameRegs s t ∧ t.group l gi = some h ∧
          (∀ k, k ≠ gi.val → t.group l k = s.group l k) ∧ Loaded w g h width fun k => s.bytes (tgt k) n) ∧
      (∀ k c a, k ∈ lanes → s.globalFault l b (w.addrG g k) n false false = some (c, a) →
        (∀ j ∈ lanes, j < k → s.globalFault l b (w.addrG g j) n false false = none) →
        ∃ t, exec (.ldg l gi w) s = .next t ∧ Halts s t l gi g c)) ∧
    (Runs s 0x181 l gi w g b →
      (∀ tgt : Nat → Nat, Plain s →
        (∀ k ∈ w.acting g, s.globalFault l b (w.addrG g k) n true false = none ∧ goes (w.addrG g k) n (tgt k)) →
        ∃ t, exec (.stg l gi w) s = .next t ∧ SameRegs s t ∧
          t.group l gi = some { g with pc := g.pc + w.bytes, fills := [], status := .ready } ∧
          (∀ k, k ≠ gi.val → t.group l k = s.group l k) ∧
          (∀ x, (∀ k ∈ w.acting g, x < tgt k ∨ tgt k + n ≤ x) → t.byte x = s.byte x) ∧
          ∀ k ∈ w.acting g, ∀ i, i < n → (∀ j ∈ w.acting g, k < j → tgt k + i < tgt j ∨ tgt j + n ≤ tgt k + i) →
            t.byte (tgt k + i) = (w.storeBytes g width k).getD i 0) ∧
      (∀ k c a, k ∈ w.acting g → s.globalFault l b (w.addrG g k) n true false = some (c, a) →
        (∀ j ∈ w.acting g, j < k → s.globalFault l b (w.addrG g j) n true false = none) →
        ∃ t, exec (.stg l gi w) s = .next t ∧ Halts s t l gi g c)) ∧
    (Runs s 0x182 l gi w g b →
      let code := w.opxBits 3 0
      let m := memOpBytes code
      (∀ k tgt old : Nat, Plain s → s.opRecords = [] → lanes = [k] → s.load tgt m = old →
        s.globalFault l b (w.valA g true k).toNat m true true = none → goes (w.valA g true k).toNat m tgt → tgt % m = 0 →
        (s.homeOf tgt).isSome = true →
        ∃ t h, exec (.atomg l gi w) s = .next t ∧ SameRegs s t ∧ t.group l gi = some h ∧ SameBytesBut s t tgt m ∧
          (∀ j, j ≠ gi.val → t.group l j = s.group l j) ∧
          Wrote w { g with atomN := g.atomN + 1 } h (atomLong code) (fun _ => BitVec.ofNat 64 old) ∧
          t.load tgt m = (memOpNew code (w.opx.getLsbD 4) (BitVec.ofNat 64 old) (w.valB g (atomLong code) k)
            (w.valC g (atomLong code) k)).toNat % 2 ^ (8 * m)) ∧
      (∀ k c a, k ∈ lanes → s.globalFault l b (w.valA g true k).toNat m true true = some (c, a) →
        (∀ j ∈ lanes, j < k → s.globalFault l b (w.valA g true j).toNat m true true = none) →
        ∃ t, exec (.atomg l gi w) s = .next t ∧ Halts s t l gi g c)) ∧
    (Runs s 0x183 l gi w g b → s.l1Sets l ≠ 0 → (s.core l).ve.misses.length + 32 ≤ missDepth →
      ∃ t, exec (.pref l gi w) s = .next t ∧ OnlyCore s t l ∧ (t.core l).ve.l1 = (s.core l).ve.l1 ∧ t.cc l = s.cc l ∧
        t.group l gi = some { g with pc := g.pc + w.bytes, fills := [], status := .ready } ∧
        (∀ k, k ≠ gi.val → t.group l k = s.group l k) ∧
        ∀ x, x ∈ (t.core l).ve.misses ↔ x ∈ (s.core l).ve.misses ∨
          (∃ k ∈ w.acting g, x = w.addrG g k / 128) ∧ (∀ y ∈ (s.core l).ve.l1, y.line ≠ x) ∧
          ∃ p, s.partOf l = some p ∧ (s.pinnedPieces p (x * 128) 128).isSome = true) ∧
    (Runs s 0x183 l gi w g b → s.l1Sets l = 0 → ∃ t, exec (.pref l gi w) s = .next t ∧ OnlyGroup s t l gi ∧
      t.group l gi = some { g with pc := g.pc + w.bytes, fills := [], status := .ready }) ∧
    (Runs s 0x2C0 l gi w g b →
      (w.opxBits 1 0 ≠ 2 ∨ g.remoteWrites = 0 ∨ w.acting g = [] → ∃ t, exec (.fence l gi w) s = .next t ∧
        OnlyGroup s t l gi ∧ t.group l gi = some { g with pc := g.pc + w.bytes, fills := [], status := .ready }) ∧
      (w.opxBits 1 0 = 2 → g.remoteWrites ≠ 0 → w.acting g ≠ [] → exec (.fence l gi w) s = .next s))

/-- A group's CWAIT that is satisfied goes on, with the value observed in its uniform destination and, where asked, an empty L1;
otherwise the group waits, registered at a home with room. CSIG queues one signal on the block's stream, with the group's
number and count as its sequence number, and the group goes on once SIGNAL_SEND has sent it. A handle outside the partition
halts the group with code 1. MQPUSH stalls the group; once the MU queue can accept, an admitted descriptor joins that queue,
pending, and the group goes on with the accepted count in its uniform destination, while one that fails halts the group with
code 7 and leaves the queue as it was. (R93, R115, R116, R154, R155, R156, R275) -/
def Obligations.WaitsSignalsAndPushesOfGroups : Prop :=
  (∀ (s : State) (l : CoreId) (gi : GroupId) (w : TWord) (g : Group) (b : Block) (h : Nat) (x : W64), w.acting g ≠ [] →
    (w.valA g true 0).toNat % 2 ^ 24 = h → w.valB g true 0 = x →
    (Runs s 0x240 l gi w g b →
      (s.coreHandle l h = false → ∃ t, exec (.groupCwait l gi w) s = .next t ∧ Halts s t l gi g 1) ∧
      (s.coreHandle l h = true → s.waitMet (.group l gi) (counterOf l h) x = true →
        traceBit (s.mode 0 (.ve l)).2 = false →
        ∃ t k, exec (.groupCwait l gi w) s = .next t ∧ OnlyCore s t l ∧ t.group l gi = some k ∧
          k = { g with u := k.u, pc := g.pc + w.bytes, fills := [], status := .ready } ∧
          (∀ r, r < 255 → k.ureg r =
            if w.ud = true ∧ r = w.dst.toNat then s.value (counterOf l h) else g.ureg r) ∧
          (t.core l).ve.l1 = (if w.opx.getLsbD 0 then [] else (s.core l).ve.l1) ∧
          ∀ j, j ≠ gi.val → t.group l j = s.group l j) ∧
      (s.coreHandle l h = true → s.waitMet (.group l gi) (counterOf l h) x = false → s.ownerElsewhere (counterOf l h) = none →
        s.waitsAt (counterHome (counterOf l h)) < waitDepth →
        ∃ t, exec (.groupCwait l gi w) s = .next t ∧ SameBytes s t ∧ SameRegs s t ∧
          t.group l gi = some { g with pc := g.pc + w.bytes, fills := [],
                                       status := .waiting (if w.ud then some w.dst.toNat else none) (counterOf l h) x (w.opx.getLsbD 0) } ∧
          (∃ y ∈ (t.counter (counterOf l h)).waiters, y.who = .group l gi ∧ y.expected = x) ∧
          (∀ j, j ≠ gi.val → t.group l j = s.group l j))) ∧
    (Runs s 0x241 l gi w g b →
      (∀ p, s.partOf l = some p → s.targetOk p (w.opxBits 1 0) h = false →
        ∃ t, exec (.groupCsig l gi w) s = .next t ∧ Halts s t l gi g 1) ∧
      (∀ p, s.partOf l = some p → s.targetOk p (w.opxBits 1 0) h = true → g.csigN < 2 ^ 27 →
        ∃ t k sig, exec (.groupCsig l gi w) s = .next t ∧ t.group l gi = some k ∧
          k = { g with u := k.u, pc := g.pc + w.bytes, fills := [], status := .signalling sig.msg.seq, csigN := g.csigN + 1 } ∧
          (∀ r, r < 255 → k.ureg r = if w.ud = true ∧ r = w.dst.toNat then BitVec.ofNat 64 g.csigN else g.ureg r) ∧
          (t.stream (blockStream b.core b.gen g.block).toNat).unsent =
            (s.stream (blockStream b.core b.gen g.block).toNat).unsent ++ [sig] ∧
          sig.msg.operand = x ∧ sig.msg.seq = BitVec.ofNat 32 (g.gi % 32 * 2 ^ 27 + g.csigN) ∧
          sig.msg.kind = kindOf (w.opxBits 1 0) ∧
          t = { s with cores := t.cores, streams := t.streams } ∧ SameBytes s t ∧
          (∀ j, j ≠ gi.val → t.group l j = s.group l j))) ∧
    (Runs s 0x280 l gi w g b → ∃ t, exec (.mqpush l gi w) s = .next t ∧ SameBytes s t ∧
      t = { s with cores := t.cores, clusters := t.clusters } ∧ (∀ k, k ≠ l.val → t.core k = s.core k) ∧ t.cc l = s.cc l ∧
      (∀ j, j ≠ gi.val → t.group l j = s.group l j) ∧
      t.group l gi = some { g with status := .mqStall w.srcA.toNat (if w.ud then some w.dst.toNat else none) })) ∧
  (∀ (s : State) (l : CoreId) (gi : GroupId) (g : Group) (b : Block) (x sig : Sig) (rest : List Sig) (st : W32),
    s.group l gi = some g → st = blockStream l b.gen g.block → g.block < 256 → (s.stream st.toNat).unsent = x :: rest →
    s.stamped st x = sig → g.status = .signalling sig.msg.seq → s.sourceReady st sig.msg.seq sig.msg.system = true →
    s.mayFollow (s.stream st.toNat) sig = true → homeModule sig.home = none →
    ∃ t, exec (.signalSend st) s = .next t ∧ t.group l gi = some { g with status := .ready } ∧
      (t.stream st.toNat).unsent = rest ∧ sig ∈ (t.stream st.toNat).sent ∧ SameBytes s t ∧
      t = { s with cores := t.cores, streams := t.streams }) ∧
  (∀ (s : State) (l : CoreId) (gi : GroupId) (g : Group) (b : Block) (src : Nat) (dst : Option Nat),
    s.group l gi = some g → s.block (l / 8) g.block = some b → g.status = .mqStall src dst →
    (s.core l).ve.stopped = false → s.fenced l = false → s.canAccept l 1 = true →
    ∃ t, exec (.mqpushAdmission l gi) s = .next t ∧ (∀ q, q ≠ 1 → t.queue l q = s.queue l q) ∧
      match firstFail (((s.countStall l).endAsk l).admissionFails l ((s.partOf l).getD 16) 1 (groupDesc g src)).1 with
      | none =>
        (∃ k, t.group l gi = some k ∧ k = { g with u := k.u, pc := g.pc + 8, status := .ready } ∧
          ∀ r, r < 255 → k.ureg r = if some r = dst then BitVec.ofNat 64 ((s.queue l 1).accepted + 1) else g.ureg r) ∧
        (t.queue l 1).accepted = (s.queue l 1).accepted + 1 ∧
        ∃ e, (t.queue l 1).entries = (s.queue l 1).entries ++ [e] ∧ e.acc = (s.queue l 1).accepted + 1 ∧ e.st = .pending
      | some _ =>
        t.group l gi = some { g with status := .halted 7, fills := [] } ∧ t.queue l 1 = s.queue l 1 ∧
        ((t.cc l).csr csrMip).getLsbD 16 = true)

/-- The oldest unstarted MMA with its waits met joins the array behind those in it, with the pass parameters of R185, or of R195
in broadcast mode. A stationary load puts each row of the next tile, by K-block, with its elements and scale, into the idle
bank under the next tag, or stalls when both banks are in use. A drain fence of a pass whose weights overlap an output not
yet visible, or whose first entry is not drained, inserts bubbles and shows FEEDSTALL or DRAINSTALL; else each entry of the
pair takes its span of the bank's cells and the columns' weights in the order of R187, and the bank is free. A pair whose
passes have all left the array is written to D row by row, each entry rounded by the instruction; after the last pair the
instruction is done and leaves the array. No byte outside D's rows changes. (R47, R81, R180, R184, R185, R187, R188, R189,
R190, R191, R192, R195) -/
def Obligations.MatrixUnitRunsItsPasses : Prop :=
  (∀ (s : State) (l : CoreId) (e : QEntry) (bc : Bool) (cls arr r b : Nat), (s.queue l 1).oldestPending = some e →
    s.entry l 1 e.acc = some e → e.desc.opcode = 1 → e.void = false → s.waitsMet l 1 e = true → s.engineStopped l 1 = false →
    s.fenced l = false → traceBit (s.mode 0 (queueUnit l 1)).2 = false → s.muMode l = (if bc then 1 else 0) →
    widthClass e.desc.fmtA = cls → s.foldFor ((s.partOf l).getD 16) cls e.desc.mmaM e.desc.mmaK = arr → arrRows arr = r →
    b = (if cls = 2 then 1 else if cls = 1 then 2 else 4) →
    ∃ t x, exec (.mma l) s = .next t ∧ t = { s with cores := t.cores, counters := t.counters, retries := t.retries } ∧
      SameBytes s t ∧ (∀ k, k ≠ l.val → t.core k = s.core k) ∧
      (t.core l).mu = { (s.core l).mu with runs := (s.core l).mu.runs ++ [x] } ∧
      (∃ y, t.entry l 1 e.acc = some y ∧ y.st = .running ∧ y.desc = e.desc) ∧ x.acc = e.acc ∧ x.broadcast = bc ∧ x.pass = 0 ∧
      x.passed = 0 ∧ x.closed = 0 ∧
      x.q = min (qMax cls) (ceilDiv e.desc.mmaM (if bc then 8 else 8 * r)) ∧
      x.mp = (if bc then 8 * x.q else 8 * r * x.q) ∧
      x.nc = (if bc then 8 * (128 * b / x.mp) else 8 * min (1024 / x.mp) (512 / (r * x.q * (32 / cubeDepth cls)))) ∧
      x.rowChunks = ceilDiv e.desc.mmaM x.mp ∧ x.colChunks = ceilDiv e.desc.mmaN x.nc ∧
      x.spans = ceilDiv e.desc.mmaK 256) ∧
  (∀ (s : State) (l : CoreId) (r : MuRun) (p : Nat) (e : QEntry),
    ((s.core l).mu.runs.find? fun x => decide (x.pass < x.passes)) = some r → s.partOf l = some p →
    s.entry l 1 r.acc = some e → Plain s → (s.core l).mu.stopped = false → s.fenced l = false → s.passHeld l = false →
    let box := r.pairBox e.desc (r.pass / r.spans)
    let ks := r.spanOf e.desc r.pass
    s.muBlocked l r.acc ((opndA e.desc).reads box.1 box.2.1 e.desc.mmaK ks.1 ks.2) = false →
    ((s.core l).mu.live = 2 →
      ∃ t, exec (.muStationaryLoad l) s = .next t ∧ OnlyCore s t l ∧
        t.core l = { s.core l with mu := { (s.core l).mu with loadStall := true } }) ∧
    ((s.core l).mu.live < 2 →
      ∃ t x, exec (.muStationaryLoad l) s = .next t ∧ SameBytes s t ∧ SameRegs s t ∧
        (t.core l).mu.gen = ((s.core l).mu.gen + 1) % 8 ∧ x.gen = ((s.core l).mu.gen + 1) % 8 ∧ x.acc = r.acc ∧
        x.pass = r.pass ∧ x.arr = r.arr ∧ x.q = r.q ∧
        (∀ i b, i < box.2.1 → b < ks.2 / 32 → x.cell (box.1 + i) b = some
          { row := box.1 + i, block := b
            elems := ((s.muCodes l p (opndA e.desc) (box.1 + i) ks.1 ks.2 false).1.drop (32 * b)).take 32
            scale := (s.muScales l p (opndA e.desc) (box.1 + i) e.desc.mmaK ks.1 ks.2 false).1.getD b 127 }) ∧
        (if (s.core l).mu.bankA = none then (t.core l).mu.bankA = some x ∧ (t.core l).mu.bankB = (s.core l).mu.bankB
         else (t.core l).mu.bankB = some x ∧ (t.core l).mu.bankA = (s.core l).mu.bankA) ∧
        (t.core l).mu.runs = ((s.core l).mu.runs.map fun y => if y.acc = r.acc then { y with pass := r.pass + 1 } else y) ∧
        (t.core l).mu.loadStall = false ∧ (t.core l).mu.accum = (s.core l).mu.accum)) ∧
  (∀ (s : State) (l : CoreId) (x : MuBank) (r : MuRun) (p : Nat) (e : QEntry), (s.core l).mu.oldest = some x →
    ((s.core l).mu.runs.find? fun y => y.acc == x.acc) = some r → s.partOf l = some p → s.entry l 1 x.acc = some e → Plain s →
    s.fenced l = false →
    let box := r.pairBox e.desc (x.pass / r.spans)
    let ks := r.spanOf e.desc x.pass
    let blocked := s.muBlocked l x.acc ((opndB e.desc).reads box.2.2.1 box.2.2.2 e.desc.mmaK ks.1 ks.2)
    (blocked = true →
      ∃ t, exec (.muDrainFence l) s = .next t ∧ SameBytes s t ∧ SameRegs s t ∧
        (t.core l).mu = { (s.core l).mu with feedStall := true }) ∧
    (blocked = false → (s.core l).mu.undrained r x = true →
      ∃ t, exec (.muDrainFence l) s = .next t ∧ SameBytes s t ∧ SameRegs s t ∧
        (t.core l).mu = { (s.core l).mu with drainStall := true }) ∧
    (blocked = false → (s.core l).mu.undrained r x = false →
      ∃ t, exec (.muDrainFence l) s = .next t ∧ SameBytes s t ∧ SameRegs s t ∧
        (∀ i j, i < box.2.1 → j < box.2.2.2 → SMap.get 0 (t.core l).mu.accum (i * r.nc + j) =
          (accumulate (decide (ks.1 = 0)) (SMap.get 0 (s.core l).mu.accum (i * r.nc + j))
            (spanOf (mmaElem (s.p4Entry p e.desc.tblA) e.desc.fmtA e.desc.scA)
              (mmaElem (s.p4Entry p e.desc.tblB) e.desc.fmtB e.desc.scB)
              ((List.range (ks.2 / 32)).map fun b => x.cell (box.1 + i) b)
              (s.muCodes l p (opndB e.desc) (box.2.2.1 + j) ks.1 ks.2 e.desc.useStream).1
              (s.muScales l p (opndB e.desc) (box.2.2.1 + j) e.desc.mmaK ks.1 ks.2 e.desc.useStream).1)).1) ∧
        (if (s.core l).mu.bankA = some x then (t.core l).mu.bankA = none ∧ (t.core l).mu.bankB = (s.core l).mu.bankB
         else (t.core l).mu.bankB = none ∧ (t.core l).mu.bankA = (s.core l).mu.bankA) ∧
        (t.core l).mu.runs.map (·.passed) =
          ((s.core l).mu.runs.map fun y => if y.acc = x.acc then y.passed + 1 else y.passed) ∧
        (t.core l).mu.feedStall = false ∧ (t.core l).mu.drainStall = false)) ∧
  (∀ (s : State) (l : CoreId) (r : MuRun) (rest : List MuRun) (p : Nat) (e : QEntry) (tgt : Nat → Nat),
    (s.core l).mu.runs = r :: rest → s.partOf l = some p → s.entry l 1 r.acc = some e → Plain s → s.fenced l = false →
    (r.closed + 1) * r.spans ≤ r.passed →
    let box := r.pairBox e.desc r.closed
    let n := box.2.2.2 * outBytes e.desc.ofmt
    let outs (i : Nat) := drainRow e.desc r (s.core l).mu.accum box.2.2.2 i
    let flags := r.flags ||| orFlags ((List.range box.2.1).map fun i => orFlags ((outs i).map (·.2)))
    (∀ i, i < box.2.1 →
      s.muPieces l p (e.desc.fld 88 8 + (box.1 + i) * (e.desc.fld 116 2 * 16) + box.2.2.1 * outBytes e.desc.ofmt) n = some [(tgt i, n)] ∧
      windowOf (tgt i) = none ∧ s.homesAsleep (tgt i) n = false ∧ ∀ j, j < box.2.1 → j ≠ i → tgt i + n ≤ tgt j ∨ tgt j + n ≤ tgt i) →
    ∃ t, exec (.muPairClose l) s = .next t ∧ SameRegs s t ∧
      (∀ i, i < box.2.1 → t.bytes (tgt i) n = (outs i).flatMap (·.1)) ∧
      (∀ i j, i < box.2.1 → j < box.2.2.2 → (outs i)[j]? = some (drainElem e.desc.ofmt (rndCode e.desc.rndCode)
        (Val.ofXa96 (SMap.get 0 (s.core l).mu.accum (i * r.nc + j)).toNat))) ∧
      (∀ a, (∀ i, i < box.2.1 → a < tgt i ∨ tgt i + n ≤ a) → t.byte a = s.byte a) ∧ (t.core l).mu.accum = [] ∧
      (if r.closed + 1 < r.pairs then (t.core l).mu.runs = { r with closed := r.closed + 1, flags := flags } :: rest
       else (t.core l).mu.runs = rest ∧ SMap.get 0 (t.core l).mu.pendFlags r.acc = flags ∧
         ∃ y, t.entry l 1 r.acc = some y ∧ y.done = true))

/-- An error of a bank or of the accumulation buffer that its code corrects is counted for a row of the core, and no register,
core or byte of memory changes. An uncorrectable one of a cube not yet failed marks it failed, and the spare takes its place:
the positions are filled by the first eight working cubes in ascending order. With at least eight cubes left working the unit
stays in normal mode, with two to seven it is in broadcast mode, and the instructions in the array restart from their first
passes with both banks and the buffer empty. An error of a failed cube changes nothing. A write of CORE_MU_CUBES by an agent
that may make it takes effect the same way, and by any other agent changes nothing. No byte of memory changes. (R193, R194,
R195, R198) -/
def Obligations.CubesFailAndRemap : Prop :=
  (∀ (s : State) (l : CoreId) (cube : Fin 9), s.logicalOf (s.physOf l) = some l.val →
    (∀ r ∈ (s.core l).mu.runs, ∃ e, s.entry l 1 r.acc = some e ∧ e.void = false) →
    (∃ t, exec (.cubeError l ⟨cube, .corrected⟩) s = .next t ∧ SameBytes s t ∧ t.cores = s.cores ∧
      t.reg .CORE_MU_CUBES (s.physOf l) = s.reg .CORE_MU_CUBES (s.physOf l) ∧
      t.corrected = bumpCe { kind := 0, unit := s.physOf l, row := Config.freeNat s.freeCtr } s.corrected) ∧
    ((s.reg .CORE_MU_CUBES (s.physOf l)).getLsbD (16 + cube) = true → exec (.cubeError l ⟨cube, .uncorrectable⟩) s = .next s) ∧
    ((s.reg .CORE_MU_CUBES (s.physOf l)).getLsbD (16 + cube) = false → s.muMode l ≠ 2 → 3 ≤ s.workingCubes (s.physOf l) →
      ∃ t, exec (.cubeError l ⟨cube, .uncorrectable⟩) s = .next t ∧ SameBytes s t ∧
        (t.reg .CORE_MU_CUBES (s.physOf l)).getLsbD (16 + cube) = true ∧
        t.workingList (s.physOf l) = (s.workingList (s.physOf l)).filter (fun c => c != cube.val) ∧
        t.cubesInUse (s.physOf l) = (t.workingList (s.physOf l)).take 8 ∧
        t.muMode l = (if 9 ≤ s.workingCubes (s.physOf l) then 0 else 1) ∧
        (t.core l).mu.bankA = none ∧ (t.core l).mu.bankB = none ∧ (t.core l).mu.accum = [] ∧
        (t.core l).mu.runs.map (·.acc) = (s.core l).mu.runs.map (·.acc) ∧
        ∀ r ∈ (t.core l).mu.runs, r.pass = 0 ∧ r.passed = 0 ∧ r.closed = 0)) ∧
  (∀ (s : State) (a : Agent) (k : PhysId) (v : W32) (l : Nat),
    (s.mayWrite a { name := .CORE_MU_CUBES, i := k } = false → exec (.muCubesWrite a k v) s = .next s) ∧
    (s.mayWrite a { name := .CORE_MU_CUBES, i := k } = true → s.logicalOf k = some l →
      (∀ r ∈ (s.core l).mu.runs, ∃ e, s.entry l 1 r.acc = some e ∧ e.void = false) →
      2 ≤ (s.plainWrite { name := .CORE_MU_CUBES, i := k } v).workingCubes k →
      ∃ t, exec (.muCubesWrite a k v) s = .next t ∧ SameBytes s t ∧ (t.core l).mu.bankA = none ∧ (t.core l).mu.bankB = none ∧
        (t.core l).mu.accum = [] ∧ (∀ r ∈ (t.core l).mu.runs, r.pass = 0 ∧ r.closed = 0) ∧
        t.workingCubes k = (s.plainWrite { name := .CORE_MU_CUBES, i := k } v).workingCubes k))

/-- Where the power domains of the stack and of the memory that a step reaches are ON: a scheduler with room takes the oldest
unstarted ATTEND of a core with its waits met, and fetches its sequence records. It places the next span that passes its
checks on a free engine, and writes the records of a span that fails with its status; with every engine failed the status is
FAR. An engine that reads its pages unchanged writes one record for each head, computed by R210, and is free again. An ATTEND
with no span left and none under way completes; once no earlier instruction is left to complete, its event signal, then its
slots, join the queue's stream. An engine marked failed gives its item back to be placed again. (R203, R205, R206, R208,
R209, R210, R212) -/
def Obligations.AttendCommandsRunOnGrates : Prop :=
  (∀ (s : State) (st : StackId) (l : CoreId) (e : QEntry) (p tgt : Nat), (s.queue l (4 + st.val)).oldestPending = some e →
    s.entry l (4 + st.val) e.acc = some e → s.partOf l = some p → e.desc.opcode = 1 → e.void = false →
    s.waitsMet l (4 + st.val) e = true → s.engineStopped l (4 + st.val) = false → (s.stack st).active.length < 64 →
    (s.stack st).ofCore l < 4 → Plain s → traceBit e.mode.2 = false →
    s.partPieces p e.desc.seqt (64 * e.desc.nseq) = some [(tgt, 64 * e.desc.nseq)] → windowOf tgt = none →
    s.homesAsleep tgt (64 * e.desc.nseq) = false → s.stackAsleep st = false →
    ∃ t c, exec (.attend st l) s = .next t ∧ SameBytes s t ∧ SameRegs s t ∧
      (t.stack st).active = (s.stack st).active ++ [c] ∧ c.core = l.val ∧ c.acc = e.acc ∧ c.seq = 0 ∧ c.span = 0 ∧
      c.outstanding = 0 ∧ c.failed = 0 ∧ c.seqs.length = e.desc.nseq ∧
      (∀ i, i < e.desc.nseq → ∃ g, c.seqs[i]? = some g ∧ g.q = s.load (tgt + 64 * i) 8 ∧
        g.npage = min (s.load (tgt + 64 * i + 16) 4) (2 ^ 20) ∧ g.len = s.load (tgt + 64 * i + 20) 4 ∧
        g.causal = s.load (tgt + 64 * i + 24) 4 ∧ g.id = s.load (tgt + 64 * i + 28) 4 ∧ g.dst = s.load (tgt + 64 * i + 32) 8) ∧
      (∀ k w, w ∈ (t.counter k).waiters → w.who ≠ entryWaiter l (4 + st.val) e.acc) ∧
      ∃ y, t.entry l (4 + st.val) e.acc = some y ∧ y.st = .taken ∧ y.desc = e.desc) ∧
  (∀ (s : State) (st : StackId) (c : GCmd) (e : QEntry) (i j p : Nat) (g : GSeq), (s.stack st).reissue = [] →
    (s.stack st).stopped = false → s.stackAsleep st = false → s.turn st = some (c, e, i, j) → c.seqs[i]? = some g → s.partOf c.core = some p → Plain s →
    (∀ ents, (s.classify st c.core p e.desc g j).1 = (0, (0, 0), ents) → s.allFailed st = false → s.freeEngines st ≠ [] →
      ∃ t k, exec (.grateDispatch st) s = .next t ∧ SameBytes s t ∧ k ∈ s.freeEngines st ∧
        SMap.get none (t.stack st).engines k = some { core := c.core, acc := c.acc, seq := i, span := j, ents := ents } ∧
        ∀ m, m ≠ k → SMap.get none (t.stack st).engines m = SMap.get none (s.stack st).engines m) ∧
    (∀ status drop tgt n,
      (s.allFailed st = true ∧ status = 3 ∧ drop = (0, 0) ∨
        s.allFailed st = false ∧ status ≠ 0 ∧ ∃ ents, (s.classify st c.core p e.desc g j).1 = (status, drop, ents)) →
      g.outOk = true → n = e.desc.heads * e.desc.partialBytes → 0 < n →
      s.partPieces p (g.dst + j * e.desc.heads * e.desc.partialBytes) n = some [(tgt, n)] → windowOf tgt = none → s.homesAsleep tgt n = false →
      ∃ t, exec (.grateDispatch st) s = .next t ∧ SameBytesBut s t tgt n ∧ (t.stack st).engines = (s.stack st).engines ∧
        t.bytes tgt n = (List.range e.desc.heads).flatMap fun h =>
          (failedPartial status e.desc.headDim).bytes h j drop g.id)) ∧
  (∀ (s : State) (st : StackId) (k : Fin 16) (it : GItem) (x : QEntry) (c : GCmd) (g : GSeq) (p tgt n qt qn : Nat)
    (pages : List (Nat × Nat × List Byte)), SMap.get none (s.stack st).engines k = some it →
    s.entry it.core (4 + st.val) it.acc = some x →
    ((s.stack st).active.find? fun y => y.core == it.core && y.acc == it.acc) = some c → s.partOf it.core = some p →
    c.seqs[it.seq]? = some g → Plain s → (s.walkPages st it.core p x.desc it.ents).1 = .data pages → g.outOk = true →
    traceBit x.mode.2 = false → n = x.desc.heads * x.desc.partialBytes → 0 < n →
    s.partPieces p (g.dst + it.span * x.desc.heads * x.desc.partialBytes) n = some [(tgt, n)] → windowOf tgt = none →
    s.homesAsleep tgt n = false → s.homesAsleep qt qn = false → qn = x.desc.heads * x.desc.headDim * kvBytes x.desc.qFmt → s.partPieces p g.q qn = some [(qt, qn)] → windowOf qt = none →
    ∃ t, exec (.grateWorkItemEnd st k) s = .next t ∧ SameBytesBut s t tgt n ∧
      SMap.get none (t.stack st).engines k = none ∧ (t.stack st).items = ((s.stack st).items + 1) % 2 ^ 48 ∧
      t.bytes tgt n = (List.range x.desc.heads).flatMap fun h =>
        (headPartial x.desc (elemsOf x.desc.qFmt x.desc.headDim
            ((s.bytes qt qn).drop (h * x.desc.headDim * kvBytes x.desc.qFmt)))
          (pages.map fun y => usedKeys x.desc g y.1 y.2.1 y.2.2)).bytes h it.span (0, 0) g.id) ∧
  (∀ (s : State) (st : StackId) (l : CoreId) (e : QEntry) (c : GCmd) (pre post : List QEntry),
    (s.queue l (4 + st.val)).entries = pre ++ e :: post → (∀ y ∈ pre ++ post, y.acc ≠ e.acc) →
    ((s.stack st).active.find? fun y => y.core == l.val && y.acc == e.acc) = some c → c.due e.desc = none → c.outstanding = 0 →
    e.st = .taken → traceBit e.mode.2 = false → (∀ y ∈ pre, y.st = .complete → y.sigs = []) →
    (∀ y, post.head? = some y → y.st ≠ .complete) →
    ∃ t x, exec (.attendComplete st l e.acc) s = .next t ∧
      t = { s with cores := t.cores, stks := t.stks, streams := t.streams } ∧ SameBytes s t ∧
      (∀ y ∈ (t.stack st).active, ¬(y.core = l.val ∧ y.acc = e.acc)) ∧
      t.entry l (4 + st.val) e.acc = some x ∧ x.st = .complete ∧
      ((∀ y ∈ pre, y.st = .complete) →
        ∃ gs, (t.stream (queueStream l (4 + st.val)).toNat).unsent =
            (s.stream (queueStream l (4 + st.val)).toNat).unsent ++ gs ∧
          gs.map (·.msg.operand) = (if e.desc.fld 92 3 = 0 then [] else [BitVec.ofNat 64 c.failed]) ++
            e.desc.sigSlots.map (·.operand)) ∧
      ((∃ y ∈ pre, y.st ≠ .complete) → t.streams = s.streams)) ∧
  (∀ (s : State) (st : StackId) (k : Fin 16), (s.reg .GRT_ENGINES st).getLsbD k = false →
    ∃ t, exec (.grateEngineFail st k) s = .next t ∧ SameBytes s t ∧ (t.reg .GRT_ENGINES st).getLsbD k = true ∧
      SMap.get none (t.stack st).engines k = none ∧
      (t.stack st).reissue = (s.stack st).reissue ++ (SMap.get none (s.stack st).engines k).toList)

/-- When memory alone holds every byte and each range translates in one piece to this module: a COPY of one row of up to 4,096
bytes leaves the source's bytes at the destination; a FILL of one row leaves byte j mod 8 of the pattern at byte j; a GATHER
of one element, whose index is read from the index tensor, is not null and stays in the arenas, leaves it at the contiguous
side, and a SCATTER the other way; a REDUCE of one word leaves the operation's result at its target. The instruction is then
done, and no byte outside the range written has changed. An instruction that is paused, waits for a walk or has lost its
record does nothing. (R94, R255, R257, R258, R259, R260, R263) -/
def Obligations.DmaMovesRowsAndElements : Prop :=
  ∀ (s : State) (l : CoreId) (p : Nat) (e : QEntry) (op : Nat), Plain s →
    let d := e.desc
    let ends (i : Instr) (td n : Nat) (bs : List Byte) : Prop := ∃ t, exec i s = .next t ∧ t.bytes td n = bs ∧
      SameBytesBut s t td n ∧ SameRegs s t ∧ ∃ y, t.entry l 2 e.acc = some y ∧ y.done = true ∧ y.fault = none ∧ y.desc = d
    (DmaStarted s l p e op → ∀ ts td n, 0 < n → n ≤ 4096 → d.copyRows = 1 → d.fld 88 4 = n → op = 1 →
      DeReaches s l p (d.fld 92 1) (d.fld 72 8) n ts → DeReaches s l p (d.fld 93 1) (d.fld 80 8) n td →
      ends (.copy l e.acc) td n (s.bytes ts n)) ∧
    (DmaStarted s l p e op → ∀ td n, 0 < n → n ≤ 4096 → d.fld 92 4 = 1 → d.fld 88 4 = n → op = 5 →
      DeReaches s l p (d.fld 104 1) (d.fld 72 8) n td →
      ends (.fill l e.acc) td n ((List.range n).map fun j => BitVec.ofNat 8 (d.fld (80 + j % 8) 1))) ∧
    (DmaStarted s l p e op → ∀ (x : W64) (ti tb tc n : Nat), 0 < n → n ≤ 4096 → d.fld 96 4 = 1 → d.esize = n →
      DeReaches s l p (d.fld 113 1) (d.fld 80 8) d.idxWidth ti →
      x = (if (d.fld 115 1).testBit 1 = true ∧ d.idxWidth = 4 then (BitVec.ofNat 32 (s.load ti 4)).signExtend 64
           else BitVec.ofNat 64 (s.load ti d.idxWidth)) →
      (d.fld 120 4 ≠ 0 → x.toNat < d.fld 120 4) → s.elemOk l p d x = true →
      DeReaches s l p (d.fld 112 1) ((d.fld 72 8 + x.toNat * d.fld 104 8) % 2 ^ 64) n tb →
      DeReaches s l p (d.fld 114 1) (d.fld 88 8) n tc →
      (op = 2 → ends (.gather l e.acc) tc n (s.bytes tb n)) ∧ (op = 3 → ends (.scatter l e.acc) tb n (s.bytes tc n))) ∧
    (DmaStarted s l p e op → ∀ (tb tc code n : Nat), op = 6 → d.isDense = true → d.fld 96 4 = 1 →
      natBits (d.fld 116 1) 3 0 = code → code ≤ 9 → opWidth code = n → d.esize = n → s.opRecords = [] →
      DeReaches s l p (d.fld 112 1) (d.fld 72 8 % 2 ^ 64) n tb → windowOf tb = none → (s.homeOf tb).isSome = true →
      DeReaches s l p (d.fld 114 1) (d.fld 88 8) n tc →
      ends (.reduce l e.acc) tb n (leBytes n (memOpNew code ((d.fld 116 1).testBit 4) (BitVec.ofNat 64 (s.load tb n))
        (BitVec.ofNat 64 (s.load tc n)) 0).toNat)) ∧
    (s.entry l 2 e.acc = some e → e.paused = true ∨ e.walk.isSome = true ∨ e.void = true → ∀ i ∈ [Instr.copy l e.acc, .gather l e.acc,
      .scatter l e.acc, .bucket l e.acc, .fill l e.acc, .reduce l e.acc], exec i s = .next s)

/-- When memory alone holds every byte and its ranges translate in one piece to this module, a BUCKET of one record copies it to
the destination, since its bucket starts at 0, and writes a count block in which its bucket, the number of boundaries its
length has reached, counts 1, every other 0, and the starts above that bucket read 1. The instruction is then done, and no
other byte has changed. (R48, R261, R262) -/
def Obligations.BucketSortsItsRecords : Prop :=
  ∀ (s : State) (l : CoreId) (p : Nat) (e : QEntry) (ts td tc n b : Nat), Plain s → DmaStarted s l p e 4 →
    e.desc.fld 96 4 = 1 → e.desc.recBytes = n → 0 < n →
    DeReaches s l p (e.desc.fld 103 1) (e.desc.fld 72 8) n ts → DeReaches s l p (e.desc.fld 104 1) (e.desc.fld 80 8) n td →
    DeReaches s l p (e.desc.fld 105 1) (e.desc.fld 88 8) 256 tc → td + n ≤ tc ∨ tc + 256 ≤ td →
    ((((SMap.get none s.cfg.bucket (16 * p + e.desc.fld 102 1)).getD []).filter fun x =>
      decide (x ≤ fieldLe (s.bytes ts n) (4 * e.desc.fld 101 1) 4)).length = b) → b < 32 →
    ∃ t, exec (.bucket l e.acc) s = .next t ∧ SameRegs s t ∧ t.bytes td n = s.bytes ts n ∧
      (∀ c, c < 32 → t.load (tc + 4 * c) 4 = (if c = b then 1 else 0) ∧ t.load (tc + 128 + 4 * c) 4 = (if b < c then 1 else 0)) ∧
      (∀ a, (a < td ∨ td + n ≤ a) → (a < tc ∨ tc + 256 ≤ a) → t.byte a = s.byte a) ∧
      ∃ y, t.entry l 2 e.acc = some y ∧ y.done = true ∧ y.desc = e.desc

/-- A finished walk ends the instruction's wait with its entry, or pauses the instruction on a fault with the next fault ID of
its core. RETRY of the fault it names makes the access again; DISCARD ends a COPY, FILL or BUCKET and makes an indexed
operation skip the element. A write of the ring's head with no record pending changes only that register. A swap's GO sets
BUSY and takes the values; its end puts the stage-2 table and pinned map in force, or sets FAIL with the lowest reason and
keeps the old ones. An invalidation's GO is set until its end, when no range cache holds the context. (R243, R244, R246,
R249, R265, R266, R267) -/
def Obligations.TranslationFaultsAndTables : Prop :=
  (∀ (s : State) (l : CoreId) (p : Nat) (e : QEntry) (a : DeAddr) (apart : Bool), s.entry l 2 e.acc = some e →
    s.partOf l = some p → e.walk = some (a, apart) →
    (∀ x, (s.combined l p a.ctx a.addr true (!apart)).1 = .entry x →
      ∃ t y, exec (.xltWalkDone l e.acc) s = .next t ∧ t.entry l 2 e.acc = some y ∧
        y = { e with walk := none, held := if apart then some x else e.held }) ∧
    (∀ k pa, (s.combined l p a.ctx a.addr true (!apart)).1 = .fault k pa → e.discs = [] → e.fault = none →
      ∃ t y f, exec (.xltWalkDone l e.acc) s = .next t ∧ t.entry l 2 e.acc = some y ∧ y.fault = some f ∧ y.walk = none ∧
        f.fid = (s.core l).faultSeq + 1 ∧ (t.core l).faultSeq = (s.core l).faultSeq + 1 ∧ f.kind = k ∧
        f.at_ = a ∧ f.progress = e.progress ∧ f.sub = e.sub ∧ f.again = false ∧
        f.paddr = (if k = 2 ∨ k = 5 ∨ k = 7 then pa else 0) ∧ f.time = s.gtb (l / 192) ∧ f.src = s.srcCore l 3)) ∧
  (∀ (s : State) (a : Agent) (p : PartId) (l : CoreId) (fid : W16) (e : QEntry) (f : DmaFault), s.partOf l = some p.val →
    s.mayWrite a { name := .MOD_XLT_RESOLVE, i := p } = true → s.faulted l fid = some e → s.entry l 2 e.acc = some e → e.fault = some f →
    (∃ t y, exec (.faultResolveRetry a p l fid) s = .next t ∧ SameBytes s t ∧ t.entry l 2 e.acc = some y ∧ y.fault = none ∧
      y.progress = e.progress ∧ y.sub = e.sub ∧ y.discs = e.discs ∧ y.done = e.done) ∧
    (∃ t y, exec (.faultResolveDiscard a p l fid) s = .next t ∧ SameBytes s t ∧ t.entry l 2 e.acc = some y ∧ y.fault = none ∧
      y.discs = e.discs ++ [(f.progress, f.sub, f.at_.field)] ∧ (f.again = true → y.done = e.done ∧ y.sub = e.sub ∧ y.buf = e.buf) ∧
      (f.again = false → e.desc.opcode = 1 ∨ e.desc.opcode = 4 ∨ e.desc.opcode = 5 → y.done = true) ∧
      (f.again = false → e.desc.opcode = 2 ∨ e.desc.opcode = 3 ∨ e.desc.opcode = 6 → y.done = e.done ∧ y.sub = 0))) ∧
  (∀ (s : State) (a : Agent) (p : PartId) (v : W32), s.mayWrite a { name := .MOD_XLT_FR_HEAD, i := p } = true →
    (s.part p).faults = [] → ∃ t, exec (.frHeadWrite a p v) s = .next t ∧ OnlyReg s t .MOD_XLT_FR_HEAD p 0 ∧
      bitsOf (t.reg .MOD_XLT_FR_HEAD p) 16 0 = bitsOf v 16 0) ∧
  (∀ (s : State) (a : Agent) (p : PartId) (v : W32), s.mayWrite a { name := .MOD_XLT_SWAP, i := p } = true →
    v.getLsbD 31 = true → (s.reg .MOD_XLT_SWAP p).getLsbD 30 = false →
    ∃ t, exec (.xltSwapGo a p v) s = .next t ∧ SameBytes s t ∧ (t.reg .MOD_XLT_SWAP p).getLsbD 30 = true ∧
      (t.part p).swap = some (s.pair .MOD_XLT_S2_LO .MOD_XLT_S2_HI p, bitsOf v 16 0,
        s.pair .MOD_XLT_PIN_LO .MOD_XLT_PIN_HI p / 2048 * 2048, s.pair .MOD_XLT_PIN_LO .MOD_XLT_PIN_HI p % 128) ∧
      (t.part p).s2 = (s.part p).s2 ∧ (t.part p).pinned = (s.part p).pinned) ∧
  (∀ (s : State) (p : PartId) (root n pin pn : Nat), (s.part p).swap = some (root, n, pin, pn) →
    ((s.swapReason p root n pin pn).1 ≠ 0 →
      ∃ t, exec (.xltSwapDone p) s = .next t ∧ SameBytes s t ∧ (t.reg .MOD_XLT_SWAP p).getLsbD 30 = false ∧
        (t.reg .MOD_XLT_SWAP p).getLsbD 29 = true ∧ bitsOf (t.reg .MOD_XLT_SWAP p) 27 24 = (s.swapReason p root n pin pn).1 ∧
        (t.part p).s2 = (s.part p).s2 ∧ (t.part p).pinned = (s.part p).pinned ∧ (t.part p).swap = none) ∧
    ((s.swapReason p root n pin pn).1 = 0 → s.marked p = false → (s.part p).faults = [] →
      ∃ t, exec (.xltSwapDone p) s = .next t ∧ SameBytes s t ∧ (t.reg .MOD_XLT_SWAP p).getLsbD 30 = false ∧
        (t.reg .MOD_XLT_SWAP p).getLsbD 28 = true ∧ (t.part p).s2 = some (root, n) ∧ (t.part p).swap = none ∧
        (t.part p).pinned = (s.swapReason p root n pin pn).2.2 ∧ (t.part p).pinnedAt = pin)) ∧
  (∀ (s : State) (a : Agent) (p : PartId) (v : W32), s.mayWrite a { name := .MOD_XLT_INV, i := p } = true →
    v.getLsbD 31 = true → (s.reg .MOD_XLT_INV p).getLsbD 31 = false →
    ∃ t, exec (.xltInvalidateGo a p v) s = .next t ∧ SameBytes s t ∧ (t.reg .MOD_XLT_INV p).getLsbD 31 = true ∧
      (t.part p).inval = some (bitsOf v 7 0)) ∧
  (∀ (s : State) (p : PartId) (ctx : Nat), (s.part p).inval = some ctx → s.marked p = false →
    ∃ t, exec (.xltInvalidateDone p) s = .next t ∧ SameBytes s t ∧ (t.reg .MOD_XLT_INV p).getLsbD 31 = false ∧
      (t.part p).inval = none ∧
      (∀ l, s.partOf l = some p.val → l < 768 → ∀ x ∈ (t.core l).l1x, x.ctx = 255 ∨ x.ctx ≠ ctx ∧ ctx ≠ 255) ∧
      (∀ c ∈ s.clustersOf p, ∀ x ∈ (t.cluster c).l2x, x.1 = 1 → x.2.1 ≠ ctx ∧ ctx ≠ 255))

/-- The next signal of a stream whose source may send and that may follow the ones before it leaves for its home in this module
with the source number that its engine has then, a group whose CSIG it was goes on, and nothing else changes. At its home an
ADD adds its operand, holding at the largest value with SAT set, and a RAISE raises the value to its operand and never lowers
it; the counter's waiters that the value satisfies keep it, the signaller and the time of the counter's die are noted when it
changed, and no other counter changes. A duplicate or refused signal changes no counter, and one that waits behind an earlier
signal or is held changes nothing; an ADD of an engine queue leaves its delivery record, and one of a control core, whose
CSIG has then committed, leaves none; and the acknowledged signal is no longer among those sent. (R270, R274, R275, R276,
R277, R304) -/
def Obligations.SignalsApplyAtTheirHome : Prop :=
  (∀ (s : State) (st : W32) (g h : Sig) (rest : List Sig), (s.stream st.toNat).unsent = g :: rest → s.stamped st g = h →
    s.sourceReady st g.msg.seq g.msg.system = true → s.mayFollow (s.stream st.toNat) h = true → homeModule h.home = none →
    (s.stream st.toNat).sent.contains h = false →
    ∃ t, exec (.signalSend st) s = .next t ∧ t = { s with streams := t.streams, cores := t.cores } ∧ SameBytes s t ∧
      t.stream st.toNat = { s.stream st.toNat with unsent := rest, sent := (s.stream st.toNat).sent ++ [h] } ∧
      h.msg.src = s.streamSrc st ∧ h.msg.operand = g.msg.operand ∧ h.msg.ctr = g.msg.ctr ∧
      (∀ k, k ≠ st.toNat → t.stream k = s.stream k) ∧ (st.getLsbD 31 = false → t.cores = s.cores) ∧
      ∀ gi x, s.group (streamCore st) gi = some x → st.getLsbD 31 = true →
        t.group (streamCore st) gi = some
          (if x.block = bitsOf st 7 0 ∧ x.status = .signalling g.msg.seq then { x with status := .ready } else x)) ∧
  (∀ (s : State) (m : SigMsg) (kind : SigKind), (kind = .add ∨ kind = .raise) → s.triggersOn m.ctr = [] →
    let c := s.counter m.ctr
    let i : Instr := if kind = .add then .signalAdd m else .signalRaise m
    let acked (t : State) : Prop := ∀ st, m.stream = some st → ∀ x ∈ (t.stream st.toNat).sent, x.msg.seq ≠ m.seq
    (s.behind { m with kind := kind } = true → exec i s = .next s) ∧
    (s.behind { m with kind := kind } = false → s.sigOutcome { m with kind := kind } = .applied →
      ∃ t, exec i s = .next t ∧ (Untraced s → SameBytes s t) ∧
        (t.counter m.ctr).value.toNat =
          (if kind = .add then min (c.value.toNat + m.operand.toNat) (2 ^ 64 - 1) else max c.value.toNat m.operand.toNat) ∧
        (t.counter m.ctr).sat = (c.sat || decide (kind = .add ∧ 2 ^ 64 ≤ c.value.toNat + m.operand.toNat)) ∧
        (t.counter m.ctr).waiters = (c.waiters.map fun w =>
          if w.met = none ∧ w.expected.toNat ≤ (t.counter m.ctr).value.toNat
          then { w with met := some (t.counter m.ctr).value } else w) ∧
        ((t.counter m.ctr).value ≠ c.value →
          (t.counter m.ctr).lastSrc = m.src ∧ (t.counter m.ctr).lastTime = s.gtb (counterDie m.ctr)) ∧
        (∀ k, k ≠ m.ctr → t.counter k = s.counter k) ∧ acked t ∧
        ∀ st, m.stream = some st → st.getLsbD 31 = false → kind = .add →
          (bitsOf st 3 0 ≠ 3 →
            t.deliveries = s.deliveries ++ [{ home := counterHome m.ctr, stream := st, seq := m.seq, module := none }]) ∧
          (bitsOf st 3 0 = 3 → ∀ d ∈ t.deliveries, ¬(d.module = none ∧ d.stream = st ∧ d.seq = m.seq))) ∧
    (s.behind { m with kind := kind } = false →
      s.sigOutcome { m with kind := kind } = .duplicate ∨ s.sigOutcome { m with kind := kind } = .refused →
      ∃ t, exec i s = .next t ∧ (Untraced s → SameBytes s t) ∧ t.counters = s.counters ∧ acked t) ∧
    (s.behind { m with kind := kind } = false → s.sigOutcome { m with kind := kind } = .held → exec i s = .next s))

/-- An arrival for a slot that is off, whose bit the mask lacks, or for a phase beyond the next is refused and counted; one for
an earlier phase changes nothing, and none arrives while the slot's node is not awake; one for the current or next phase sets
its bit of that phase's mask. When the arrivals of the current phase then cover the mask of a slot with no parent, its
completion counter, if its handle is valid, is raised to the next phase, the phase advances and the next phase's arrivals
become current. A write that clears ENABLE discards the arrivals and keeps the phase; a write by an agent that may not make
it changes nothing. Selecting a counter of this module that the agent may see, while the view is not busy, leaves its value,
SAT, the number of its waiters, the last signaller and time, and the source numbers of its first waiters in the view's
registers with VALID set; one that it may not see leaves VALID clear and zeros; no counter and no byte changes. (R281, R282,
R283, R289, R366) -/
def Obligations.BarriersAndTheView : Prop :=
  (∀ (s : State) (k : Fin 64) (l : CoreId) (p : W64), s.arrivalSent l k p = none → s.arrivalBehind l k p = false → s.slotGroup k = false →
    (s.nodeAwake (k / 16) = false → exec (.barrierArrive k (.core l) p) s = .next s) ∧ (s.nodeAwake (k / 16) = true →
    let b := s.barrier k
    let ok : Prop := s.slotEnabled k = true ∧ (s.slotMask k).getLsbD l = true ∧ p.toNat ≤ b.phase.toNat + 1
    (¬ ok → s.phaseDone k = false →
      ∃ t, exec (.barrierArrive k (.core l) p) s = .next t ∧ SameBytes s t ∧ t.barriers = s.barriers ∧
        bitsOf (t.reg .FCH_SLOT_STATUS k) 31 16 = min (bitsOf (s.reg .FCH_SLOT_STATUS k) 31 16 + 1) 65535) ∧
    (ok → p.toNat < b.phase.toNat → s.phaseDone k = false → exec (.barrierArrive k (.core l) p) s = .next s) ∧
    (ok → p = b.phase + 1 → p ≠ 0 → s.phaseDone k = false →
      ∃ t, exec (.barrierArrive k (.core l) p) s = .next t ∧ t = { s with barriers := t.barriers } ∧ SameBytes s t ∧
        t.barrier k = { b with nxt := b.nxt ||| BitVec.twoPow 1024 l } ∧ ∀ j, j ≠ k.val → t.barrier j = s.barrier j) ∧
    (ok → p = b.phase → s.slotMask k &&& ~~~(b.cur ||| BitVec.twoPow 1024 l) ≠ 0 →
      ∃ t, exec (.barrierArrive k (.core l) p) s = .next t ∧ t = { s with barriers := t.barriers } ∧ SameBytes s t ∧
        t.barrier k = { b with cur := b.cur ||| BitVec.twoPow 1024 l } ∧ ∀ j, j ≠ k.val → t.barrier j = s.barrier j) ∧
    (ok → p = b.phase → s.slotMask k &&& ~~~(b.cur ||| BitVec.twoPow 1024 l) = 0 → s.slotMask k &&& ~~~b.nxt ≠ 0 →
      s.slotParent k = false → ∀ h c, s.field .FCH_SLOT_COMP k 0 23 0 = h → counterOf 0 h = c → 2 ≤ handleScope h →
      (match s.slotPart k with
        | some q => s.validHandle q h
        | none => s.goodHandle h) = true → s.ownerElsewhere c = none → s.triggersOn c = [] →
      ∃ t, exec (.barrierArrive k (.core l) p) s = .next t ∧ SameBytes s t ∧ SameRegs s t ∧
        t.barrier k = { phase := b.phase + 1, cur := b.nxt, nxt := 0 } ∧ (∀ j, j ≠ k.val → t.barrier j = s.barrier j) ∧
        (t.counter c).value.toNat = max (s.counter c).value.toNat (b.phase + 1).toNat ∧
        ∀ j, j ≠ c → t.counter j = s.counter j))) ∧
  (∀ (s : State) (a : Agent) (k : Fin 64) (r : RegRef) (v : W32), r.i = k.val → r.name.ofSlot = true →
    (s.mayWrite a r = false → exec (.slotRegWrite a r v) s = .next s) ∧
    (s.mayWrite a r = true → r.name = .FCH_SLOT_CFG → r.j = 0 → v.getLsbD 31 = false →
      ∃ t, exec (.slotRegWrite a r v) s = .next t ∧ SameBytes s t ∧
        t.barrier k = { s.barrier k with cur := 0, nxt := 0 } ∧ (t.reg .FCH_SLOT_CFG k).getLsbD 31 = false ∧
        t.counters = s.counters ∧ ∀ j, j ≠ k.val → t.barrier j = s.barrier j)) ∧
  (∀ (s : State) (a : Agent) (v : W32), s.mayWrite a { name := .FCH_VIEW_SEL } = true → (s.reg .FCH_VIEW_SEL).getLsbD 31 = false →
    (∀ k, s.viewCounter a (bitsOf v 23 0) = some k → s.ownerElsewhere k = none → (s.counter k).waiters.length ≤ 16 →
      ∃ t, exec (.viewSnapshot a v) s = .next t ∧ SameBytes s t ∧ t.counters = s.counters ∧ t.cores = s.cores ∧
        (t.reg .FCH_VIEW_STATE).getLsbD 31 = true ∧ (t.reg .FCH_VIEW_STATE).getLsbD 30 = (s.counter k).sat ∧
        bitsOf (t.reg .FCH_VIEW_STATE) 29 16 = (s.counter k).waiters.length ∧
        t.reg .FCH_VIEW_VALUE_LO = (s.counter k).value.setWidth 32 ∧
        t.reg .FCH_VIEW_VALUE_HI = (s.counter k).value.extractLsb' 32 32 ∧ t.reg .FCH_VIEW_LAST_SRC = (s.counter k).lastSrc ∧
        t.reg .FCH_VIEW_LAST_TIME_LO = (s.counter k).lastTime.setWidth 32 ∧
        t.reg .FCH_VIEW_LAST_TIME_HI = (s.counter k).lastTime.extractLsb' 32 32 ∧
        ∀ (n : Nat) (w : Wait), (s.counter k).waiters[n]? = some w → t.reg .FCH_VIEW_WAITER 0 n = s.waitSrc w) ∧
    (s.viewCounter a (bitsOf v 23 0) = none →
      ∃ t, exec (.viewSnapshot a v) s = .next t ∧ SameBytes s t ∧ t.counters = s.counters ∧ t.cores = s.cores ∧
        t.reg .FCH_VIEW_STATE = 0 ∧ t.reg .FCH_VIEW_VALUE_LO = 0 ∧ t.reg .FCH_VIEW_VALUE_HI = 0))

/-- A registration and a retry stall while the counter's node is not awake. A wait that stands and is not satisfied registers at
a home with room, once; one that finds no room asks again later. One that is satisfied, with no damper stop in force and its
core neither migrating nor lost nor in a region without clocks, ends at once: a control core retires its CWAIT with the value
and a group goes on with it; else it stands registered. A retry asks again in the same way, and a wake ends a registered wait
with the value that satisfied it; that of a queued instruction stands until it starts. A wake for such a core changes
nothing, and one in a damper stop is held. (R278, R342, R366, R390) -/
def Obligations.WaitsRegisterAndWake : Prop :=
  let stands (w : Waiter) (x : W64) (y : Wait) : Prop := y.who = w ∧ y.expected = x
  let goesOn (s t : State) (w : Waiter) (k : Nat) (x v : W64) : Prop :=
    SameBytes s t ∧ SameRegs s t ∧ (∀ y ∈ (t.counter k).waiters, ¬ stands w x y) ∧
    (∀ l rd k' x', w = .cc l → (s.cc l).stall = some (.cwait rd k' x') → CcRetired (s.cc l) (t.cc l) rd v ((s.cc l).pc + 4)) ∧
    (∀ l gi g dst k' x' inv, w = .group l gi → s.group l gi = some g → g.status = .waiting dst k' x' inv →
      ∃ h, t.group l gi = some h ∧ h = { g with u := h.u, status := .ready } ∧
        ∀ r, r < 255 → h.ureg r = if some r = dst then v else g.ureg r)
  (∀ (s : State) (w : Waiter) (k : Nat) (x : W64), s.standsIn w k x = true → s.ownerElsewhere k = none →
    (s.nodeAwake (counterDie k) = false → exec (.waitRegister w k x) s = .next s) ∧ (s.nodeAwake (counterDie k) = true →
    ((s.value k).toNat < x.toNat →
      (s.waitsAt (counterHome k) < waitDepth →
        ∃ t, exec (.waitRegister w k x) s = .next t ∧ (∃ y ∈ (t.counter k).waiters, stands w x y) ∧
          t = { s with counters := t.counters } ∧ SameBytes s t ∧ (t.counter k).value = (s.counter k).value ∧
          (∀ j, j ≠ k → t.counter j = s.counter j) ∧
          ∀ y ∈ (t.counter k).waiters, y = { who := w, expected := x } ∨ y ∈ (s.counter k).waiters) ∧
      (waitDepth ≤ s.waitsAt (counterHome k) →
        ∃ t, exec (.waitRegister w k x) s = .next t ∧ (∃ r ∈ t.retries, r.1 = k ∧ stands w x r.2) ∧
          t = { s with retries := t.retries } ∧ SameBytes s t)) ∧
    (x.toNat ≤ (s.value k).toNat → s.damperActive = false → s.wakeHeld w = false → Untraced s → (∀ m, w ≠ .module m) →
      ∃ t, exec (.waitRegister w k x) s = .next t ∧ goesOn s t w k x (s.value k)) ∧
    (x.toNat ≤ (s.value k).toNat → s.damperActive = false → (∃ m, w = .module m) →
      ∃ t, exec (.waitRegister w k x) s = .next t ∧ SameBytes s t ∧ ∀ y ∈ (t.counter k).waiters, ¬ stands w x y) ∧
    (x.toNat ≤ (s.value k).toNat → s.damperActive = true ∨ s.wakeHeld w = true →
      ∃ t, exec (.waitRegister w k x) s = .next t ∧ (∃ y ∈ (t.counter k).waiters, stands w x y) ∧
        t = { s with counters := t.counters } ∧ SameBytes s t))) ∧
  (∀ (s : State) (w : Waiter) (k : Nat) (x : Wait), (s.retries.find? fun r => decide (r.2.who = w)) = some (k, x) →
    (s.nodeAwake (counterDie k) = false → exec (.waitRetryTimer w) s = .next s) ∧
    (s.nodeAwake (counterDie k) = true → s.standsIn w k x.expected = true → (s.value k).toNat < x.expected.toNat → s.ownerElsewhere k = none →
      s.waitsAt (counterHome k) < waitDepth →
      ∃ t, exec (.waitRetryTimer w) s = .next t ∧ (∃ y ∈ (t.counter k).waiters, stands w x.expected y) ∧ (k, x) ∉ t.retries ∧
        SameBytes s t) ∧
    (s.nodeAwake (counterDie k) = true → s.standsIn w k x.expected = false →
      ∃ t, exec (.waitRetryTimer w) s = .next t ∧ (k, x) ∉ t.retries ∧ t = { s with retries := t.retries } ∧ SameBytes s t)) ∧
  (∀ (s : State) (w : Waiter) (k : Nat) (x : Wait) (v : W64), s.satisfied w = some (k, x, v) →
    (s.wakeHeld w = true → exec (.waitWake w) s = .next s) ∧
    (s.wakeHeld w = false → s.damperActive = true → s.damper.heldWakes.contains w = false →
      ∃ t, exec (.waitWake w) s = .next t ∧ t.damper.heldWakes = s.damper.heldWakes ++ [w] ∧
        t = { s with damper := t.damper } ∧ SameBytes s t) ∧
    (s.wakeHeld w = false → s.damperActive = false → Untraced s →
      (∀ l gi, w = .cc l ∨ w = .group l gi → ∃ t, exec (.waitWake w) s = .next t ∧ goesOn s t w k x.expected v) ∧
      (∀ l q acc, w = .entry l q acc → exec (.waitWake w) s = .next s)))

/-- A memory-side operation on memory that no cache holds, with no record held and its power domains ON, leaves its result in the
word at its address and changes no other byte; one on an address that no home serves stops with noSuchAddress. A write of
MOD_GOLD_CTRL keeps armed exactly the armed entries whose bit stays set, and starts a compare for each other bit set; an
agent that may not write it changes nothing. When a compare ends, the entry is armed if its two copies hold the same bytes,
and marked as a mismatch otherwise. No byte changes. (R150, R232, R234) -/
def Obligations.MemoryOperationsAndGoldenCopies : Prop :=
  (∀ (s : State) (op : MemOp) (n old : Nat), memOpBytes op.code = n → s.load op.addr n = old →
    (s.isMemoryRange op.addr n = false → exec (.memSideOp op) s = .fault .noSuchAddress) ∧
    (s.isMemoryRange op.addr n = true → (s.homeOf op.addr).isSome = true → Plain s → s.opRecords = [] →
      s.homesAsleep op.addr n = false →
      ∃ t, exec (.memSideOp op) s = .next t ∧ SameBytesBut s t op.addr n ∧ SameRegs s t ∧
        t.load op.addr n = (memOpNew op.code op.sgn (BitVec.ofNat 64 old) op.operand op.cmp).toNat % 2 ^ (8 * n))) ∧
  (∀ (s : State) (a : Agent) (p : PartId) (v : W32) (cmd : Instr), cmd = .goldArm a p v ∨ cmd = .goldDisarm a p v →
    (s.mayWrite a { name := .MOD_GOLD_CTRL, i := p } = false → exec cmd s = .next s) ∧
    (s.mayWrite a { name := .MOD_GOLD_CTRL, i := p } = true →
      ∃ t, exec cmd s = .next t ∧ t = { s with regs := t.regs } ∧ SameBytes s t ∧
        ∀ i, i < 8 → i < (s.goldens p).length →
          (t.reg .MOD_GOLD_CTRL p).getLsbD i = v.getLsbD i ∧
          (t.reg .MOD_GOLD_STATUS p).getLsbD i = ((s.reg .MOD_GOLD_STATUS p).getLsbD i && v.getLsbD i) ∧
          (t.reg .MOD_GOLD_STATUS p).getLsbD (16 + i) =
            (v.getLsbD i && ((s.reg .MOD_GOLD_STATUS p).getLsbD (16 + i) || !(s.reg .MOD_GOLD_STATUS p).getLsbD i)))) ∧
  (∀ (s : State) (p : PartId) (e : Fin 8) (g : Golden), (s.goldens p)[e.val]? = some g → Plain s →
    ((s.reg .MOD_GOLD_STATUS p).getLsbD (16 + e) = false → exec (.goldCompareDone p e) s = .next s) ∧
    ((s.reg .MOD_GOLD_STATUS p).getLsbD (16 + e) = true →
      ∃ t, exec (.goldCompareDone p e) s = .next t ∧ OnlyReg s t .MOD_GOLD_STATUS p 0 ∧
        (t.reg .MOD_GOLD_STATUS p).getLsbD (16 + e) = false ∧
        ((∀ o, o < g.len → s.byte (g.near + o) = s.byte (g.ring + o)) →
          (t.reg .MOD_GOLD_STATUS p).getLsbD e = true ∧ (t.reg .MOD_GOLD_STATUS p).getLsbD (8 + e) = false) ∧
        ((∃ o, o < g.len ∧ s.byte (g.near + o) ≠ s.byte (g.ring + o)) →
          (t.reg .MOD_GOLD_STATUS p).getLsbD e = false ∧ (t.reg .MOD_GOLD_STATUS p).getLsbD (8 + e) = true)))

/-- Every command of these completes at an address of its memory. An error in an armed golden copy whose other copy reads leaves
that copy's line in its place. One elsewhere that no record covers leaves its 64-byte granule reading as all-ones; no other
byte changes. A Hearth line in error leaves its slice: a clean one is counted as corrected and no byte changes, the granule
of a dirty one reads as all-ones where no record covers it. Patrol wakes a domain that is PARKED or OFF, and reads nothing of
one that is not ON; else it meets an uncorrectable error as a reader does; an error that a code corrects is counted for its
row, and a row with an error before is spared. The first pseudo-channel of a stack that fails takes the spare, and the first
failing lane of a group of 32 a spare lane. An address of no memory stops with noSuchAddress, and one of another memory
changes nothing. (R14, R225, R226, R228, R235, R330, R345, R349, R350, R351, R365) -/
def Obligations.MemoryErrorsAndSpares : Prop :=
  let lostAlone (s t : State) (a : Nat) : Prop := SameBytesBut s t (a / 64 * 64) 64 ∧ ∀ i, i < 64 → t.byte (a / 64 * 64 + i) = 0xFF
  let counted (s t : State) (u : CeUnit) : Prop := SameBytes s t ∧ t.corrected = bumpCe u s.corrected ∧
    (u.kind ≤ 3 → s.erred.contains u = false → t.erred = s.erred ++ [u] ∧ t.spared = s.spared) ∧
    (u.kind ≤ 3 → s.erred.contains u = true → t.spared = s.spared ++ [u] ∧ u ∉ t.erred)
  (∀ (s : State) (a : Nat), s.place a = none → s.isScratch a = false → ∀ who r,
    exec (.nearUe a who) s = .fault .noSuchAddress ∧ exec (.ringUe a) s = .fault .noSuchAddress ∧
    (s.homeOf a = none → exec (.hearthUe ⟨a, r⟩) s = .fault .noSuchAddress) ∧
    exec (.patrolScrub a r) s = .fault .noSuchAddress) ∧
  (∀ (s : State) (a : Nat) (who : UeReader),
    (s.place a = none → s.isScratch a = true → ∀ r,
      exec (.nearUe a who) s = .next s ∧ exec (.ringUe a) s = .next s ∧ exec (.patrolScrub a r) s = .next s) ∧
    (∀ x, s.place a = some x → exec (if x.ring then .nearUe a who else .ringUe a) s = .next s)) ∧
  (∀ (s : State) (a : Nat) (x : Placed) (who : UeReader), s.place a = some x →
    let cmd : Instr := if x.ring then .ringUe a else .nearUe a who
    (∃ t, exec cmd s = .next t) ∧
    (∀ p e side g other, s.armedAt a = some (p, e, side) → (s.goldens p)[e]? = some g →
      other = (if x.ring then g.near + (a - g.ring) else g.ring + (a - g.near)) → s.lineReads other = true →
      ∃ t, exec cmd s = .next t ∧ t.bytes (a / 128 * 128) 128 = s.bytes (other / 128 * 128) 128 ∧
        SameBytesBut s t (a / 128 * 128) 128) ∧
    (s.armedAt a = none → s.coveringEntries a = [] → s.coveringBlocks a = [] →
      ∃ t, exec cmd s = .next t ∧ lostAlone s t a)) ∧
  (∀ (s : State) (a h : Nat), s.isScratch a = false → s.homeOf a = some h →
    (((SMap.get [] s.hearth h).find? fun e => e.1 == a / 128) = none → ∀ r, exec (.hearthUe ⟨a, r⟩) s = .next s) ∧
    (∀ dirty way, ((SMap.get [] s.hearth h).find? fun e => e.1 == a / 128) = some (a / 128, dirty, way) →
      exec (.hearthUe ⟨a, .clean⟩) s = .next s ∧
      (∃ t, exec (.hearthUe ⟨a, .corrected⟩) s = .next t ∧ counted s t (s.hearthUnit a) ∧ t.hearth = s.hearth) ∧
      (∃ t, exec (.hearthUe ⟨a, .uncorrectable⟩) s = .next t ∧ (dirty = false → counted s t (s.hearthUnit a) ∧ t.hearthHolds a = false)) ∧
      (dirty = true → s.coveringEntries a = [] → s.coveringBlocks a = [] →
        ∃ t, exec (.hearthUe ⟨a, .uncorrectable⟩) s = .next t ∧ lostAlone s t a))) ∧
  (∀ (s : State) (a : Nat), s.isScratch a = true →
    exec (.hearthUe ⟨a, .clean⟩) s = .next s ∧
    (∃ t, exec (.hearthUe ⟨a, .corrected⟩) s = .next t ∧ counted s t (s.hearthUnit a)) ∧
    (∃ t, exec (.hearthUe ⟨a, .uncorrectable⟩) s = .next t ∧
      (s.coveringEntries a = [] → s.coveringBlocks a = [] → lostAlone s t a))) ∧
  (∀ (s : State) (a : Nat) (x : Placed), s.place a = some x →
    (s.domainState x.domain ≠ pwOn → ∀ (r : EccResult) (d : Fin 50), d.val = x.domain → exec (.patrolScrub a r) s =
      if s.domainState x.domain = pwParked ∨ s.domainState x.domain = pwOff then exec (.domainDemand d) s else .next s) ∧
    (s.domainState x.domain = pwOn → exec (.patrolScrub a .clean) s = .next s ∧
    exec (.patrolScrub a .uncorrectable) s = (if x.ring then exec (.ringUe a) s else exec (.nearUe a .other) s) ∧
    ∃ t, exec (.patrolScrub a .corrected) s = .next t ∧ counted s t (s.ceUnit a) ∧
      (x.ring = false → windowOf a = none →
        (t.reg .STK_CE_COUNT x.unit).toNat = min ((s.reg .STK_CE_COUNT x.unit).toNat + 1) (2 ^ 32 - 1)))) ∧
  (∀ (s : State) (st : StackId) (pc : Fin 64) (bridge : Fin 4) (lane : Nat),
    ((s.reg .STK_REPAIR st).getLsbD 8 = true → exec (.pseudoChannelFail st pc) s = .next s) ∧
    ((s.reg .STK_REPAIR st).getLsbD 8 = false →
      ∃ t, exec (.pseudoChannelFail st pc) s = .next t ∧ SameBytes s t ∧ (t.reg .STK_REPAIR st).getLsbD 8 = true ∧
        bitsOf (t.reg .STK_REPAIR st) 5 0 = pc.val) ∧
    (∃ t, exec (.bridgeLaneFail bridge none) s = .next t ∧ t = { s with corrected := t.corrected } ∧
      counted s t { kind := 5, unit := bridge }) ∧
    ∃ t, exec (.bridgeLaneFail bridge (some lane)) s = .next t ∧ SameBytes s t ∧
      SMap.get 0 t.bridgeLanes (bridge * 1024 + lane / 32) = SMap.get 0 s.bridgeLanes (bridge * 1024 + lane / 32) + 1 ∧
      (SMap.get 0 s.bridgeLanes (bridge * 1024 + lane / 32) ≠ 0 → t = { s with bridgeLanes := t.bridgeLanes }))

/-- A sample of a stack leaves its temperature, the step of its throttle curve (steps begin above their threshold and end below
it minus their hysteresis), the 25 % floor from 105.0 °C until below 103.0 °C, and the highest temperature seen. A sample of
a region leaves its temperature and step, and one of a die uncore its temperature. Below the shutdown temperature, 110.0 °C
for a stack and 115.0 °C for a region or a die uncore, readiness does not change; from it on the module is shut down for
overtemperature and READY is deasserted. No byte of memory changes in a sample below it. (R43, R236, R359, R410) -/
def Obligations.TemperaturesStepTheThrottles : Prop :=
  ∀ (s : State) (temp : W16),
    (∀ st : StackId, (s.stackCurve st).length < 16 →
      let old := s.field .STK_TEMP st 0 23 20
      ∃ t, exec (.stkTempSample st temp) s = .next t ∧
        (temp.toNat < 1100 → SameBytes s t ∧ t.sto = s.sto ∧ t.cores = s.cores ∧
          bitsOf (t.reg .STK_TEMP st) 15 0 = temp.toNat ∧
          bitsOf (t.reg .STK_TEMP st) 23 20 = throttleStep (s.stackCurve st) old temp.toNat ∧
          ((t.reg .STK_TEMP st).getLsbD 25 = true ↔
            1050 ≤ temp.toNat ∨ (s.reg .STK_TEMP st).getLsbD 25 = true ∧ 1030 ≤ temp.toNat) ∧
          bitsOf (t.reg .STK_TEMP_MAX st) 15 0 = max temp.toNat (bitsOf (s.reg .STK_TEMP_MAX st) 15 0)) ∧
        (1100 ≤ temp.toNat → s.sto.overtemp = false → t.sto.overtemp = true ∧ t.sto.ready = false ∧
          (t.reg .STO_BOOT_STATUS).getLsbD 27 = false)) ∧
    (∀ d : DieId,
      ∃ t, exec (.regionTempSample (.dieUncore d) temp) s = .next t ∧
        (temp.toNat < 1150 → SameBytes s t ∧
          t = { s with sto := { s.sto with dieTemps := SMap.set none s.sto.dieTemps d (some temp.toNat) } }) ∧
        (1150 ≤ temp.toNat → s.sto.overtemp = false → t.sto.overtemp = true ∧ t.sto.ready = false)) ∧
    (∀ r : RegionId,
      ∃ t, exec (.regionTempSample (.region r) temp) s = .next t ∧
        (temp.toNat < 1150 → SameBytes s t ∧ t.sto = s.sto ∧ t.cores = s.cores ∧
          bitsOf (t.reg .RGN_DVFS_STATUS r) 15 0 = temp.toNat ∧
          (t.region r).thermStep = throttleStep (s.regionCurve r) (s.region r).thermStep temp.toNat) ∧
        (1150 ≤ temp.toNat → s.sto.overtemp = false → t.sto.overtemp = true ∧ t.sto.ready = false))

/-- A push by its queue's engine with room stores 64 bytes at the next slot of the ring: the first item of a packet reserves the
header's slot before it, and a header makes the packet valid at its first slot with its number, slot and item count. A push
with no room sets OVERRUN and stores nothing; one that is not the queue's is dropped. Reading the head window hands its 64
bytes to the consumer and changes only byte counters. A release that names the head packet's number frees its slots and
raises the credit counter to the slots freed, and any other changes nothing. Enabling an allowed queue sets ENABLE and
empties it, a refused one sets its error bit; a new reserve waits for resident groups. (R319, R320, R321, R322, R323) -/
def Obligations.StreamQueuesPushAndRelease : Prop :=
  (∀ (s : State) (l : CoreId) (q : Fin 8) (de : Bool) (bs : List (Option Byte)) (x : StreamQ) (n : Nat),
    s.sqEnabled l q = true → s.sqForDe l q = de → s.sq l q = x → s.sqSlots l q = n →
    let word : List Byte := (List.range 64).map fun i => (bs.getD i none).getD 0
    (∀ need, need = (if x.forming = 0 then 2 else 1) → x.used - x.freed + need ≤ n →
      ∃ t, exec (.itemPush l q de bs) s = .next t ∧ SameRegs s t ∧
        t.bytes (s.slotAddr l q ((x.used + need - 1) % n)) 64 = word ∧
        SameBytesBut s t (s.slotAddr l q ((x.used + need - 1) % n)) 64 ∧
        t.sq l q = { x with used := x.used + need, forming := x.forming + need, pushes := x.pushes + 1 }) ∧
    (n < x.used - x.freed + (if x.forming = 0 then 2 else 1) →
      ∃ t, exec (.itemPush l q de bs) s = .next t ∧ OnlyReg s t .CORE_SQ_CFG (s.physOf l) q ∧
        (t.reg .CORE_SQ_CFG (s.physOf l) q).getLsbD 7 = true) ∧
    (0 < x.forming → x.used - x.freed ≤ n →
      ∃ t, exec (.headerPush l q de bs) s = .next t ∧ SameRegs s t ∧
        t.bytes (s.slotAddr l q ((x.used - x.forming) % n)) 64 =
          leBytes 8 (headerWord x.packetNo ((x.used - x.forming) % n) (x.forming - 1)) ++ word.drop 8 ∧
        SameBytesBut s t (s.slotAddr l q ((x.used - x.forming) % n)) 64 ∧
        (t.sq l q).packets = x.packets ++ [((x.used - x.forming) % n, x.forming - 1)] ∧ (t.sq l q).forming = 0 ∧
        (t.sq l q).packetNo = (x.packetNo + 1) % 2 ^ 24)) ∧
  (∀ (s : State) (l : CoreId) (q : Fin 8) (de : Bool) (bs : List (Option Byte)),
    s.sqEnabled l q = false ∨ s.sqForDe l q ≠ de → ∀ cmd ∈ [Instr.itemPush l q de bs, .headerPush l q de bs],
    ∃ t, exec cmd s = .next t ∧ SameBytes s t ∧ t.cores = s.cores) ∧
  (∀ (s : State) (l r : CoreId) (q : Fin 8) (hdr : W64), s.sqEnabled r q = true → s.sqConsumer r q = l.val →
    (∃ t, exec (.headWindowRead l r q) s = .next t ∧ t = { s with counts := t.counts, out := t.out } ∧ SameBytes s t ∧
      t.out = .item l (s.windowBytes l (s.sqBase r q + 128) 64) :: s.out) ∧
    (∀ p rest, (s.sq r q).packets = p :: rest →
      (bitsOf hdr 55 32 ≠ (s.sq r q).headNo → exec (.packetRelease l r q hdr) s = .next s) ∧
      (bitsOf hdr 55 32 = (s.sq r q).headNo → s.triggersOn (r * 256 + bitsOf (s.sqCfg r q) 15 8) = [] →
        ∃ t, exec (.packetRelease l r q hdr) s = .next t ∧ SameBytes s t ∧ SameRegs s t ∧ (t.sq r q).packets = rest ∧
          (t.sq r q).freed = (s.sq r q).freed + p.2 + 1 ∧ (t.sq r q).headNo = ((s.sq r q).headNo + 1) % 2 ^ 24 ∧
          ((s.sq r q).freed + p.2 + 1 < 2 ^ 64 →
            (t.counter (r * 256 + bitsOf (s.sqCfg r q) 15 8)).value.toNat =
            max (s.counter (r * 256 + bitsOf (s.sqCfg r q) 15 8)).value.toNat ((s.sq r q).freed + p.2 + 1))))) ∧
  (∀ (s : State) (a : Agent) (k : PhysId) (q : Fin 8) (v : W32) (l : Nat), s.logicalOf k = some l →
    s.mayWrite a { name := .CORE_SQ_CFG, i := k, j := q } = true →
    ((s.reg .CORE_SQ_CFG k q).getLsbD 31 = true → v.getLsbD 31 = false →
      ∃ t, exec (.sqCfgWrite a k q v) s = .next t ∧ SameBytes s t ∧ (t.reg .CORE_SQ_CFG k q).getLsbD 31 = false ∧
        (t.sq l q).packets = [] ∧ (t.sq l q).packetNo = (s.sq l q).packetNo ∧ (t.sq l q).used = 0) ∧
    ((s.reg .CORE_SQ_CFG k q).getLsbD 31 = false → v.getLsbD 31 = true → 4 ≤ bitsOf v 19 16 → bitsOf v 19 16 ≤ 11 →
      ∃ t, exec (.sqCfgWrite a k q v) s = .next t ∧ SameBytes s t ∧
        (s.sqAllowed l q v = true → (t.reg .CORE_SQ_CFG k q).getLsbD 31 = true ∧
          bitsOf (t.reg .CORE_SQ_CFG k q) 30 8 = bitsOf v 30 8 ∧ (t.sq l q).packets = [] ∧ (t.sq l q).used = 0) ∧
        (s.sqAllowed l q v = false → (t.reg .CORE_SQ_CFG k q).getLsbD 31 = false ∧
          (t.reg .CORE_SQ_CFG k q).getLsbD 6 = true))) ∧
  (∀ (s : State) (a : Agent) (k : PhysId) (v : W32) (l : Nat), s.logicalOf k = some l →
    s.mayWrite a { name := .CORE_SQ_RESV, i := k } = true →
    (64 < bitsOf v 6 0 → exec (.sqResvWrite a k v) s = .next s) ∧
    (bitsOf v 6 0 ≤ 64 → (s.core l).ve.resident ≠ 0 →
      ∃ t, exec (.sqResvWrite a k v) s = .next t ∧ (t.core l).ve.resvPending = some (bitsOf v 6 0) ∧ OnlyCore s t l) ∧
    (bitsOf v 6 0 ≤ 64 → (s.core l).ve.resident = 0 → (s.core l).ve.splitPending = none → (s.core l).ve.grids = [] →
      (s.cluster (l / 8)).pulled = [] → s.physOf l = k →
      ∃ t, exec (.sqResvWrite a k v) s = .next t ∧ SameBytes s t ∧ t.field .CORE_SQ_RESV k 0 6 0 = bitsOf v 6 0 ∧
        (t.core l).ve.resvPending = none))

/-- A census window completes at every arbiter, and at one that is no port changes nothing but arbiters. In a window in which
nothing waits or comes, each child seen to request takes its census weight, and every other none. A request that comes to an
idle core arbiter in a window is granted and stands at its cluster's arbiter, unless one stands there already. An arbiter
grants a request of the first waiting class of urgent, normal and background, the urgent at most 8 times in 64 while others
wait, and in deficit round-robin only within the deficit of its child. A request, or a flit of class 2 to 4 at a port, that
has waited longer than its class threshold becomes urgent there, and none else. With a period and a buffer set and nothing
waiting, an export that the budget covers is counted and writes its sample to memory, and one that it does not cover waits; a
refill leaves BUDGET percent of a microsecond's bytes. Nothing else changes. (R13, R45, R299, R325, R326, R328, R400, R401) -/
def Obligations.ArbitersAndObservation : Prop :=
  (∀ (s : State) (arb : Arbiter) (l : List ArbArrival), ∃ t, exec (.censusWindow arb l) s = .next t ∧
    ((∀ p, arb ≠ .port p) → t = { s with arbs := t.arbs } ∧ SameBytes s t ∧
      (l = [] → (∀ a, arbBelow arb a = true → (s.arb a).waiting = []) → (∀ k, arb ≠ .stack k) →
        (t.arb arb).seen = [] ∧ (t.arb arb).granted = (s.arb arb).granted ∧
        ∀ k, k < arbChildren arb → SMap.get 0 (t.arb arb).weights k =
          (if (s.arb arb).seen.any (fun e => e.1 == k) then s.censusWeight arb k ((s.arb arb).coresOf k) else 0)))) ∧
  (∀ (s : State) (l : CoreId) (e : Fin 3) (c : Fin 256) (n : Nat) (bg : Bool) (up : Arbiter),
    up = .cluster (Fin.ofNat 96 (l / 8)) → (s.arb (.core l)).waiting = [] →
    ∃ t, exec (.censusWindow (.core l) [{ cycle := c, src := .engine l e, bytes := n, background := bg }]) s = .next t ∧
      ((∀ r ∈ (s.arb up).waiting, r.from' ≠ l.val % 8) → (t.arb (.core l)).waiting = [] ∧
        (t.arb up).waiting = (s.arb up).waiting ++ [{ from' := l % 8, core := some l, bytes := n, background := bg }]) ∧
      ((∃ r ∈ (s.arb up).waiting, r.from' = l.val % 8) → t.arb up = s.arb up ∧
        (t.arb (.core l)).waiting = [{ from' := e, core := some l, bytes := n, background := bg }])) ∧
  (∀ (x y : Arb) (a : Arbiter) (q : ArbReq), x.grant a = some (q, y) → q ∈ x.waiting ∧
    (q.urgent = true → (x.recent.filter id).length < 8 ∨ ∀ r ∈ x.waiting, r.urgent = true) ∧
    (q.urgent = false → (∀ r ∈ x.waiting, r.urgent = false) ∨ 8 ≤ (x.recent.filter id).length) ∧
    (q.urgent = false → q.background = true → ∀ r ∈ x.waiting, r.urgent = true ∨ r.background = true) ∧
    ((∀ l, a ≠ .core l) → (∀ c, a ≠ .cluster c) → 0 ≤ SMap.get (0 : Int) y.deficits q.from')) ∧
  (∀ (s : State) (arb : Arbiter) (request waited : Nat),
    ((∀ p, arb ≠ .port p) →
      ((s.arb arb).waiting[request]? = none → ∀ b, exec (.agingPromote arb request b waited) s = .next s) ∧
      (∀ r, (s.arb arb).waiting[request]? = some r →
        exec (.agingPromote arb request (!r.background) waited) s = .next s ∧
        (waited ≤ (if r.background then (s.arbCfg arb).background else (s.arbCfg arb).normal) →
          exec (.agingPromote arb request r.background waited) s = .next s) ∧
        ((if r.background then (s.arbCfg arb).background else (s.arbCfg arb).normal) < waited →
          ∃ t, exec (.agingPromote arb request r.background waited) s = .next t ∧ t = { s with arbs := t.arbs } ∧ SameBytes s t ∧
            (t.arb arb).waiting = (s.arb arb).waiting.set request { r with urgent := true } ∧
            ∀ b, arbKey b ≠ arbKey arb → t.arb b = s.arb b))) ∧
    (∀ p, arb = .port p →
      (∀ b, ∃ t, exec (.agingPromote arb request b waited) s = .next t ∧ SameBytes s t) ∧
      (∀ f, (s.port p).txq[request]? = some f → f.cls = 1 ∨ waited ≤ (if f.cls = 4 then 65536 else 2048) →
        ∀ b, exec (.agingPromote arb request b waited) s = .next s))) ∧
  (∀ (s : State) (a : Nat), s.pair .MOD_OBS_EXP_LO .MOD_OBS_EXP_HI = a → a ≠ 0 → s.field .MOD_OBS_CFG 0 0 15 0 ≠ 0 →
    s.field .MOD_OBS_CFG 0 0 20 16 ≠ 0 → s.obsWaiting = none → Plain s →
    (exportBytes ≤ s.obsBudget → s.isMemoryRange a exportBytes = true →
      ∃ t, exec .counterExport s = .next t ∧ t.bytes a exportBytes = s.sampleBytes ∧ SameBytesBut s t a exportBytes ∧
        t.obsBudget = s.obsBudget - exportBytes ∧ t.obsExports = s.obsExports + 1 ∧ t.obsWaiting = none) ∧
    (s.obsBudget < exportBytes →
      ∃ t, exec .counterExport s = .next t ∧ t = { s with obsWaiting := some (a, s.sampleBytes) } ∧ SameBytes s t)) ∧
  (∀ s : State, s.obsWaiting = none →
    ∃ t, exec .budgetRefill s = .next t ∧ t = { s with obsBudget := s.field .MOD_OBS_CFG 0 0 20 16 * 393000 } ∧ SameBytes s t)

/-- With no table loaded in its place, the built-in table takes each port through its states: enable, light on at least four
wavelengths, lock, parameters (which fail when the roles differ or the peer has this module's own ID, and are answered with
the credits of Table 12.4), credits; a timeout takes a training port down and a disable takes any port to DISABLED; any other
event leaves the state. A wavelength that fails above DOWN is marked, and the map is chosen anew without it, with the ninth
in its place while it works (which eight of nine are used is log entry 29): at once, or in RECOVER by the comparison of maps;
below four wavelengths the link goes DOWN; maps that agree in RECOVER make it ACTIVE. Losing both laser inputs of a die takes
its nine ports DOWN or leaves them DISABLED. No other port, no byte of memory and no other register but the log's status
changes. (R44, R291, R292, R293, R294, R295, R345) -/
def Obligations.LinksTrainAndSpare : Prop :=
  ∀ (s : State), SMap.get [] s.cfg.tables 5 = [] →
    (∀ (p : PortId),
      let st := s.linkState p
      let framed (t : State) : Prop := SameBytes s t ∧ t.cores = s.cores ∧ t.counters = s.counters ∧
        (∀ k, k ≠ p.val → t.port k = s.port k) ∧
        ∀ n i j, i < 4096 → j < 4096 → n ≠ .STO_ALOG_STATUS → (n, i, j) ≠ (.FLP_STATUS, p.val, 0) → t.reg n i j = s.reg n i j
      let ends (i : Instr) (q : State → Prop) : Prop := ∃ t, exec i s = .next t ∧ framed t ∧ q t
      (s.field .FLP_STATUS p 0 22 21 = 2 → exec (.linkEnable p) s = .next s) ∧
      (s.field .FLP_STATUS p 0 22 21 ≠ 2 → ends (.linkEnable p) fun t => t.linkState p = if st = 0 then 1 else st) ∧
      ends (.linkDisable p) (fun t => t.linkState p = if 1 ≤ st ∧ st ≤ 6 then 0 else st) ∧
      (∀ locked : BitVec 9,
        (popcount locked.toNat 9 < 4 → exec (.linkLight p locked) s = .next s) ∧
        (4 ≤ popcount locked.toNat 9 → ends (.linkLight p locked) fun t => (t.port p).lit = locked ∧
          (st ≠ 1 → t.linkState p = st ∧ t.port p = { s.port p with lit := locked }) ∧
          (st = 1 → t.linkState p = 2 ∧ t.failedWaves p = ~~~locked ∧ (t.port p).mapped = mapWaves locked ∧
            (t.port p).deadline = some (s.gtb (p / 9) + 1000000)))) ∧
      ends (.linkLocked p) (fun t => t.linkState p = if st = 2 then 3 else st) ∧
      (∀ peer : LinkParams,
        (st ≠ 3 → exec (.linkParamReceive p peer) s = .next s) ∧
        (st = 3 → ends (.linkParamReceive p peer) fun t => (t.port p).peer = some peer ∧
          (peer.role.toNat ≠ s.field .FLP_STATUS p 0 22 21 ∨ peer.module.toNat = s.moduleId → t.linkState p = 1) ∧
          (peer.role.toNat = s.field .FLP_STATUS p 0 22 21 → peer.module.toNat ≠ s.moduleId → t.linkState p = 4 ∧
            Out.link p 4 creditWord ∈ t.out))) ∧
      (∀ credits : List Nat,
        (st ≠ 4 → exec (.linkCreditsReceive p credits) s = .next s) ∧
        (st = 4 → ends (.linkCreditsReceive p credits) fun t => t.linkState p = 5 ∧ (t.port p).closed = false ∧
          ((s.port p).txq = [] → ∀ v, v < 8 → SMap.get 0 (t.port p).credits v = credits.getD v 0))) ∧
      ((s.port p).deadline = none → exec (.linkTrainingTimeout p) s = .next s) ∧
      (∀ d, (s.port p).deadline = some d → ends (.linkTrainingTimeout p) fun t =>
        t.linkState p = if st = 2 ∨ st = 3 ∨ st = 4 ∨ st = 6 then 1 else st) ∧
      (∀ wave : Fin 9, st ≤ 1 → exec (.linkLanefail p wave) s = .next s) ∧
      (∀ (wave : Fin 9) (failed m : BitVec 9), 2 ≤ st → st ≤ 6 → failed = s.failedWaves p ||| 1#9 <<< wave.val →
        m = mapWaves (~~~failed) → ends (.linkLanefail p wave) fun t => t.failedWaves p = failed ∧
          ((s.port p).mapped.getLsbD wave = false → t.linkState p = st ∧ t.port p = s.port p) ∧
          ((s.port p).mapped.getLsbD wave = true → popcount m.toNat 9 < 4 → t.linkState p = 1) ∧
          ((s.port p).mapped.getLsbD wave = true → 4 ≤ popcount m.toNat 9 →
            t.linkState p = (if st = 5 then 6 else st) ∧ (t.port p).closed = ((s.port p).closed || decide (st = 5)) ∧
            (st ≠ 6 → (t.port p).mapped = m))) ∧
      (∀ (measured map failed m : BitVec 9), failed = s.failedWaves p ||| ~~~measured → m = mapWaves (~~~failed) →
        (st ≠ 6 → exec (.linkMapReceive p measured map) s = .next s) ∧
        (st = 6 → ends (.linkMapReceive p measured map) fun t => t.failedWaves p = failed ∧ (t.port p).mapped = m ∧
          t.linkState p = if popcount m.toNat 9 < 4 then 1 else if m = map then 5 else 6))) ∧
    (∀ (i : Fin 8) (rest : BitVec 8), rest = s.lasers &&& ~~~(1#8 <<< i.val) →
      ∃ t, exec (.laserInputLoss i) s = .next t ∧ SameBytes s t ∧ t.cores = s.cores ∧ t.lasers = rest ∧
        (∀ k, k < 9 → (t.reg .FLP_STATUS (i / 2 * 9 + k)).getLsbD (19 + i % 2) = false) ∧
        ((rest.getLsbD (2 * (i / 2)) || rest.getLsbD (2 * (i / 2) + 1)) = true → t.ports = s.ports) ∧
        ((rest.getLsbD (2 * (i / 2)) || rest.getLsbD (2 * (i / 2) + 1)) = false →
          ∀ k, k < 9 → t.linkState (i / 2 * 9 + k) ≤ 1)) ∧
    (∀ i : Fin 8, ∃ t, exec (.laserInputReturn i) s = .next t ∧ SameBytes s t ∧ t.cores = s.cores ∧ t.ports = s.ports ∧
      t.lasers = s.lasers ||| 1#8 <<< i.val ∧
      ∀ k, k < 9 → (t.reg .FLP_STATUS (i / 2 * 9 + k)).getLsbD (19 + i % 2) = true ∧
        t.linkState (i / 2 * 9 + k) = s.linkState (i / 2 * 9 + k))

/-- The 256 bytes of a flit, with CRC-32C over the first 252, read back as that flit. An ACTIVE port that receives bytes whose
CRC fails counts a corrected error, sends one NAK, counts it and keeps everything else; the next packet flit in order joins
its packet, which is whole with the tail, and any other leaves what has been received. A NAK takes the flits up to the one it
names out of the replay buffer and the rest is sent and counted again. The acknowledgement timer sends an idle flit when
something is to be acknowledged or returned. On the host link an acknowledgement ends the replay of what it names and a NAK
replays the rest (log entry 78). A port that is not ACTIVE does nothing. At its swap time a port, and the module's own
packets with it (log entry 30), take the shadow tables. No other port and no byte of memory changes. (R50, R296, R297, R298,
R312, R318, R330) -/
def Obligations.FlitsAreAcknowledgedAndRetried : Prop :=
  (∀ f : Flit, f.payload.length = 244 → (flitBytes f).length = 256 ∧ flitOf (flitBytes f) = some f) ∧
  ∀ (s : State) (p : PortId) (x : Port), s.port p = x →
    let framed (t : State) : Prop := SameBytes s t ∧ t.cores = s.cores ∧ t.counters = s.counters ∧
      (∀ k, k ≠ p.val → t.port k = s.port k) ∧
      ∀ n i j, i < 4096 → j < 4096 → (n, i, j) ≠ (.FLP_ERRS, p.val, 0) → t.reg n i j = s.reg n i j
    let ends (i : Instr) (q : State → Prop) : Prop := ∃ t, exec i s = .next t ∧ framed t ∧ q t
    let acked (ack : BitVec 12) : List (BitVec 12 × HostMsg) := s.hostLink.replay.dropWhile fun e => decide ((ack - e.1).toNat < 2048)
    (s.portActive p = false → ∀ bs ack, exec (.flitReceive p bs) s = .next s ∧ exec (.nakReceive p ack) s = .next s ∧
      exec (.ackTimer p) s = .next s) ∧
    (s.portActive p = true →
      (∀ bs, flitOf bs = none → ends (.flitReceive p bs) fun t =>
        t.corrected = bumpCe { kind := 6, unit := p } s.corrected ∧
        (x.nakSent = true → t = { s with corrected := t.corrected }) ∧
        (x.nakSent = false → (t.port p).nakSent = true ∧ (t.port p).rxNext = x.rxNext ∧
          (t.port p).inbox = x.inbox ∧ t.field .FLP_ERRS p 0 31 16 = min (s.field .FLP_ERRS p 0 31 16 + 1) 65535 ∧
          ∃ g, t.out = .flit p (flitBytes g) :: s.out ∧ g.nak = true ∧ g.ack = x.rxNext - 1)) ∧
      (∀ bs f, flitOf bs = some f → s.hostRole p = true →
        (s.hostPort ≠ some p.val → exec (.flitReceive p bs) s = .next s) ∧
        (s.hostPort = some p.val → ends (.flitReceive p bs) fun t => t.hostLink = { s.hostLink with replay := acked f.ack } ∧
          t.ports = s.ports ∧
          t.out = (if f.nak then ((acked f.ack).map fun e => Out.host p e.1 e.2).reverse else []) ++ s.out)) ∧
      (∀ bs f, flitOf bs = some f → s.hostRole p = false → f.nak = false →
        (2 ≤ f.type.toNat → exec (.flitReceive p bs) s = .next s) ∧
        (f.type = 1 → f.seq = x.rxNext → ∀ pay, pay = (if f.head then [] else SMap.get [] x.rx f.vc.toNat) ++ f.payload →
          ends (.flitReceive p bs) fun t => (t.port p).rxNext = x.rxNext + 1 ∧ (t.port p).nakSent = false ∧
            SMap.get [] (t.port p).rx f.vc.toNat = (if f.tail then [] else pay) ∧
            (∀ v, v ≠ f.vc.toNat → SMap.get [] (t.port p).rx v = SMap.get [] x.rx v) ∧
            (t.port p).inbox = if f.tail then x.inbox ++ [packetOf f.vc pay] else x.inbox) ∧
        (f.type = 0 ∨ f.type = 1 ∧ f.seq ≠ x.rxNext → ends (.flitReceive p bs) fun t => (t.port p).rxNext = x.rxNext ∧
          (t.port p).rx = x.rx ∧ (t.port p).inbox = x.inbox ∧ (f.type = 1 → (t.port p).nakSent = true))) ∧
      (∀ ack : BitVec 12, s.hostRole p = false → x.naksAt.length < 16 → x.txq = [] → ends (.nakReceive p ack) fun t =>
        (t.port p).replay = (x.acked ack).replay ∧ (t.port p).rx = x.rx ∧
        t.count .FLP_CNT_LO p 3 = (s.count .FLP_CNT_LO p 3 + (x.acked ack).replay.length) % 2 ^ 48) ∧
      (∀ ack : BitVec 12, s.hostRole p = true → s.hostPort = some p.val → ends (.nakReceive p ack) fun t =>
        t.hostLink = { s.hostLink with replay := acked ack } ∧ t.ports = s.ports) ∧
      (0 < x.unackedRx ∨ x.owed ≠ [] → ends (.ackTimer p) fun t => (t.port p).unackedRx = 0 ∧
        ∃ g, t.out = .flit p (flitBytes g) :: s.out ∧ g.type = 0 ∧ g.ack = x.rxNext - 1) ∧
      (x.unackedRx = 0 → x.owed = [] → exec (.ackTimer p) s = .next s)) ∧
    (x.swapTime = none → exec (.routeSwapTime p) s = .next s) ∧
    (∀ a, x.swapTime = some a → ∃ t, exec (.routeSwapTime p) s = .next t ∧
      t = { s with ports := t.ports, cfg := { s.cfg with groupRoutes := x.shadowGroup, memberRoutes := x.shadowMember } } ∧
      t.port p = { x with groupRoutes := x.shadowGroup, memberRoutes := x.shadowMember, swapTime := none } ∧
      (∀ k, k ≠ p.val → t.port k = s.port k) ∧ SameBytes s t)

/-- A packet older than 50 µs is discarded and counted. One for another module leaves on its route. For this module a READ is
answered with the bytes and a WRITE performed and acknowledged when admitted, else refused with its reason; READ_DATA,
WRITE_ACK and REFUSE reach the request that waits; a SIGNAL to a counter that this module owns is applied once; a SIGNAL_ACK
takes the signal off its stream; a REGISTER waits at its counter, or is woken at once, a WAKE satisfies the waiters here that
it reaches, a COUNTER_READ is answered with a snapshot in VALUE, and a VALUE completes the load that waits; an owner that
this module is not refuses. A quiet module holds the packets of a fabric port, but MGMT. A READ or WRITE without response is
sent again up to three times and then refused; not during a damper stop. The layouts of the data are log entries 27 and 28,
the release packet log entry 81. (R273, R274, R277, R278, R300, R301, R302, R303, R305, R306, R391) -/
def Obligations.PacketsAreServed : Prop :=
  (∀ (s : State) (p : PortId) (pk : Packet),
    let ops : List (Nat × (PortId → Packet → Instr)) := [(0x01, .read), (0x02, .write), (0x03, .readData), (0x04, .writeAck),
      (0x05, .refuse), (0x10, .signal), (0x11, .signalAck), (0x12, .register), (0x13, .wake), (0x14, .counterRead),
      (0x15, .value)]
    let fabric : Prop := s.field .FLP_STATUS p 0 22 21 = 0
    let h := natBits pk.addr.toNat 23 0
    let k := counterOf 0 h
    let x : W64 := BitVec.ofNat 64 (fieldLe pk.data 0 8)
    let replies (op addr len : Nat) (data : List Byte) (t : State) : Prop := ∀ q vc, s.routeOut pk.src.toNat op = .send q vc →
      Out.packet q (s.mkPacket pk.src.toNat op pk.tag.toNat addr len 0 vc data) ∈ t.out
    (∃ t, exec (.mgmt p pk) s = .next t ∧ SameBytes s t ∧ t.cores = s.cores ∧ t.counters = s.counters ∧
      (s.aged p pk = false → SameRegs s t) ∧
      (s.aged p pk = true → t.field .FLP_ERRS p 0 15 8 = min (s.field .FLP_ERRS p 0 15 8 + 1) 255)) ∧
    (s.damper.quiet = true → fabric → ∀ o ∈ ops, ∃ t, exec (o.2 p pk) s = .next t ∧ SameBytes s t ∧ t.cores = s.cores ∧
      t.counters = s.counters ∧ (t.port p).held = (s.port p).held ++ [{ pk with op := BitVec.ofNat 6 o.1 }]) ∧
    (s.damper.quiet = false ∨ ¬ fabric →
      (s.aged p pk = true → ∀ o ∈ ops, ∃ t, exec (o.2 p pk) s = .next t ∧ SameBytes s t ∧ t.cores = s.cores ∧
        t.counters = s.counters ∧ t.remotes = s.remotes ∧
        t.field .FLP_ERRS p 0 15 8 = min (s.field .FLP_ERRS p 0 15 8 + 1) 255) ∧
      (s.aged p pk = false → pk.dst.toNat ≠ s.moduleId →
        ∃ t, exec (.packetTransit p pk) s = .next t ∧ SameBytes s t ∧ t.cores = s.cores ∧ t.counters = s.counters ∧
          let way := s.route (s.port p).groupRoutes (s.port p).memberRoutes pk.dst.toNat pk.op.toNat pk.vc.toNat
          (∀ q vc, way = .send q vc → Out.packet q { pk with vc := BitVec.ofNat 3 vc } ∈ t.out) ∧
          (way = .discard → (t.port p).misroutes = (s.port p).misroutes + 1) ∧
          (way = .noRoute → answered pk.op.toNat = true → replies opRefuse 0 1 [] t)) ∧
      (s.aged p pk = false → pk.dst.toNat = s.moduleId → Plain s →
        exec (.packetTransit p pk) s = .next s ∧
        (∀ why, s.rmtRefusal pk false = some why →
          ∃ t, exec (.read p pk) s = .next t ∧ SameBytes s t ∧ t.cores = s.cores ∧ replies opRefuse 0 why [] t) ∧
        (s.rmtRefusal pk false = none → ∃ t, exec (.read p pk) s = .next t ∧ SameBytes s t ∧ t.cores = s.cores ∧
          replies opReadData 0 pk.len.toNat (s.bytes pk.addr.toNat pk.len.toNat) t) ∧
        (∀ why, s.rmtRefusal pk true = some why →
          ∃ t, exec (.write p pk) s = .next t ∧ SameBytes s t ∧ t.cores = s.cores ∧ replies opRefuse 0 why [] t) ∧
        (s.rmtRefusal pk true = none → pk.data.length = pk.len.toNat →
          ∃ t, exec (.write p pk) s = .next t ∧ t.bytes pk.addr.toNat pk.len.toNat = pk.data ∧
            SameBytesBut s t pk.addr.toNat pk.len.toNat ∧ replies opWriteAck 0 0 [] t) ∧
        (∀ r, s.asked { pk with op := 0x03 } [opRead] = some r → (∀ f, r.unit ≠ some (.host f)) → ∃ t, exec (.readData p pk) s = .next t ∧ SameBytes s t ∧
          SMap.get none t.remotes pk.tag.toNat = some { r with resp := some pk.data }) ∧
        (∀ r l, s.asked { pk with op := 0x04 } [opWrite] = some r → r.unit = some (.cc l) →
          ∃ t, exec (.writeAck p pk) s = .next t ∧ SameBytes s t ∧ SMap.get none t.remotes pk.tag.toNat = none ∧
            t.cc l = { s.cc l with remoteWrites := (s.cc l).remoteWrites - 1 }) ∧
        (∀ r l acc e, s.asked { pk with op := 0x04 } [opWrite] = some r → r.unit = some (.de l) → r.grp = some acc →
          r.resp = none → r.refused = none → s.entry l 2 acc = some e →
          ∃ t, exec (.writeAck p pk) s = .next t ∧ SameBytes s t ∧
            SMap.get none t.remotes pk.tag.toNat = some { r with resp := some [] } ∧
            t.entry l 2 acc = some { e with remoteWrites := e.remoteWrites - 1 }) ∧
        (∀ r l, s.asked { pk with op := 0x05 } [opRead, opWrite] = some r → r.pk.op.toNat = opWrite → r.unit = some (.cc l) →
          ∃ t, exec (.refuse p pk) s = .next t ∧ SameBytes s t ∧ SMap.get none t.remotes pk.tag.toNat = none ∧ Logged t 0x14 0 ∧
            t.field .FLP_ERRS p 0 7 0 = min (s.field .FLP_ERRS p 0 7 0 + 1) 255 ∧
            t.cc l = { s.cc l with remoteWrites := (s.cc l).remoteWrites - 1 }) ∧
        (∀ r, s.asked { pk with op := 0x05 } [opRead, opWrite] = some r → r.pk.op.toNat = opRead → (∀ f, r.unit ≠ some (.host f)) →
          ∃ t, exec (.refuse p pk) s = .next t ∧ SameBytes s t ∧
            SMap.get none t.remotes pk.tag.toNat = some { r with refused := some pk.len.toNat }) ∧
        (∀ m, natBits pk.addr.toNat 25 24 ≤ 1 → handleScope h = 3 → s.triggersOn k = [] →
          m = { ctr := k, kind := kindOf (natBits pk.addr.toNat 25 24), stream := some pk.tag, seq := pk.seq,
                src := BitVec.ofNat 32 (fieldLe pk.data 8 4), operand := x } →
          (s.sigOutcome m (some pk.src.toNat) = .applied → ∃ t, exec (.signal p pk) s = .next t ∧ SameBytes s t ∧
            t.cores = s.cores ∧ (t.counter k).value.toNat =
              (if natBits pk.addr.toNat 25 24 = 0 then min ((s.counter k).value.toNat + x.toNat) (2 ^ 64 - 1)
               else max (s.counter k).value.toNat x.toNat) ∧
            (∀ j, j ≠ k → t.counter j = s.counter j) ∧ replies opSignalAck 0 0 [] t) ∧
          (s.sigOutcome m (some pk.src.toNat) = .duplicate → ∃ t, exec (.signal p pk) s = .next t ∧ SameBytes s t ∧
            t.cores = s.cores ∧ t.counters = s.counters ∧ replies opSignalAck 0 0 [] t) ∧
          (s.sigOutcome m (some pk.src.toNat) = .refused → ∃ t, exec (.signal p pk) s = .next t ∧ SameBytes s t ∧
            t.cores = s.cores ∧ t.counters = s.counters ∧ replies opRefuse 0 4 [] t)) ∧
        (natBits pk.addr.toNat 25 24 = kindRelease → ∃ t, exec (.signal p pk) s = .next t ∧ SameBytes s t ∧
          t.cores = s.cores ∧ t.counters = s.counters ∧ replies opSignalAck 0 0 [] t ∧
          ∀ d, d ∈ t.deliveries ↔ d ∈ s.deliveries ∧ ¬(d.module = some pk.src.toNat ∧
            d.stream = BitVec.ofNat 32 (fieldLe pk.data 0 4) ∧
            released d.stream (BitVec.ofNat 32 (fieldLe pk.data 4 4)) d.seq = true)) ∧
        (∀ g, (pk.tag.getLsbD 30 && !pk.tag.getLsbD 31) = false → s.sentTo pk.tag pk.src.toNat = some g →
          ∃ t, exec (.signalAck p pk) s = .next t ∧ (Untraced s → SameBytes s t) ∧
            ∀ y ∈ (t.stream pk.tag.toNat).sent, y.msg.seq ≠ g.msg.seq) ∧
        (s.ownsHere h = false →
          (∃ t, exec (.register p pk) s = .next t ∧ SameBytes s t ∧ t.counters = s.counters ∧ replies opRefuse 0 4 [] t) ∧
          ∃ t, exec (.counterRead p pk) s = .next t ∧ SameBytes s t ∧ t.counters = s.counters ∧ replies opRefuse 0 4 [] t) ∧
        (s.ownsHere h = true →
          (∃ t, exec (.register p pk) s = .next t ∧ SameBytes s t ∧ t.cores = s.cores ∧
            (t.counter k).value = (s.counter k).value ∧
            ((s.counter k).value.toNat < x.toNat →
              (∃ y ∈ (t.counter k).waiters, y.who = .module pk.src ∧ y.expected = x) ∨
              ∃ r ∈ t.retries, r.1 = k ∧ r.2.who = .module pk.src ∧ r.2.expected = x) ∧
            (x.toNat ≤ (s.counter k).value.toNat → s.damperActive = false →
              replies opWake (handleOf k) 8 (leBytes 8 (s.counter k).value.toNat) t)) ∧
          ∃ t, exec (.counterRead p pk) s = .next t ∧ SameBytes s t ∧ t.cores = s.cores ∧ t.counters = s.counters ∧
            replies opValue h 88 (s.snapBytes k) t) ∧
        (s.ownerElsewhere k = some pk.src.toNat → s.triggersOn k = [] →
          ∃ t, exec (.wake p pk) s = .next t ∧ SameBytes s t ∧ t.cores = s.cores ∧
            (t.counter k).waiters = (s.counter k).waiters.map fun w =>
              if w.met = none ∧ w.expected.toNat ≤ x.toNat then { w with met := some x } else w) ∧
        (∀ r l rd a f3 len c, s.asked { pk with op := 0x15 } [opCounterRead] = some r → r.unit = some (.cc l) →
          (s.cc l).stall = some (.load rd a f3 len) → counterOf 0 (natBits r.pk.addr.toNat 23 0) = c →
          a / 8 = counterBase / 8 + c →
          ∃ t, exec (.value p pk) s = .next t ∧ SameBytes s t ∧
            CcRetired (s.cc l) (t.cc l) rd (loadValue f3.toNat (leBytes 8 x.toNat)) ((s.cc l).pc + BitVec.ofNat 64 len))))) ∧
  (∀ (s : State) (tag : W32),
    (s.agesStop = true → exec (.packetResendTimeout tag) s = .next s) ∧
    (s.agesStop = false → ∀ k r, s.remotes.filter (fun e => e.1 % 2 ^ 32 == tag.toNat) = [(k, some r)] →
      SMap.get none s.remotes k = some r →
      ∃ t, exec (.packetResendTimeout tag) s = .next t ∧ (Untraced s → (∀ f, r.unit ≠ some (.host f)) → SameBytes s t) ∧
        (r.resp = none → r.refused = none →
          (r.tries < 3 ∨ r.pk.op.toNat ≠ opRead ∧ r.pk.op.toNat ≠ opWrite → SMap.get none t.remotes k =
            some { r with pk := { r.pk with born := s.gtb.setWidth 32 }, tries := r.tries + 1 }) ∧
          (3 ≤ r.tries → r.pk.op.toNat = opRead → (∀ f, r.unit ≠ some (.host f)) →
            SMap.get none t.remotes k = some { r with refused := some 1 }))))

/-- With no command waiting a step is a tick (log entry 1): every die's copy advances by one, or by two or none at a correction
of a slew; a die that had run ahead leaves that tick out; BUSY of every working engine advances by its region's MHz; errors
corrected are recorded at a whole second. A follower sends its stamp upstream in a packet, or goes into holdover once and
records it; a request is answered on an ACTIVE port with both stamps; a reply moves the time by half of (t2 − t1) − (t4 − t3)
outright at the first lock before ready and is slewed out otherwise. The root's first pulse before ready puts the time on a
whole second, later ones are slewed to; a lost pulse is recorded once; an offset above 100 µs after ready is recorded. A
die's copy behind die 0's gains one tick, one ahead leaves the next out. Loss and return of the reference are recorded with
kind 0x0F. The kinds of the other records are free (log entry 31). (R68, R298, R308, R309, R310, R311, R330, R346, R357,
R358) -/
def Obligations.TimeFollowsItsSources : Prop :=
  ∀ s : State,
    let quiet (t : State) : Prop := SameBytes s t ∧ t.cores = s.cores ∧ t.counters = s.counters
    let ends (i : Instr) (q : State → Prop) : Prop := ∃ t, exec i s = .next t ∧ quiet t ∧ t.ports = s.ports ∧ q t
    let told (t : State) (detail : BitVec 192) : Prop := ∃ r, t.sto.ash.getLast? = some r ∧ r.detail = detail
    let sends (t : State) (p op : Nat) (bs : List Byte) : Prop :=
      (∃ pk, Out.packet p pk ∈ t.out ∧ pk.op = BitVec.ofNat 6 op ∧ pk.data = bs ∧
        ∀ k, (s.port p).peer = some k → pk.dst = BitVec.ofNat 18 k.module.toNat) ∧ ∀ q, q ≠ p → t.port q = s.port q
    (s.pending = [] →
      ∃ t, step s = .next t ∧ SameBytes s t ∧ t.counters = s.counters ∧ t.ports = s.ports ∧
        (∀ l, t.core l = { s.core l with busy := (t.core l).busy }) ∧
        ((s.cores.map (·.1)).Nodup → ∀ (l : CoreId) (e : Nat), 1 ≤ e → e ≤ 3 → SMap.get 0 (t.core l).busy e =
          SMap.get 0 (s.core l).busy e + if (s.core l).busyEngine e then s.mhz (l / 48) else 0) ∧
        (s.time.offset = 0 → ∀ d : DieId, t.gtb d = if d.val ∈ s.time.hold then s.gtb d else s.gtb d + 1) ∧
        ((s.time.phase + 1) % 5000 = 0 → 0 < s.time.offset → s.time.hold = [] →
          (∀ d : DieId, t.gtb d = s.gtb d + 2) ∧ t.time.offset = s.time.offset - 1) ∧
        ((s.time.phase + 1) % 5000 = 0 → s.time.offset < 0 → s.time.hold = [] →
          (∀ d : DieId, t.gtb d = s.gtb d) ∧ t.time.offset = s.time.offset + 1) ∧ t.time.hold = [] ∧
        (s.corrected = [] ∨ t.gtb.toNat % 10 ^ 9 ≠ 0 → t = { s with time := t.time, cores := t.cores }) ∧
        (t.gtb.toNat % 10 ^ 9 = 0 → t.corrected = [] ∧
          (s.corrected ≠ [] → ∃ r, t.sto.ash.getLast? = some r ∧ r.kind = 1 ∧ r.severity = 0))) ∧
    (s.cfg.timeRole ≠ 0 → exec .timeSyncSend s = .next s) ∧
    (s.cfg.timeRole = 0 →
      (∀ p, s.upstream = some p → ∃ t, exec .timeSyncSend s = .next t ∧ quiet t ∧ t.time = { s.time with holdover := false } ∧
        t = { s with time := t.time, ports := t.ports, counts := t.counts, out := t.out } ∧
        sends t p opTimeSync (leBytes 8 (s.gtb (p / 9)).toNat)) ∧
      (s.upstream = none →
        (s.time.holdover = true → exec .timeSyncSend s = .next s) ∧
        (s.time.holdover = false → ends .timeSyncSend fun t => t.time = { s.time with holdover := true } ∧ told t 1))) ∧
    (∀ (p : PortId) (t1 t2 : W64),
      (s.portActive p = false → exec (.timeSync p t1 t2) s = .next s) ∧
      (s.portActive p = true → ∃ t, exec (.timeSync p t1 t2) s = .next t ∧ quiet t ∧
        t = { s with ports := t.ports, counts := t.counts, out := t.out } ∧
        sends t p opTimeReply (leBytes 8 t2.toNat ++ leBytes 8 (s.gtb (p / 9)).toNat))) ∧
    (∀ (p : PortId) (t1 t2 t3 t4 : W64) (d : Int), d = ((t2 - t1).toInt - (t4 - t3).toInt).tdiv 2 →
      (s.upstream ≠ some p.val → exec (.timeReply p t1 t2 t3 t4) s = .next s) ∧
      (s.upstream = some p.val → ∃ t, exec (.timeReply p t1 t2 t3 t4) s = .next t ∧ quiet t ∧
        (∀ q, q ≠ p.val → t.port q = s.port q) ∧ t.time.locked = true ∧ t.time.lastSync = t.gtb ∧
        (s.sto.ready = false → s.time.locked = false →
          (∀ k : DieId, t.gtb k = s.gtb k + BitVec.ofInt 64 d) ∧ t.time.offset = 0) ∧
        (s.sto.ready = true ∨ s.time.locked = true → t.time.gtb = s.time.gtb ∧ t.time.offset = d) ∧
        (s.sto.ready = true → 100000 < d.natAbs → told t 2))) ∧
    (s.cfg.timeRole ≠ 1 ∨ s.cfg.pulse = false → exec .ppsEdge s = .next s ∧ exec .ppsLossTimeout s = .next s) ∧
    (s.cfg.timeRole = 1 → s.cfg.pulse = true → s.gtb.toNat < 2 ^ 63 →
      ends .ppsEdge (fun t => t.time.pps = some t.gtb ∧ t.time.ppsLost = false ∧
        (s.sto.ready = false → s.time.pps = none → t.gtb.toNat % 10 ^ 9 = 0 ∧
          t.gtb.toNat ≤ s.gtb.toNat + 500000000 ∧ s.gtb.toNat ≤ t.gtb.toNat + 500000000 ∧
          ∀ k : DieId, t.gtb k = s.gtb k + (t.gtb - s.gtb)) ∧
        (s.sto.ready = true ∨ s.time.pps ≠ none → t.time.gtb = s.time.gtb ∧
          ((s.gtb.toNat : Int) + t.time.offset) % 10 ^ 9 = 0 ∧ t.time.offset.natAbs ≤ 500000000) ∧
        (s.sto.ready = true → 100000 < t.time.offset.natAbs → told t 2)) ∧
      (s.time.ppsLost = true → exec .ppsLossTimeout s = .next s) ∧
      (s.time.ppsLost = false → ends .ppsLossTimeout fun t => t.time = { s.time with ppsLost := true, offset := 0 } ∧ told t 3)) ∧
    (∀ d : DieId, ∃ t, exec (.gtbDieCheck d) s = .next t ∧ t = { s with time := t.time } ∧ SameBytes s t ∧
      t.time = { s.time with gtb := t.time.gtb, hold := t.time.hold } ∧ (∀ k : DieId, k ≠ d → t.gtb k = s.gtb k) ∧
      (s.gtb d = s.gtb → t = s) ∧
      (0 < (s.gtb - s.gtb d).toInt → t.gtb d = s.gtb d + 1 ∧ t.time.hold = s.time.hold) ∧
      ((s.gtb - s.gtb d).toInt < 0 → t.time.gtb = s.time.gtb ∧ d.val ∈ t.time.hold)) ∧
    (s.time.refOk = true → exec .refclkReturn s = .next s ∧
      ends .refclkLoss fun t => t.time = { s.time with refOk := false } ∧ Logged t 0x0F 2) ∧
    (s.time.refOk = false → exec .refclkLoss s = .next s ∧
      ends .refclkReturn fun t => t.time = { s.time with refOk := true } ∧ Logged t 0x0F 0)

/-- A write that its agent may not make changes nothing, nor does an alias write of a register without an RW field. A plain write
gives the RW bits of a plain register the value written, the set alias old | v, the clear alias old & ~v, the toggle alias
old ^ v; a field whose new value its description does not allow, and every bit that is not RW, keeps its value. CORE_FP_FLAGS
clears the bits written as one. A write of the low word of a pair leaves the value in effect, and a write of the high word
puts both words into effect. No other register and no byte of memory changes. (R8, R9, R378, R379, R382) -/
def Obligations.RegistersAndAliases : Prop :=
  ∀ (s : State) (a : Agent) (r : RegRef) (v old rw : W32), s.regOf r = old → r.name.maskOf .rw = rw →
    let forms : List (Instr × W32) := [(.registerWrite a r v, v), (.setAliasWrite a r v, old ||| v),
      (.clearAliasWrite a r v, old &&& ~~~v), (.toggleAliasWrite a r v, old ^^^ v)]
    (s.mayWrite a r = false → ∀ f ∈ forms, exec f.1 s = .next s) ∧
    (rw = 0 → ∀ f ∈ forms.drop 1, exec f.1 s = .next s) ∧
    (s.mayWrite a r = true →
      (r.name ∈ plainRegs → ∀ f ∈ forms, ∃ t, exec f.1 s = .next t ∧ t = { s with regs := t.regs, effLo := t.effLo } ∧
        SameBytes s t ∧ t.regOf r = r.name.keepAllowed old ((old &&& ~~~rw) ||| (f.2 &&& rw)) ∧
        (∀ n i j, i < 4096 → j < 4096 → (n, i, j) ≠ (r.name, r.i, r.j) → t.reg n i j = s.reg n i j) ∧
        (∀ hi, RegName.rwLow hi = some r.name → t.pair r.name hi r.i r.j = s.pair r.name hi r.i r.j) ∧
        (∀ lo, r.name.rwLow = some lo →
          t.pair lo r.name r.i r.j = (s.reg lo r.i r.j).toNat + (t.regOf r).toNat * 2 ^ 32)) ∧
      (r.name = .CORE_FP_FLAGS → ∃ t, exec (.registerWrite a r v) s = .next t ∧ OnlyReg s t .CORE_FP_FLAGS r.i 0 ∧
        t.regOf r = old &&& ~~~(v &&& 0xFF)))

/-- While no host-link port is ACTIVE no host command has an effect. Otherwise its answers leave on port 34, or on 35 where 34 is
not ACTIVE, numbered and kept for replay. The physical function reads and writes a register of the module block in BAR0 as an
agent does; an offset that holds none reads zero and ignores a write. An access outside every block, of memory it may not
reach, longer than the link carries, or of an absent function is an Unsupported Request or dropped write, with an AER entry
and a record of kind 0x14. In BAR2 it reads and writes memory; an access of a migrating core's window, or of memory whose
power domains are not ON, is held in order of arrival. A doorbell gives its counter the operand after its function's earlier
writes, and is logged when its partition may not name the counter. A trigger is armed, or fires at once when its threshold is
reached. A function-level reset puts the function's doorbells, triggers and MSI-X table back as at reset, and nothing else
changes; that of the physical function does it for all. (R230, R312, R313, R314, R315, R316, R317, R318, R375, R376) -/
def Obligations.HostReachesRegistersAndMemory : Prop :=
  let sent (s t : State) (p : Nat) (m : HostMsg) : Prop :=
    t.hostLink = { s.hostLink with seq := s.hostLink.seq + 1, replay := s.hostLink.replay ++ [(s.hostLink.seq, m)] } ∧
    t.out = .host p s.hostLink.seq m :: s.out
  let refused (s t : State) (f : HostFn) (read : Bool) (a : Nat) : Prop :=
    SameBytes s t ∧ t.cores = s.cores ∧ t.counters = s.counters ∧ Logged t 0x14 0 ∧
    t.hostLink.aer = s.hostLink.aer ++ [(f.number, read, a)] ∧
    (read = true → ∃ p q, s.hostPort = some p ∧ t.out.head? = some (.host p q (.ur f.number)))
  (∀ s : State,
    (s.hostRole 34 = true → s.portActive 34 = true → s.hostPort = some 34) ∧
    (s.hostRole 34 = false ∨ s.portActive 34 = false → s.hostRole 35 = true → s.portActive 35 = true → s.hostPort = some 35) ∧
    (s.hostPort = none → ∀ f b a n bs p d hi vec cfg,
      exec (.hostRead f b a n) s = .next s ∧ exec (.hostWrite f b a bs) s = .next s ∧
      exec (.doorbellRing f p d hi) s = .next s ∧ exec (.triggerArm f vec cfg) s = .next s ∧
      exec (.vfFlr p) s = .next s ∧ exec .pfFlr s = .next s)) ∧
  (∀ (s : State) (p o : Nat) (bs : List Byte), s.hostPort = some p → o % 4 = 0 → bs.length = 4 →
    (∀ r, o < 0x1000000 → inDebugWindow o = false → csrAt o = .reg r .plain →
      (r.name.maskOf .ls = 0 → r.name.maskOf .rc = 0 → r.name.lsHigh = none → isView r.name = false →
        ∃ t, exec (.hostRead .pf0 .bar0 o 4) s = .next t ∧ SameBytes s t ∧
          t = { s with hostLink := t.hostLink, out := t.out } ∧ sent s t p (.data 0 (leBytes 4 (s.view r).toNat))) ∧
      exec (.hostWrite .pf0 .bar0 o bs) s = exec (.registerWrite .pf0 r (BitVec.ofNat 32 (ofLe bs))) s) ∧
    (o < 0x1000000 → csrAt o = .hole →
      (∃ t, exec (.hostRead .pf0 .bar0 o 4) s = .next t ∧ SameBytes s t ∧
        t = { s with hostLink := t.hostLink, out := t.out } ∧ sent s t p (.data 0 [0, 0, 0, 0])) ∧
      exec (.hostWrite .pf0 .bar0 o bs) s = .next s) ∧
    (inBlocks o = false →
      (∃ t, exec (.hostRead .pf0 .bar0 o 4) s = .next t ∧ refused s t .pf0 true o) ∧
      ∃ t, exec (.hostWrite .pf0 .bar0 o bs) s = .next t ∧ refused s t .pf0 false o)) ∧
  (∀ (s : State) (p a : Nat) (bs : List Byte), s.hostPort = some p → csrOffset a = none → windowOf a = none → 0 < bs.length →
    bs.length ≤ 512 →
    (s.inRow a bs.length = true → s.isMemoryRange a bs.length = true → s.remoteOf a = none → Plain s →
      s.homesAsleep a bs.length = false →
      (∃ t, exec (.hostRead .pf0 .bar2 a bs.length) s = .next t ∧ SameBytes s t ∧ SameRegs s t ∧ t.cores = s.cores ∧
        sent s t p (.data 0 (s.bytes a bs.length))) ∧
      ∃ t, exec (.hostWrite .pf0 .bar2 a bs) s = .next t ∧ t.bytes a bs.length = bs ∧ SameBytesBut s t a bs.length ∧
        SameRegs s t) ∧
    (s.inRow a bs.length = false →
      (∃ t, exec (.hostRead .pf0 .bar2 a bs.length) s = .next t ∧ refused s t .pf0 true a) ∧
      ∃ t, exec (.hostWrite .pf0 .bar2 a bs) s = .next t ∧ refused s t .pf0 false a)) ∧
  (∀ (s : State) (a k off : Nat) (bs : List Byte), s.hostPort.isSome = true → csrOffset a = none →
    windowOf a = some (k, off) → off + bs.length ≤ s.lmSize k → bs.length ≤ 512 → s.remoteOf a = none →
    s.fenced k = true → ∃ t, exec (.hostWrite .pf0 .bar2 a bs) s = .next t ∧
      t = { s with hostLink := { s.hostLink with
        held := s.hostLink.held ++ [{ fn := .pf0, targets := [(a, bs.length)], data := some bs }] } }) ∧
  (∀ (s : State) (a : Nat) (bs : List Byte), s.hostPort.isSome = true → csrOffset a = none → windowOf a = none →
    0 < bs.length → bs.length ≤ 512 → s.inRow a bs.length = true → s.isMemoryRange a bs.length = true → s.remoteOf a = none →
    s.homesAsleep a bs.length = true →
    ∃ t, exec (.hostWrite .pf0 .bar2 a bs) s = .next t ∧
      t = { s with hostLink := { s.hostLink with
        held := s.hostLink.held ++ [{ fn := .pf0, targets := [(a, bs.length)], data := some bs }] } }) ∧
  (∀ (s : State) (f : HostFn) (b : Bar) (a n : Nat) (bs : List Byte), s.hostPort.isSome = true →
    (s.present f = false ∨ 4096 < n → ∃ t, exec (.hostRead f b a n) s = .next t ∧ refused s t f true a) ∧
    (s.present f = false ∨ 512 < bs.length → ∃ t, exec (.hostWrite f b a bs) s = .next t ∧ refused s t f false a) ∧
    (s.present f = false → ∀ p d hi vec cfg, exec (.doorbellRing f p d hi) s = .next s ∧
      exec (.triggerArm f vec cfg) s = .next s ∧ (f = .vf p → exec (.vfFlr p) s = .next s))) ∧
  (∀ (s : State) (f : HostFn) (p : PartId) (d : Fin 64) (hi : W32), s.present f = true →
    let r : RegRef := { name := .DB_RING_HI, i := p, j := d }
    let w := s.reg .DB_CFG p d
    let h := s.field .DB_CFG p d 23 0
    let k := counterOf 0 h
    let x := hi.toNat * 2 ^ 32 + (s.reg .DB_RING_LO p d).toNat
    let behind : Prop := ∃ b ∈ s.hostLink.held, b.data ≠ none ∧ b.fn = f
    (s.mayWrite f.agent r = false → exec (.doorbellRing f p d hi) s = .next s) ∧
    (s.mayWrite f.agent r = true →
      (behind → ∃ t, exec (.doorbellRing f p d hi) s = .next t ∧ SameBytes s t ∧ t.counters = s.counters ∧ t.regOf r = hi ∧
        t.hostLink.held = s.hostLink.held ++ [{ fn := f, targets := [], bell := some (p.val, d.val, w, BitVec.ofNat 64 x) }]) ∧
      (¬ behind → bitsOf w 25 24 < 2 → 2 ≤ handleScope h → s.validHandle p h = true → s.ownerElsewhere k = none →
        (∀ n, counterScope k = some (3, n) → s.sysOwner n ≠ none) → s.triggersOn k = [] →
        ∃ t, exec (.doorbellRing f p d hi) s = .next t ∧ OnlyReg { s with counters := t.counters } t .DB_RING_HI p d ∧
          t.regOf r = hi ∧ (∀ j, j ≠ k → t.counter j = s.counter j) ∧
          (bitsOf w 25 24 = 0 → (t.counter k).value.toNat = min ((s.counter k).value.toNat + x) (2 ^ 64 - 1)) ∧
          (bitsOf w 25 24 = 1 → (t.counter k).value.toNat = max (s.counter k).value.toNat x)) ∧
      (¬ behind → bitsOf w 25 24 < 2 → handleScope h < 2 ∨ s.validHandle p h = false →
        ∃ t, exec (.doorbellRing f p d hi) s = .next t ∧ SameBytes s t ∧ t.counters = s.counters ∧ t.cores = s.cores ∧
          t.regOf r = hi ∧ Logged t 0x14 0) ∧
      (¬ behind → 2 ≤ bitsOf w 25 24 →
        ∃ t, exec (.doorbellRing f p d hi) s = .next t ∧ OnlyReg s t .DB_RING_HI p d ∧ t.regOf r = hi))) ∧
  (∀ (s : State) (f : HostFn) (vec : Fin 128) (cfg : W32) (p : Nat), s.present f = true → s.hostPort = some p →
    (trigVector f vec = false → exec (.triggerArm f vec cfg) s = .next s) ∧
    (trigVector f vec = true →
      let h := bitsOf cfg 23 0
      let met : Prop := s.triggerOk f.number vec h = true ∧
        s.pair .TRIG_LO .TRIG_HI f.number vec ≤ (s.value (counterOf 0 h)).toNat
      ∃ t, exec (.triggerArm f vec cfg) s = .next t ∧ SameBytes s t ∧ t.cores = s.cores ∧ t.counters = s.counters ∧
        t.field .TRIG_CFG f.number vec 23 0 = h ∧
        (s.ownerElsewhere (counterOf 0 h) ≠ none → (t.reg .TRIG_CFG f.number vec).getLsbD 31 = cfg.getLsbD 31) ∧
        (s.ownerElsewhere (counterOf 0 h) = none →
          ((t.reg .TRIG_CFG f.number vec).getLsbD 31 = true ↔ cfg.getLsbD 31 = true ∧ ¬ met) ∧
          (cfg.getLsbD 31 = true → met → s.msixMasked f.number vec = false → sent s t p (.msix f.number vec))))) ∧
  (∀ (s : State) (p : PartId), s.hostPort.isSome = true → s.present (.vf p) = true →
    let mine (n : RegName) (i : Nat) : Prop := isDoorbell n = true ∧ i = p.val ∨ isTrigger n = true ∧ i = p.val + 1
    ∃ t, exec (.vfFlr p) s = .next t ∧ SameBytes s t ∧
      t = { s with regs := t.regs, effLo := t.effLo, msixTable := t.msixTable, msixPend := t.msixPend } ∧
      (∀ n i j, i < 4096 → j < 4096 → (mine n i → t.reg n i j = n.resetWord) ∧ (¬ mine n i → t.reg n i j = s.reg n i j)) ∧
      (∀ vec word, vec < 128 → word < 4 → SMap.get 0 t.msixTable (msixKey (p + 1) vec word) = 0) ∧
      ∀ vec, (p.val + 1, vec) ∉ t.msixPend) ∧
  (∀ s : State, s.hostPort.isSome = true →
    ∃ t, exec .pfFlr s = .next t ∧ SameBytes s t ∧
      t = { s with regs := t.regs, effLo := t.effLo, msixTable := t.msixTable, msixPend := t.msixPend } ∧
      (∀ n i j, i < 4096 → j < 4096 → (isDoorbell n = false → isTrigger n = false → t.reg n i j = s.reg n i j) ∧
        (isDoorbell n = true ∧ i < 16 ∨ isTrigger n = true ∧ i < 17 → t.reg n i j = n.resetWord)) ∧
      ∀ fn vec, fn < 17 → vec < 128 → t.msixMasked fn vec = false ∧ (fn, vec) ∉ t.msixPend)

/-- A halt request stops a core that is between two instructions, with cause 3 in dcsr and its pc kept; a resume lets it run; a
single step of a halted core executes one instruction and halts again with cause 4. EBREAK halts with cause 1 where dcsr says
so, else it is a breakpoint exception; a trigger that matches halts with cause 2 or raises that exception, as its action
says. Access Register, Access Memory and the program buffer act on a halted core only (cmderr 4), refuse an Xclq instruction
with cmderr 3, and return their data; a store to counter space is refused. The system bus reads and writes eight aligned
bytes of memory. The cause codes, cmderr codes and trigger fields are those of the RISC-V specifications (log entry 17).
(R384, R385, R386) -/
def Obligations.DebugModuleActs : Prop :=
  (∀ (s : State) (l : CoreId),
    let halts (i : Instr) (cause : Nat) : Prop := ∃ t, exec i s = .next t ∧ SameBytes s t ∧ SameRegs s t ∧
      (∀ k, k ≠ l.val → t.core k = s.core k) ∧ (t.cc l).halted = true ∧ (t.cc l).haltAt = s.gtb (l.val / 192) ∧
      (t.cc l).pc = (s.cc l).pc ∧ (t.cc l).stall = none ∧ bitsOf ((t.cc l).csr csrDcsr) 8 6 = cause ∧
      (∀ r : XReg, (t.cc l).xr r = (s.cc l).xr r) ∧ ∀ k, (t.counter k).value = (s.counter k).value
    let breaks (i : Instr) : Prop := ∃ t, exec i s = .next t ∧ SameBytes s t ∧ SameRegs s t ∧
      (∀ k, k ≠ l.val → t.core k = s.core k) ∧ CcTrapped (s.cc l) (t.cc l) false excBreakpoint (s.cc l).pc
    ((s.cc l).halted = true ∨ s.fenced l = true ∨ (s.cc l).atBoundary = false → exec (.debugHaltReq l) s = .next s) ∧
    ((s.cc l).halted = false → s.fenced l = false → (s.cc l).atBoundary = true → halts (.debugHaltReq l) 3) ∧
    ((s.cc l).halted = false → exec (.debugResumeReq l) s = .next s ∧ exec (.debugSingleStep l) s = .next s) ∧
    ((s.cc l).halted = true →
      (∃ t, exec (.debugResumeReq l) s = .next t ∧ OnlyCC s t l ∧ (t.cc l).halted = false ∧ (t.cc l).pc = (s.cc l).pc ∧
        ((t.cc l).csr csrDcsr).getLsbD 2 = false ∧ ∀ r : XReg, (t.cc l).xr r = (s.cc l).xr r) ∧
      (∀ w, s.fetchWord l = w → bitsOf w 6 0 = 0x13 → f3Of w = 0 → s.imaged l = true → s.fenced l = false → s.quiesced l = false →
        (s.cc l).stopped = false → (s.cc l).stall = none → privBase ≤ (s.cc l).pc.toNat →
        (s.cc l).pc.toNat + 4 ≤ privBase + imemBytes →
        ∃ t, exec (.debugSingleStep l) s = .next t ∧ OnlyCC s t l ∧ (t.cc l).halted = true ∧
          (t.cc l).pc = (s.cc l).pc + 4 ∧ bitsOf ((t.cc l).csr csrDcsr) 8 6 = 4 ∧
          ∀ r : XReg, (t.cc l).xr r = if r.val = 0 then 0 else if r.val = rdOf w then (s.cc l).xr (rs1Of w) + immI w
            else (s.cc l).xr r)) ∧
    (∀ len, CcAt s l 0x00100073 len →
      (((s.cc l).csr csrDcsr).getLsbD 15 = true → halts (.ebreak l) 1) ∧
      (((s.cc l).csr csrDcsr).getLsbD 15 = false → breaks (.ebreak l))) ∧
    (∀ (x : Fin 4) (d : W64), SMap.get 0 (s.cc l).csrs (0x10000 * (x.val + 1) + 0x7A1) = d → (s.cc l).halted = false →
      s.fenced l = false → (s.cc l).atBoundary = true →
      (d.toNat / 2 ^ 60 = 6 → d.toNat / 2 ^ 12 % 16 = 1 → halts (.triggerHit l x) 2) ∧
      (d.toNat / 2 ^ 60 = 6 → d.toNat / 2 ^ 12 % 16 = 0 → breaks (.triggerHit l x)) ∧
      (d.toNat / 2 ^ 60 ≠ 6 → d.toNat / 2 ^ 60 ≠ 3 → exec (.triggerHit l x) s = .next s))) ∧
  (∀ (s : State) (l : CoreId),
    let errs (i : Instr) (e : Nat) : Prop := ∃ t, exec i s = .next t ∧ SameBytes s t ∧ t = { s with dm := t.dm } ∧
      bitsOf (t.dmGet 0x16) 10 8 = e
    let reads (i : Instr) (v : W64) : Prop := ∃ t, exec i s = .next t ∧ SameBytes s t ∧
      t = { s with dm := t.dm, out := .debug v :: s.out } ∧ t.dmGet 0x16 = 0 ∧ t.dmGet 4 = v.setWidth 32 ∧
      t.dmGet 5 = v.extractLsb' 32 32
    ((s.cc l).halted = false → ∀ r wr x a f3, errs (.accessRegister l r wr x) 4 ∧ errs (.accessMemory l a f3 wr) 4 ∧
      errs (.progbufExec l) 4) ∧
    ((s.cc l).halted = true →
      (∀ r wr, errs (.accessRegister l r wr true) 3) ∧
      (∀ r : XReg, reads (.accessRegister l (.x r) none false) ((s.cc l).xr r)) ∧
      (∀ (r : XReg) (v : W64), ∃ t, exec (.accessRegister l (.x r) (some v) false) s = .next t ∧ SameBytes s t ∧
        t = { s with cores := t.cores, dm := t.dm } ∧ (∀ k, k ≠ l.val → t.core k = s.core k) ∧
        (t.cc l).pc = (s.cc l).pc ∧
        ∀ y : XReg, (t.cc l).xr y = if y.val = 0 then 0 else if y = r then v else (s.cc l).xr y) ∧
      (∀ n : BitVec 12, csrExists true n.toNat = true → n ≠ 0xB00 →
        reads (.accessRegister l (.csr n) none false) (s.csrValue l n.toNat)) ∧
      (∀ (n : BitVec 12) wr, csrExists true n.toNat = false → errs (.accessRegister l (.csr n) wr false) 3) ∧
      (∀ (a : W64) (f3 : BitVec 3) (n off : Nat), n = 2 ^ (f3.toNat % 4) → a.toNat % n = 0 →
        s.ccPlace l a.toNat n = .priv off →
        reads (.accessMemory l a f3 none) (BitVec.ofNat 64 ((s.core l).privLoad off n))) ∧
      (∀ (a : W64) (f3 : BitVec 3) (k : Nat), f3.toNat % 4 = 3 → a.toNat % 8 = 0 → s.ccPlace l a.toNat 8 = .counter k →
        (s.ownerElsewhere k = none → reads (.accessMemory l a f3 none) (s.value k)) ∧
        ∀ v, errs (.accessMemory l a f3 (some v)) 5) ∧
      (s.dmGet 0x20 = 0x00100073 → errs (.progbufExec l) 0) ∧
      (bitsOf (s.dmGet 0x20) 6 0 = 0x0B → errs (.progbufExec l) 3) ∧
      (∀ w, s.dmGet 0x20 = w → bitsOf w 6 0 = 0x13 → f3Of w = 0 → s.dmGet 0x21 = 0x00100073 →
        ∃ t, exec (.progbufExec l) s = .next t ∧ SameBytes s t ∧ t = { s with cores := t.cores, dm := t.dm } ∧
          (∀ k, k ≠ l.val → t.core k = s.core k) ∧ (t.cc l).pc = (s.cc l).pc ∧ t.dmGet 0x16 = 0 ∧
          ∀ r : XReg, (t.cc l).xr r = if r.val = 0 then 0 else if r.val = rdOf w then (s.cc l).xr (rs1Of w) + immI w
            else (s.cc l).xr r))) ∧
  (∀ (s : State) (a : Nat) (wr : Option W64),
    (a % 8 ≠ 0 → exec (.sysbusAccess a wr) s = .next s) ∧
    (a % 8 = 0 → csrOffset a = none → windowOf a = none → s.inRow a 8 = true → s.isMemoryRange a 8 = true → Plain s →
      s.homesAsleep a 8 = false →
      (∃ t, exec (.sysbusAccess a none) s = .next t ∧ SameBytes s t ∧ SameRegs s t ∧ t.cores = s.cores ∧
        t.out = .debug (BitVec.ofNat 64 (s.load a 8)) :: s.out) ∧
      ∀ v : W64, ∃ t, exec (.sysbusAccess a (some v)) s = .next t ∧ t.load a 8 = v.toNat ∧ SameBytesBut s t a 8 ∧ SameRegs s t))

/-- A core that fails and neither migrates nor is lost already loses its groups and its stalled instruction; with a working spare
it begins to migrate there, keeping its integer registers, pc and queues, and without one it is lost, its slot FAILED and a
service event logged. When a migration completes, the core runs in the spare's slot, the old slot is FAILED or becomes the
spare, and, where nothing is traced, no byte changes. An error that a code or the second copy of a record corrects is
counted; a record both copies of which are lost is marked. A lag sample begins the counts anew, counts a slow engine's
samples in a row, and in the last of its window moves the core to a spare, or logs it once. A test slice that may run moves
the core off its slot, one that may not is skipped, and its end gives the slot back as the spare or marks it FAILED. A loss
in local memory that no record covers reads as all-ones and stops the partition, as does one in IMEM; RESUME starts its
engines again. The ash log's oldest readable record goes to the window. (R330, R331, R332, R341, R342, R344, R346, R347,
R348, R351, R352, R353) -/
def Obligations.FailuresAndRepair : Prop :=
  (∀ (s : State) (l : CoreId) (i : Instr), i = .datapathCheckFail l ∨ i = .volatileUe ⟨l, .uncorrectable⟩ ∨ i = .heartbeatTimeout l →
    let kept (t : State) : Prop := SameBytes s t ∧ (t.cc l).pc = (s.cc l).pc ∧ (∀ r : XReg, (t.cc l).xr r = (s.cc l).xr r) ∧
      (t.cc l).csrs = (s.cc l).csrs ∧ (t.core l).queues = (s.core l).queues ∧ (t.cc l).stall = none ∧
      (∀ g, t.group l g = none) ∧ t.fenced l = true ∧ ∀ k, k ≠ l.val → t.core k = s.core k
    (s.unplaced l = true → exec i s = .next s) ∧
    (s.unplaced l = false → s.hasSpare (l / 8) = true →
      ∃ t, exec i s = .next t ∧ kept t ∧ (t.cluster (l / 8)).migrating = [(l.val, true, s.slotOf l)] ∧
        (t.reg .CLU_SPARE (l / 8)).getLsbD 31 = true ∧ t.slotOf l = s.slotOf l ∧ t.sto.ash = s.sto.ash) ∧
    (s.unplaced l = false → s.hasSpare (l / 8) = false →
      ∃ t, exec i s = .next t ∧ kept t ∧ (t.core l).lost = true ∧ t.slotOf l = 15 ∧
        (t.reg .CLU_SPARE (l / 8)).getLsbD (16 + s.slotOf l) = true ∧ Logged t 0x20 3)) ∧
  (∀ (s : State) (c : ClusterId), let m := (s.cluster c).migrating
    (m = [] → exec (.migrationComplete c) s = .next s) ∧
    (∀ (l : CoreId) failed old rest, m = (l.val, failed, old) :: rest → l.val / 8 = c.val → old < 9 →
      s.field .CLU_SPARE c 0 3 0 < 9 → s.hostLink.held = [] →
      ∃ t, exec (.migrationComplete c) s = .next t ∧ (Untraced s → SameBytes s t) ∧
        t.slotOf l = s.field .CLU_SPARE c 0 3 0 ∧ (t.cluster c).migrating = rest ∧
        (t.reg .CLU_SPARE c).getLsbD 31 = false ∧ (failed = true → (t.reg .CLU_SPARE c).getLsbD (16 + old) = true) ∧
        bitsOf (t.reg .CLU_SPARE c) 3 0 = (if failed = true ∨ (s.cluster c).test ≠ none then 15 else old) ∧
        (t.cc l).pc = (s.cc l).pc ∧ (∀ r : XReg, (t.cc l).xr r = (s.cc l).xr r) ∧
        ((s.core l).lost = false → (∀ e ∈ rest, e.1 ≠ l.val) → t.unplaced l = false))) ∧
  (∀ (s : State) (l : CoreId) (q : QSel) (acc : Nat),
    let counts (i : Instr) (kind unit : Nat) : Prop := ∃ t row, exec i s = .next t ∧ SameBytes s t ∧ t.cores = s.cores ∧
      t.corrected = bumpCe { kind := kind, unit := unit, row := row } s.corrected
    exec (.volatileUe ⟨l, .clean⟩) s = .next s ∧ counts (.volatileUe ⟨l, .corrected⟩) 0 (s.physOf l) ∧
    counts (.recordStoreUe l q acc .corrected) 1 (l / 8) ∧ counts (.recordStoreUe l q acc .oneCopy) 1 (l / 8) ∧
    (∀ e, s.entry l q acc = some e → ∃ t, exec (.recordStoreUe l q acc .bothCopies) s = .next t ∧ t = { s with cores := t.cores } ∧
      SameBytes s t ∧ t.entry l q acc = some { e with lost := true } ∧ ∀ k, k ≠ l.val → t.core k = s.core k)) ∧
  (∀ (s : State) (r : RegionId) (first : LagEngine), (s.cores.map (·.1)).Nodup →
    let xs := s.paces r
    let low := xs.filter fun x => s.slow r xs x
    let on := (s.reg .RGN_LAG_CFG r).getLsbD 31
    let window := bitsOf (s.reg .RGN_LAG_CFG r) 15 8 * 1000
    let anew (t : State) : Prop := SameBytes s t ∧
      ∀ l, t.core l = if l / 48 = r.val then { s.core l with busy := [], nominal := [] } else s.core l
    (on = false → ∃ t, exec (.lagSample r first) s = .next t ∧ anew t ∧ t = { s with cores := t.cores }) ∧
    (on = true → low = [] → ∃ t, exec (.lagSample r first) s = .next t ∧ anew t ∧
      (t.region r).lag = [] ∧ (t.reg .RGN_LAG_STATUS r).getLsbD 31 = false) ∧
    (∀ x, on = true → low = [x] → let n := SMap.get 0 (s.region r).lag (lagKey x.core x.engine) + 1
      (n * 64 < window → ∃ t, exec (.lagSample r first) s = .next t ∧ anew t ∧
        (t.region r).lag = [(lagKey x.core x.engine, n)] ∧ (t.reg .RGN_LAG_STATUS r).getLsbD 31 = false) ∧
      (window ≤ n * 64 → s.hasSpare (x.core / 8) = true → (s.reg .CLU_SPARE (x.core / 8)).getLsbD 30 = false →
        ∃ t, exec (.lagSample r first) s = .next t ∧ SameBytes s t ∧ bitsOf (t.reg .RGN_LAG_STATUS r) 19 10 = x.core.val ∧
          bitsOf (t.reg .RGN_LAG_STATUS r) 9 8 = lagCode x.engine ∧
          (t.cluster (x.core / 8)).migrating = [(x.core.val, false, s.slotOf x.core)]) ∧
      (window ≤ n * 64 → s.hasSpare (x.core / 8) = false →
        ∃ t, exec (.lagSample r first) s = .next t ∧ anew t ∧ (t.reg .RGN_LAG_STATUS r).getLsbD 31 = true ∧
          (s.lagOf r first (s.region r).lag x.core = none → Logged t 0x0D 2)))) ∧
  (∀ (s : State) (a : Agent) (c : ClusterId) (slot : Fin 9) (i : Instr),
    i = .testSlice c slot ∧ (s.reg .CLU_TEST c).getLsbD 31 = true ∨
      i = .testSliceRun a c slot ∧ s.mayWrite a { name := .CLU_TEST, i := c } = true →
    (s.cluster c).test = none → (s.cluster c).nextSlot = slot →
    (s.skipSlice c slot = true → ∃ t, exec i s = .next t ∧ SameBytes s t ∧ t.cores = s.cores ∧
      (t.cluster c).nextSlot = (slot + 1 : Nat) % 9 ∧ (t.cluster c).test = none ∧ bitsOf (t.reg .CLU_TEST c) 30 28 = 3 ∧
      Logged t 0x05 0) ∧
    (s.skipSlice c slot = false → ∃ t, exec i s = .next t ∧ SameBytes s t ∧ (t.cluster c).nextSlot = (slot + 1 : Nat) % 9 ∧
      (t.cluster c).test = some slot.val ∧ bitsOf (t.reg .CORE_MU_CUBES (c * 9 + slot)) 31 30 = 2 ∧
      (∀ l, s.logicalOf (c * 9 + slot) = some l → (t.cluster c).migrating = [(l, false, slot.val)] ∧ t.fenced l = true) ∧
      (s.logicalOf (c * 9 + slot) = none → t.cores = s.cores ∧ bitsOf (t.reg .CLU_SPARE c) 3 0 = 15))) ∧
  (∀ (s : State) (a : Agent) (c : ClusterId) (slot : Fin 9),
    ((s.reg .CLU_TEST c).getLsbD 31 = false → exec (.testSlice c slot) s = .next s) ∧
    (s.mayWrite a { name := .CLU_TEST, i := c } = false → exec (.testSliceRun a c slot) s = .next s)) ∧
  (∀ (s : State) (c : ClusterId) (r : TestResult),
    ((s.cluster c).test = none → exec (.testSliceEnd c r) s = .next s) ∧
    (∀ slot, (s.cluster c).test = some slot → slot < 9 →
      ((s.cluster c).migrating ≠ [] → exec (.testSliceEnd c r) s = .next s) ∧
      ((s.cluster c).migrating = [] → ∃ t, exec (.testSliceEnd c r) s = .next t ∧ SameBytes s t ∧ t.cores = s.cores ∧
        (t.cluster c).test = none ∧ (t.reg .CLU_TEST c).getLsbD 30 = false ∧
        (r = .failed → (t.reg .CLU_SPARE c).getLsbD (16 + slot) = true ∧ bitsOf (t.reg .CLU_TEST c) 29 28 = 2 ∧
          Logged t 0x05 2) ∧
        (r ≠ .failed → bitsOf (t.reg .CLU_SPARE c) 3 0 = slot ∧ (t.reg .CLU_SPARE c).getLsbD 30 = decide (r = .slow) ∧
          bitsOf (t.reg .CLU_TEST c) 29 28 = 1 ∧ Logged t 0x05 0)))) ∧
  (∀ (s : State) (a : Agent) (p : PartId), let ok := s.mayWrite a { name := .MOD_LOSS_CFG, i := p }
    (ok = false → exec (.lossResume a p) s = .next s) ∧
    (ok = true → ∃ t, exec (.lossResume a p) s = .next t ∧ SameBytes s t ∧ (t.reg .MOD_LOSS_CFG p).getLsbD 31 = false ∧
      bitsOf (t.reg .MOD_LOSS_CFG p) 23 0 = bitsOf (s.reg .MOD_LOSS_CFG p) 23 0 ∧
      (∀ l, l ∉ s.coresOf p → t.core l = s.core l) ∧ (∀ l, (t.cc l).pc = (s.cc l).pc) ∧
      ((s.reg .MOD_LOSS_CFG p).getLsbD 31 = false → t.cores = s.cores) ∧
      ((s.reg .MOD_LOSS_CFG p).getLsbD 31 = true → s.damperActive = false → ∀ l ∈ s.coresOf p,
        (t.cc l).stopped = false ∧ (t.core l).ve.stopped = false))) ∧
  (∀ (s : State) (l : CoreId) (p : Nat), s.partOf l = some p →
    let u (part : RetainedPart) : CeUnit := { kind := 0, unit := s.physOf l, row := Config.rowOf 0 (s.physOf l) (retainedRow part) }
    let stops (t : State) : Prop := (t.reg .MOD_LOSS_CFG p).getLsbD 31 = true ∧ Logged t 0x20 3 ∧
      ∀ k ∈ s.coresOf p, (t.cc k).stopped = true ∧ (t.core k).ve.stopped = true
    (∀ part, exec (.retainedStateUe l ⟨part, .clean⟩) s = .next s ∧ ∃ t, exec (.retainedStateUe l ⟨part, .corrected⟩) s = .next t ∧
      SameBytes s t ∧ t.cores = s.cores ∧ t.corrected = bumpCe (u part) s.corrected) ∧
    (∀ off, 0x80000 ≤ off → exec (.retainedStateUe l ⟨.localMem off, .uncorrectable⟩) s = .next s) ∧
    (∀ off, off < 0x80000 → s.coveringEntries (localAddr l off) = [] → s.coveringBlocks (localAddr l off) = [] →
      ∃ t, exec (.retainedStateUe l ⟨.localMem off, .uncorrectable⟩) s = .next t ∧ stops t ∧
        (∀ x, x / 64 = localAddr l off / 64 → t.byte x = 0xFF) ∧ ∀ x, x / 64 ≠ localAddr l off / 64 → t.byte x = s.byte x) ∧
    (∀ off, off < 0x8000 → ∃ t, exec (.retainedStateUe l ⟨.imem off, .uncorrectable⟩) s = .next t ∧ stops t ∧ SameBytes s t ∧
      (t.core l).privBytes (off / 64 * 64) 64 = List.replicate 64 0xFF ∧
      (∀ x, x / 64 ≠ off / 64 → (t.core l).privBytes x 1 = (s.core l).privBytes x 1) ∧ (t.cc l).pc = (s.cc l).pc) ∧
    (∃ t, exec (.retainedStateUe l ⟨.ccState, .uncorrectable⟩) s = .next t ∧ stops t ∧ SameBytes s t ∧
      ∀ r : XReg, (t.cc l).xr r = (s.cc l).xr r ∨ (t.cc l).xr r = BitVec.allOnes 64)) ∧
  (∀ (s : State), s.sto.ash.length ≤ 65536 →
    (s.readable < s.sto.ash.length → ∃ t, exec .ashRecordReadable s = .next t ∧ OnlyReg s t .STO_ALOG_STATUS 0 0 ∧
      t.readable = s.readable + 1) ∧
    (s.sto.ash.length ≤ s.readable → exec .ashRecordReadable s = .next s)) ∧
  (∀ (s : State) (a : Agent),
    (s.mayWrite a { name := .STO_ALOG_POP } = false ∨ s.readable = 0 → exec (.alogPop a) s = .next s) ∧
    (∀ r, s.mayWrite a { name := .STO_ALOG_POP } = true → 0 < s.readable → oldestRec s.sto.ash = some r →
      ∃ t, exec (.alogPop a) s = .next t ∧ SameBytes s t ∧ t.cores = s.cores ∧ t.sto.ash = s.sto.ash.erase r ∧
        t.readable = s.readable - 1 ∧
        ∀ w, w < 16 → t.reg .STO_ALOG_REC 0 w = BitVec.ofNat 32 (fieldLe r.bytes (4 * w) 4)))

/-- An event posted to a power domain takes the domain's transition for its state: the state's register shows the next state and
the event, the timeout starts, and an action keeps the domain busy until an event ends it; an event with no entry is ignored,
one during an action is held, and, where the action erases nothing and takes no link down, no byte of memory changes; turning
a stack off loses its bytes and no others. A core of a region whose clocks are off runs nothing. DEMAND, IDLE, a timeout and
the written events are posted only under their conditions; an OFF_REQ of a domain in use is logged and ignored. A region's
request, a step that ends, a power sample and a neighbour's heat make the region decide: its target is shown, and one that is
not moving starts one step up or down towards the highest point that target and caps allow. (R43, R359, R360, R361, R362,
R363, R364, R365, R366) -/
def Obligations.PowerDomainsAndPoints : Prop :=
  (∀ (s : State) (d : Fin 50) (a : Agent) (n : Nat), let st := s.domainState d
    let ok := s.mayWrite a { name := .MOD_PWR_EVENT }
    (st = 2 → exec (.domainDemand d) s = .next s) ∧
    (s.domainIdles d n = false → exec (.domainIdle d n) s = .next s) ∧
    (SMap.get none s.pwrDeadline d = none → exec (.domainTimeout d) s = .next s) ∧
    (ok = false → exec (.pwrEventDemand a d) s = .next s ∧ exec (.pwrEventParkReq a d) s = .next s ∧
      exec (.pwrEventOffReq a d) s = .next s) ∧
    (ok = true → s.offRefused d = true → d.val < 49 → ∃ t, exec (.pwrEventOffReq a d) s = .next t ∧ SameBytes s t ∧
      t.cores = s.cores ∧ t.pwrHeld = s.pwrHeld ∧ (∀ k < 49, t.domainState k = s.domainState k) ∧ Logged t 0x10 0)) ∧
  (∀ (s : State) (d : Fin 50) (i : Instr) (ev : Nat), d.val < 49 → s.absentDomain d = false → s.hostLink.held = [] →
    (i = .domainReady d ∧ ev = 5 ∨ i = .domainActionDone d ∧ ev = 6 ∨ i = .domainOvertemp d ∧ ev = 8 ∨
      i = .domainFault d ∧ ev = 9 ∨ (i = .domainTimeout d ∧ ev = 7 ∧ SMap.get none s.pwrDeadline d ≠ none) ∨
      (i = .domainDemand d ∧ ev = 1 ∧ s.domainState d ≠ 2) ∨ (∃ n, i = .domainIdle d n ∧ ev = 2 ∧ s.domainIdles d n = true) ∨
      ∃ a, s.mayWrite a { name := .MOD_PWR_EVENT } = true ∧ (i = .pwrEventDemand a d ∧ ev = 1 ∨
        i = .pwrEventParkReq a d ∧ ev = 3 ∨ i = .pwrEventOffReq a d ∧ ev = 4 ∧ s.offRefused d = false)) →
    let ends : Prop := ev = 5 ∨ ev = 6 ∨ ev = 7 ∨ ev = 9
    let busy (t : State) : Bool := SMap.get false t.pwrBusy d
    let held (t : State) : List Nat := SMap.get [] t.pwrHeld d
    let entry := findEntry (s.stateTable (domainTable d) (builtinPower (domainTable d))) (s.domainState d) ev
    (busy s = true → ¬ ends → ∃ t, exec i s = .next t ∧ SameBytes s t ∧ t.cores = s.cores ∧ held t = held s ++ [ev] ∧
      busy t = true ∧ ∀ k < 49, t.domainState k = s.domainState k) ∧
    ((busy s = false ∨ ends) → held s = [] →
      (entry = none → ∃ t, exec i s = .next t ∧ SameBytes s t ∧ t.cores = s.cores ∧ held t = [] ∧ busy t = false ∧
        ∀ k < 49, t.domainState k = s.domainState k) ∧
      (∀ e, entry = some e → s.sto.overtemp = true → ev = 1 → ∃ t, exec i s = .next t ∧ SameBytes s t ∧ t.cores = s.cores ∧
        ∀ k < 49, t.domainState k = s.domainState k) ∧
      (∀ e, entry = some e → (s.sto.overtemp = false ∨ 1 < ev) → e.nxt < 256 →
        ∃ t, exec i s = .next t ∧ t.reg .MOD_PWR_STATE d = BitVec.ofNat 32 (ev * 256 + e.nxt) ∧ held t = [] ∧
          busy t = decide (1 ≤ e.act ∧ e.act ≤ 4) ∧ (∀ k < 49, k ≠ d.val → t.domainState k = s.domainState k) ∧
          SMap.get none t.pwrDeadline d = (if e.timeout = 0 then none else some (s.gtb + BitVec.ofNat 64 e.timeout)) ∧
          (e.act ≠ 4 → (e.act ≠ 3 ∨ d.val < 40) → SameBytes s t ∧ t.cores = s.cores ∧ t.ports = s.ports) ∧
          (e.act = 4 → 20 ≤ d.val → d.val < 32 → t.cores = s.cores ∧ ∀ x, granuleOf x ∉ s.lost →
            t.byte x = if (s.place x).any (fun y => !y.ring && y.unit == d.val - 20) then 0 else s.byte x)))) ∧
  (∀ (s : State) (l : CoreId), s.regionRuns (l / 48) = false →
    (∀ rd rs1 imm f3, exec (.ccLoad l rd rs1 imm f3) s = .next s) ∧ (∀ irq, exec (.ccInterrupt l irq) s = .next s) ∧
    exec (.waitWake (.cc l)) s = .next s ∧ exec (.mma l) s = .next s ∧ exec (.muStationaryLoad l) s = .next s ∧
    exec (.muDrainFence l) s = .next s ∧ exec (.muPairClose l) s = .next s) ∧
  (∀ (s : State) (r : RegionId), let x := s.region r
    let only (t : State) : Prop := t = { s with regs := t.regs, regions := t.regions } ∧ SameBytes s t ∧
      ∀ k, k ≠ r.val → t.region k = s.region k
    let decides (t : State) (y : Region) (cur : Nat) : Prop := only t ∧ bitsOf (t.reg .RGN_DVFS_STATUS r) 27 24 = t.target r ∧
      (y.move ≠ none ∨ s.curve r = [] → t.region r = y) ∧
      (y.move = none → s.curve r ≠ [] → let want := min (min (t.target r) y.thermCap) (min y.powerCap y.neighCap)
        t.region r = { y with move := if want = cur then none else if cur < want then some (.slewUp (cur + 1))
                                      else some (.switchDown (cur - 1)) } ∧
        (t.reg .RGN_DVFS_STATUS r).getLsbD 20 = decide (want ≠ cur))
    (∀ (a : Agent) (p : PartId) v, let ok := s.mayWrite a { name := .RGN_PERF_REQ, i := r, j := p }
      (ok = false → exec (.perfReqWrite a r p v) s = .next s) ∧
      (ok = true → ∃ t, exec (.perfReqWrite a r p v) s = .next t ∧ decides t x (s.point r) ∧
        (t.reg .RGN_PERF_REQ r p).getLsbD 31 = v.getLsbD 31 ∧ bitsOf (t.reg .RGN_PERF_REQ r p) 3 0 = bitsOf v 3 0)) ∧
    (∀ pt, x.move = some (.slewUp pt) → ∃ t, exec (.voltageSlewDone r) s = .next t ∧ only t ∧
      t.region r = { x with mv := s.pointMv r pt, move := some (.switchUp pt) }) ∧
    (∀ pt, x.move = some (.slewDown pt) → ∃ t, exec (.voltageSlewDone r) s = .next t ∧
      decides t { x with mv := s.pointMv r pt, move := none } (s.point r)) ∧
    (∀ pt, pt < 16 → x.move = some (.switchUp pt) → ∃ t, exec (.clockSwitchDone r) s = .next t ∧ t.point r = pt ∧
      decides t { x with move := none } pt) ∧
    (∀ pt, pt < 16 → x.move = some (.switchDown pt) → ∃ t, exec (.clockSwitchDone r) s = .next t ∧ t.point r = pt ∧ only t ∧
      t.region r = { x with move := some (.slewDown pt) }) ∧
    (x.move = none → exec (.voltageSlewDone r) s = .next s ∧ exec (.clockSwitchDone r) s = .next s) ∧
    (∀ w : W16, let now := s.gtb (r / 4)
      ((s.curve r)[s.point r]? = none → ∃ t, exec (.powerCapSample r w) s = .next t ∧ OnlyReg s t .RGN_POWER r 0 ∧
        t.reg .RGN_POWER r = w.setWidth 32) ∧
      (∀ c, (s.curve r)[s.point r]? = some c → ∃ t, exec (.powerCapSample r w) s = .next t ∧
        t.reg .RGN_POWER r = w.setWidth 32 ∧
        (c.watts * 10 < w.toNat → decides t { x with powerCap := s.point r - 1, lowSince := none } (s.point r)) ∧
        (c.watts * 10 ≥ w.toNat → c.watts * 90 ≤ w.toNat * 10 → decides t { x with lowSince := none } (s.point r)) ∧
        (w.toNat * 10 < c.watts * 90 →
          (x.lowSince = none → decides t { x with lowSince := some now } (s.point r)) ∧
          ∀ t0, x.lowSince = some t0 → decides t
            (if 1000000 ≤ (now - t0).toNat then { x with powerCap := min 15 (x.powerCap + 1), lowSince := some now } else x)
            (s.point r)))) ∧
    (let hot (n : Nat) : Prop := s.regionTemp n + 300 < s.regionTemp r ∧ s.point n < s.point r
     let near (n : Nat) : Prop := s.regionTemp r ≤ s.regionTemp n + 250
     (hot (r ^^^ 1) ∨ hot (r ^^^ 2) → ∃ t, exec (.neighbourCapStep r) s = .next t ∧
       decides t { x with neighCap := s.point r - 1 } (s.point r)) ∧
     (¬ hot (r ^^^ 1) → ¬ hot (r ^^^ 2) → near (r ^^^ 1) → near (r ^^^ 2) → ∃ t, exec (.neighbourCapStep r) s = .next t ∧
       decides t { x with neighCap := 15 } (s.point r)) ∧
     (¬ hot (r ^^^ 1) → ¬ hot (r ^^^ 2) → ¬ (near (r ^^^ 1) ∧ near (r ^^^ 2)) → exec (.neighbourCapStep r) s = .next s)))

/-- A GO starts a change with the next epoch, the mode word and the handle latched, and is refused, with nothing else changed,
while a change is in progress, for a handle that is no module counter of the partition, or for a word with a reserved bit or
THROTTLE 7. A unit of the partition that has not applied the change and stands at its boundary, outside a damper stop, takes
the new epoch and word, and the last one completes the change. ARM and RESUME are taken or refused with their reasons; at T
every idle unit stops and no other; a busy unit stops once, at its boundary; when all have stopped and no traffic remains the
snapshot is written to its buffer and nowhere else; and at the resume time the units go on, but for those that a loss keeps
stopped. (R367, R368, R369, R372, R373, R388, R389, R390, R392, R394) -/
def Obligations.ModesAndTheDamperStop : Prop :=
  (∀ (s : State) (a : Agent) (p : PartId) (v : W32), let ok := s.mayWrite a { name := .MOD_MODE_CTRL, i := p }
    let h := bitsOf v 23 0
    let w := s.reg .MOD_MODE_NEXT p
    let no : Prop := (s.reg .MOD_MODE_CTRL p).getLsbD 30 = true ∨ (h ≠ 0 ∧ ¬ (handleScope h = 2 ∧ s.validHandle p h = true)) ∨
      bitsOf w 10 8 = 7 ∨ bitsOf w 31 16 ≠ 0 ∨ bitsOf w 7 1 ≠ 0
    (ok = false → exec (.modeChangeGo a p v) s = .next s) ∧
    (ok = true → no → ∃ t, exec (.modeChangeGo a p v) s = .next t ∧ OnlyReg s t .MOD_MODE_CTRL p 0 ∧
      (t.reg .MOD_MODE_CTRL p).getLsbD 29 = true ∧ bitsOf (t.reg .MOD_MODE_CTRL p) 23 0 = h ∧
      (t.reg .MOD_MODE_CTRL p).getLsbD 30 = (s.reg .MOD_MODE_CTRL p).getLsbD 30) ∧
    (ok = true → ¬ no → ∃ t, exec (.modeChangeGo a p v) s = .next t ∧ t = { s with regs := t.regs, parts := t.parts } ∧
      SameBytes s t ∧ (t.reg .MOD_MODE_CTRL p).getLsbD 30 = true ∧ (t.reg .MOD_MODE_CTRL p).getLsbD 29 = false ∧
      t.reg .MOD_MODE_EPOCH p = s.reg .MOD_MODE_EPOCH p + 1 ∧
      bitsOf (t.reg .MOD_MODE_STATUS p) 11 0 = (s.modeUnitsOf p).length ∧
      t.part p = { s.part p with modeWord := w, modeHandle := h, modeUnits := [] } ∧ ∀ k, k ≠ p.val → t.part k = s.part k)) ∧
  (∀ (s : State) (p : PartId) (u : ModeUnit), let x := s.part p
    let e := (s.reg .MOD_MODE_EPOCH p).toNat
    let n := (s.modeUnitsOf p).length
    let ok : Prop := (s.reg .MOD_MODE_CTRL p).getLsbD 30 = true ∧ modeKey p u ∉ x.modeUnits ∧ u ∈ s.modeUnitsOf p ∧
      s.atBoundary p e u = true ∧ s.damperActive = false
    let c := counterOf 0 x.modeHandle
    let raised (t : State) : Prop := x.modeHandle ≠ 0 → handleScope x.modeHandle = 2 → s.ownerElsewhere c = none → s.triggersOn c = [] →
      (t.counter c).value.toNat = max (s.counter c).value.toNat (BitVec.ofNat 64 (n * (e - 1) + n)).toNat ∧
      ∀ j, j ≠ c → (t.counter j).value = (s.counter j).value
    (¬ ok → exec (.modeApply p u) s = .next s) ∧
    (ok → ∃ t, exec (.modeApply p u) s = .next t ∧ t.mode p u = (e, x.modeWord) ∧
      (∀ y, y ≠ modeKey p u → SMap.get (0, 0) t.modes y = SMap.get (0, 0) s.modes y) ∧
      (t.part p).modeUnits = x.modeUnits ++ [modeKey p u] ∧
      (Untraced s → traceBit x.modeWord = false → s.triggersOn c = [] → s.ownerElsewhere c = none → SameBytes s t ∧
        ∀ l, t.cc l = if u = .cc (Fin.ofNat 768 l) ∧ l < 768 then { s.cc l with stall := none } else s.cc l) ∧
      (x.modeUnits.length + 1 ≠ n → (t.reg .MOD_MODE_CTRL p).getLsbD 30 = true ∧
        (x.modeUnits.length < n → bitsOf (t.reg .MOD_MODE_STATUS p) 11 0 = n - (x.modeUnits.length + 1))) ∧
      (x.modeUnits.length + 1 = n → (t.reg .MOD_MODE_CTRL p).getLsbD 30 = false ∧ t.reg .MOD_MODE_CUR p = x.modeWord ∧
        bitsOf (t.reg .MOD_MODE_STATUS p) 11 0 = 0 ∧ raised t)) ∧
    ((s.reg .MOD_MODE_CTRL p).getLsbD 30 = false ∨ x.modeHandle = 0 → exec (.modeProgressRaise p) s = .next s) ∧
    ((s.reg .MOD_MODE_CTRL p).getLsbD 30 = true → x.modeHandle ≠ 0 → handleScope x.modeHandle = 2 → s.ownerElsewhere c = none →
      s.triggersOn c = [] → ∃ t, exec (.modeProgressRaise p) s = .next t ∧ t = { s with counters := t.counters } ∧ SameBytes s t ∧
        (t.counter c).value.toNat =
          max (s.counter c).value.toNat (BitVec.ofNat 64 (n * (e - 1) + x.modeUnits.length)).toNat ∧
        ∀ j, j ≠ c → t.counter j = s.counter j)) ∧
  (∀ (s : State) (a : Agent), let ok := s.mayWrite a { name := .MOD_DAMP_CTRL }
    let soon (lo hi : RegName) : Prop :=
      s.pair lo hi < s.gtb.toNat + if (s.reg .MOD_DAMP_CTRL).getLsbD 29 then 20000 else 2000
    let buf := s.pair .MOD_DAMP_BUF_LO .MOD_DAMP_BUF_HI
    let refused (i : Instr) (why : Nat) : Prop := ∃ t, exec i s = .next t ∧ OnlyReg s t .MOD_DAMP_CTRL 0 0 ∧
      bitsOf (t.reg .MOD_DAMP_CTRL) 28 24 = 16 + why
    let taken (i : Instr) (st : Nat) (d : Damper) : Prop := ∃ t, exec i s = .next t ∧ SameBytes s t ∧
      t = { s with regs := t.regs, damper := d } ∧ t.damperState = st ∧ bitsOf (t.reg .MOD_DAMP_CTRL) 28 24 = 0
    let early : Prop := soon .MOD_DAMP_TIME_LO .MOD_DAMP_TIME_HI
    let late : Prop := soon .MOD_DAMP_RES_LO .MOD_DAMP_RES_HI
    (ok = false → exec (.damperArm a) s = .next s ∧ exec (.damperResume a) s = .next s) ∧
    (ok = true →
      (early → refused (.damperArm a) 1) ∧ (¬ early → s.damperState ≠ 0 → refused (.damperArm a) 2) ∧
      (¬ early → s.damperState = 0 → buf = 0 → refused (.damperArm a) 3) ∧
      (¬ early → s.damperState = 0 → buf ≠ 0 → taken (.damperArm a) 1
        { t := BitVec.ofNat 64 (s.pair .MOD_DAMP_TIME_LO .MOD_DAMP_TIME_HI), buf := buf }) ∧
      (s.damperState = 1 → taken (.damperResume a) 0 {}) ∧
      (s.damperState ≠ 1 → late → refused (.damperResume a) 1) ∧
      (s.damperState ≠ 1 → ¬ late → s.damperState ≠ 3 → refused (.damperResume a) 4) ∧
      (¬ late → s.damperState = 3 → taken (.damperResume a) 4
        { s.damper with resumeAt := some (BitVec.ofNat 64 (s.pair .MOD_DAMP_RES_LO .MOD_DAMP_RES_HI)) }))) ∧
  (∀ s : State,
    (s.damperState ≠ 1 → exec .damperTimeReached s = .next s) ∧
    (s.damperState = 1 → s.damper.stops = [] → Untraced s → ∃ t, exec .damperTimeReached s = .next t ∧ SameBytes s t ∧
      t.damperState = 2 ∧ (∀ k : StackId, (t.stack k).stopped = true) ∧ (∀ l, (t.cc l).pc = (s.cc l).pc) ∧
      ∀ u ∈ s.damperUnits, t.hasStopped u = s.unitIdle u ∧ (s.unitIdle u = true → t.isStopped u = true)) ∧
    (∀ u, let ok : Prop := s.damperState = 2 ∧ s.hasStopped u = false ∧ u ∈ s.damperUnits ∧ s.atStop u = true
      (¬ ok → exec (.unitStop u) s = .next s) ∧
      (ok → ∃ t, exec (.unitStop u) s = .next t ∧ (Untraced s → SameBytes s t) ∧ t.hasStopped u = true ∧
        t.isStopped u = true ∧ t.damper.stops.length = s.damper.stops.length + 1 ∧ (∀ l, (t.cc l).pc = (s.cc l).pc) ∧
        ∀ y, y ≠ u → t.isStopped y = s.isStopped y)) ∧
    (let ok : Prop := s.damperState = 2 ∧ (∀ u ∈ s.damperUnits, s.hasStopped u = true) ∧ s.fabricQuiet = true
     let n := 64 + 32 * s.damperUnits.length
     (¬ ok → exec .moduleQuiet s = .next s) ∧
     (ok → Plain s → ∃ t, exec .moduleQuiet s = .next t ∧ t.damperState = 3 ∧ t.damper = { s.damper with quiet := true } ∧
       bitsOf (t.reg .MOD_DAMP_STATUS) 27 16 = s.damperUnits.length ∧ (∀ l, t.cc l = { s.cc l with resv := (t.cc l).resv }) ∧
       SameBytesBut s t s.damper.buf n ∧
       (s.isMemoryRange s.damper.buf n = false → SameBytes s t) ∧
       (s.inRow s.damper.buf n = true → s.isMemoryRange s.damper.buf n = true →
         t.load s.damper.buf 8 = s.damper.t.toNat ∧ t.load (s.damper.buf + 20) 4 = s.damperUnits.length))) ∧
    (s.damperState ≠ 4 → exec .damperResumeTimeReached s = .next s) ∧
    (s.damperState = 4 → s.damper.heldWakes = [] → (∀ p < 36, (s.port p).held = []) →
      ∃ t, exec .damperResumeTimeReached s = .next t ∧ SameBytes s t ∧ t.damper = {} ∧ t.damperState = 0 ∧
        bitsOf (t.reg .MOD_DAMP_STATUS) 15 0 = 0 ∧ (∀ l, (t.cc l).pc = (s.cc l).pc) ∧
        (∀ e ∈ t.remotes, ∀ r, e.2 = some r → r.sent = s.gtb) ∧
        ∀ u ∈ s.damperUnits, t.isStopped u = match u with
          | .cc l => s.lossHalted l
          | .ve l => s.lossHalted l
          | .dist c => s.lossHalted (8 * c)
          | _ => false))

/-- GO queues a submission with its time, source and length, and is refused and logged while the mailbox is busy. The Stoker
takes submissions one at a time, in order, and copies their bytes, or none where they cannot be read. A copied stream clears
GO and, once no repair is under way, is checked: one that fails a check, or whose records need a partition quiesced that is
not, ends with FAIL, its reason and record, a log record and interrupt 17 pending in its partition, and changes nothing else;
one that passes waits to be applied. Applied, it leaves the configuration of its records, the mailbox's sequence number and
DONE, and raises its done counter; a hardware error leaves every value. An image that a check rejects changes nothing but the
reason and the log; one accepted leaves its programs in IMEM, the image and its pinned ranges in the partition, flags and a
halt after a loss clear, and the control core of no other partition changed but for reservations on lines written. (R34, R35,
R51, R53, R54, R55, R56, R58, R60, R62, R89, R178) -/
def Obligations.KindlingAndImages : Prop :=
  (∀ (s : State) (a : Agent) (m : Fin 17), let ok := s.mayWrite a { name := .STO_KS_CTRL, i := m }
    let busy := (s.reg .STO_KS_STATUS m).getLsbD 0
    (ok = false → exec (.ksGo a m) s = .next s) ∧
    (ok = true → busy = true → ∃ t, exec (.ksGo a m) s = .next t ∧ SameBytes s t ∧ t.cores = s.cores ∧ t.cfg = s.cfg ∧
      t.sto.subs = s.sto.subs ∧ t.reg .STO_KS_CTRL m = s.reg .STO_KS_CTRL m ∧ Logged t 0x0E 0) ∧
    (ok = true → busy = false → ∃ t, exec (.ksGo a m) s = .next t ∧ SameBytes s t ∧
      t = { s with regs := t.regs, sto := { s.sto with subs := s.sto.subs ++
        [{ mailbox := m, time := s.gtb, addr := s.pair .STO_KS_ADDR_LO .STO_KS_ADDR_HI m, len := s.field .STO_KS_LEN m 0 20 0 }] } } ∧
      (t.reg .STO_KS_CTRL m).getLsbD 0 = true ∧ (t.reg .STO_KS_STATUS m).getLsbD 0 = true)) ∧
  (∀ (s : State), let waits : Prop := s.sto.copied = none ∧ s.sto.verified = none
    (s.sto.subs = [] ∨ ¬ waits → exec .ksStart s = .next s) ∧
    (∀ x rest, s.sto.subs = x :: rest → waits → Plain s →
      let took (l : Option (List CopyPiece)) : Prop := ∃ t, exec .ksStart s = .next t ∧ SameBytes s t ∧
        t = { s with sto := { s.sto with subs := rest, copied := some (x, l) } }
      (x.len = 0 ∨ 2 ^ 20 < x.len ∨ s.subPieces x = none → took none) ∧
      (∀ l, 0 < x.len → x.len ≤ 2 ^ 20 → s.subPieces x = some l →
        (∀ e ∈ l, ∀ w, e.module = none → windowOf e.addr = some w → s.fenced w.1 = false) →
        (∃ t, exec .ksStart s = .next t ∧ SameBytes s t ∧ t.sto.subs = rest ∧ (t.sto.copied.map (·.1)) = some x) ∧
        ((∀ e ∈ l, e.module = none ∧ e.data = none) →
          took (some (l.map fun e => { e with data := some (s.bytes e.addr e.len) })))))) ∧
  (∀ (s : State) (x : Submission), x.mailbox < 17 → let m := x.mailbox
    let failed (i : Instr) (f : Nat × Nat) : Prop := ∃ t, exec i s = .next t ∧ SameBytes s t ∧
      (∀ l, t.core l = { s.core l with cc := t.cc l } ∧ t.cc l = if m < 16 ∧ l ∈ s.coresOf m
        then (s.cc l).setCsr csrMip (putBit ((s.cc l).csr csrMip) 17 true) else s.cc l) ∧
      t.cfg = s.cfg ∧ t.counters = s.counters ∧ t.sto.copied = none ∧ t.sto.verified = none ∧ t.sto.subs = s.sto.subs ∧
      bitsOf (t.reg .STO_KS_STATUS m) 31 16 = f.2 % 2 ^ 16 ∧ bitsOf (t.reg .STO_KS_STATUS m) 15 4 = min f.1 4095 ∧
      (t.reg .STO_KS_STATUS m).getLsbD 2 = true ∧ (t.reg .STO_KS_STATUS m).getLsbD 0 = false ∧ Logged t 0x0E 0
    let s1 := s.setField .STO_KS_CTRL m 0 0 0 0
    (s.sto.copied = none → exec .ksCopyDone s = .next s) ∧
    (s.sto.copied = some (x, none) →
      (s.repairing m = true → ∃ t, exec .ksCopyDone s = .next t ∧ OnlyReg s t .STO_KS_CTRL m 0 ∧
        (t.reg .STO_KS_CTRL m).getLsbD 0 = false) ∧
      (s.repairing m = false → failed .ksCopyDone (0, if x.len = 0 ∨ 2 ^ 20 < x.len then 0x02 else 0x13))) ∧
    (∀ l bs, s.sto.copied = some (x, some l) → (∀ e ∈ l, e.data ≠ none) → (l.flatMap fun e => e.data.getD []) = bs →
      (s.repairing m = true → ∃ t, exec .ksCopyDone s = .next t ∧ OnlyReg s t .STO_KS_CTRL m 0 ∧
        (t.reg .STO_KS_CTRL m).getLsbD 0 = false) ∧
      (s.repairing m = false →
        (∀ f, s1.checkStream m (some x.time) bs = .error f → failed .ksCopyDone f) ∧
        (∀ c, s1.checkStream m (some x.time) bs = .ok c → ∃ t, exec .ksCopyDone s = .next t ∧
          SameBytes s t ∧ (t.reg .STO_KS_CTRL m).getLsbD 0 = false ∧ (let v := some (x, c.recs, c.seq, c.handle)
            t = { s with regs := t.regs, sto := { s.sto with copied := none, verified := v } })))) ∧
    (s.sto.verified = none → ∀ e, exec (.ksApply e) s = .next s) ∧
    (∀ rs seq h, s.sto.verified = some (x, rs, seq, h) →
      (∀ i e, s.unrested rs = some i → failed (.ksApply e) (i, 0x0F)) ∧
      (s.unrested rs = none → failed (.ksApply true) (0, 0x12)) ∧
      (s.unrested rs = none → ∃ t, exec (.ksApply false) s = .next t ∧ t.sto.verified = none ∧
        SMap.get none t.sto.seqs m = some seq ∧ t.reg .STO_KS_SEQ m = seq ∧ bitsOf (t.reg .STO_KS_STATUS m) 1 0 = 2 ∧
        (h = 0 → SameBytes s t ∧ t.cores = s.cores ∧ t.counters = s.counters) ∧
        ((∀ r ∈ rs, r.type ≠ 0x13 ∧ r.type ≠ 0x14) → t.cfg = s.cfgAfter false rs) ∧
        (∀ r, rs = [r] → r.type = 0x0E →
          let f := (entriesOf r.body 0 8).map fun e => BitVec.ofNat 64 (ofLe e)
          t.cfg = { s.cfg with fold := SMap.set [] s.cfg.fold r.index f }) ∧
        ((∀ r ∈ rs, r.type ≠ 2) → h ≠ 0 → handleScope h = 2 →
          s.ownerElsewhere (counterOf 0 h) = none → s.triggersOn (counterOf 0 h) = [] →
          SameBytes s t ∧ (t.counter (counterOf 0 h)).value.toNat = max (s.counter (counterOf 0 h)).value.toNat seq.toNat)))) ∧
  (∀ (s : State) (p : PartId) (img : Image),
    (s.partCfg p = none → exec (.imageLoad p img) s = .next s) ∧
    (∀ c, s.partCfg p = some c → s.loadReason p c img ≠ 0 → ∃ t, exec (.imageLoad p img) s = .next t ∧ SameBytes s t ∧
      t.cores = s.cores ∧ t.parts = s.parts ∧ t.sto.loadReason = BitVec.ofNat 16 (s.loadReason p c img) ∧ Logged t 0x0E 0) ∧
    (∀ c, s.partCfg p = some c → s.loadReason p c img = 0 → ∃ t, exec (.imageLoad p img) s = .next t ∧
      (t.part p).image = some img.digest ∧ (t.part p).declared = img.pinnedRanges ∧ t.sto.loadReason = 0 ∧
      (t.reg .MOD_LOSS_CFG p).getLsbD 31 = false ∧ (∀ l ∈ s.coresOf p, t.reg .CORE_FP_FLAGS (t.physOf l) = 0) ∧
      (∀ l, (t.cc l).pc = (s.cc l).pc ∧ ∀ r : XReg, (t.cc l).xr r = (s.cc l).xr r) ∧
      (∀ l, l ∉ s.coresOf p → t.cc l = { s.cc l with resv := (t.cc l).resv }) ∧
      ((img.programs.map (·.core)).Nodup → ∀ x ∈ img.programs,
        (t.core x.core).privBytes 0 (4 * x.words.length) = x.words.flatMap fun w => leBytes 4 w.toNat)))

/-- With standby power the straps are sampled and everything but the flash is at reset; the Stoker runs the newer image that
verifies, or the recovery loader. The boot begins when supplies and RESET_N allow it, its phases follow each other, a phase
that fails stops it with its reason and a log record, and READY comes last; self-test leaves each cluster's logical cores in
the working slots in ascending order; phase 5 clears the scratchpads and the counters. A module reset returns cores, counters
and memory to reset and keeps the flash and the log. Management commands without the interface change nothing; discovery,
sensors, the log, measurements, challenges and key exchanges are answered and change nothing else; an update replaces the
older image, or the stream if it passes its checks; and a key slot changes only under a signature that holds. (R404, R405,
R406, R407, R408, R409, R410, R413, R414, R415, R416) -/
def Obligations.StartUpAndManagement : Prop :=
  (∀ s : State, let kept (t : State) : Prop := t = { State.reset with
                  pending := s.pending, freeCtr := s.freeCtr, out := s.out, regs := t.regs, sto := t.sto }
    let flash (t : State) : Prop := t.sto.flashActive = s.sto.flashActive ∧ t.sto.flashPending = s.sto.flashPending ∧
      t.sto.floor = s.sto.floor ∧ t.sto.keys = s.sto.keys ∧ t.sto.imgA = s.sto.imgA ∧ t.sto.imgB = s.sto.imgB
    let a := s.sto.imgA
    let b := s.sto.imgB
    (∀ straps : BitVec 4,
      (s.sto.standby = true → exec (.standbyPowerUp straps) s = .next s) ∧
      (s.sto.standby = false → ∃ t, exec (.standbyPowerUp straps) s = .next t ∧ kept t ∧ flash t ∧ t.variant = s.variant ∧
        t.sto.standby = true ∧ t.sto.ash = s.sto.ashFlash ∧ bitsOf (t.reg .STO_BOOT_STATUS) 23 20 = straps.toNat ∧
        t.recovery = (straps.getLsbD 3 || (!a.sigOk && !b.sigOk)) ∧
        (t.recovery = false → ((t.reg .STO_BOOT_STATUS).getLsbD 24 = true ↔
          b.sigOk = true ∧ (a.sigOk = false ∨ a.version < b.version))))) ∧
    (∃ t, exec .standbyPowerLoss s = .next t ∧ kept t ∧ flash t ∧ t.variant = s.variant ∧ t.sto.standby = false ∧
      ∀ n i j, i < 4096 → j < 4096 → n ≠ .MOD_ID → t.reg n i j = n.resetWord)) ∧
  (∀ s : State, let back (t : State) : Prop := t.cores = [] ∧ t.mem = [] ∧ t.counters = [] ∧ t.cfg = {} ∧ t.sto.ready = false ∧
      t.sto.flashActive = s.sto.flashActive ∧ t.sto.keys = s.sto.keys ∧ (t.reg .STO_BOOT_STATUS).getLsbD 27 = false
    (s.sto.standby = false ∨ s.sto.pg48 = true → exec .pg48Assert s = .next s) ∧
    (s.sto.standby = true → s.sto.pg48 = false → ∃ t, exec .pg48Assert s = .next t ∧
      t = { s with regs := t.regs, sto := { s.sto with pg48 := true } } ∧
      t.bootPhase = if s.recovery = false ∧ s.sto.resetLow = false then 1 else s.bootPhase) ∧
    (s.sto.pg48 = false → exec .pg48Deassert s = .next s) ∧
    (s.sto.pg48 = true → ∃ t, exec .pg48Deassert s = .next t ∧ back t ∧ t.sto.pg48 = false ∧ t.bootPhase = 0 ∧ Logged t 0x20 3) ∧
    (s.sto.standby = false → exec .resetN s = .next s) ∧
    (s.sto.standby = true → ∃ t, exec .resetN s = .next t ∧ back t ∧ t.sto.resetLow = true ∧ t.bootPhase = 0 ∧
      t.sto.ash = s.sto.ash) ∧
    (s.sto.resetLow = false → exec .resetNRelease s = .next s) ∧
    (s.sto.resetLow = true → ∃ t, exec .resetNRelease s = .next t ∧
      t = { s with regs := t.regs, sto := { s.sto with resetLow := false } } ∧
      t.bootPhase = if s.managed = true ∧ s.sto.pg48 = true then 1 else s.bootPhase) ∧
    (s.managed = false ∨ s.sto.overtemp = false → exec .pldmRestart s = .next s) ∧
    (s.managed = true → s.sto.overtemp = true → ∃ t, exec .pldmRestart s = .next t ∧ back t ∧
      t.bootPhase = if s.sto.pg48 = true ∧ s.sto.resetLow = false then 1 else 0)) ∧
  (∀ (s : State) (r : BootReport),
    let fails (why kind sev : Nat) : Prop := ∃ t, exec (.bootPhaseDone r) s = .next t ∧
      (t.reg .STO_BOOT_STATUS).getLsbD 26 = true ∧ bitsOf (t.reg .STO_BOOT_STATUS) 15 0 = why ∧ t.bootPhase = s.bootPhase ∧
      t.sto.ready = false ∧ Logged t kind sev
    let runs : Prop := s.managed = true ∧ s.sto.pg48 = true ∧ s.sto.resetLow = false ∧ s.sto.ready = false ∧
      (s.reg .STO_BOOT_STATUS).getLsbD 26 = false
    (¬ runs ∨ s.bootPhase = 0 ∨ 8 ≤ s.bootPhase → exec (.bootPhaseDone r) s = .next s) ∧
    (runs → s.bootPhase = 1 →
      (r.railsOk = false → fails 0x202 0x12 2) ∧
      (r.railsOk = true → s.sto.overtemp = true → s.cooled = false → exec (.bootPhaseDone r) s = .next s) ∧
      (r.railsOk = true → s.sto.overtemp = false → ∃ t, exec (.bootPhaseDone r) s = .next t ∧ t.bootPhase = 2 ∧
        (∀ d < 4, t.gtb d = s.gtb) ∧
        (s.cfg.tables = [] → s.pwrBusy = [] → s.pwrHeld = [] → (∀ d < 49, s.domainState d = 0) →
          ∀ d < 49, s.absentDomain d = false → t.domainState d = 2))) ∧
    (runs → s.bootPhase = 2 →
      (∀ f, s.checkStream 16 none s.sto.flashActive = .error f → fails (f.2 % 2 ^ 16) 0x0E 0) ∧
      (∀ c, s.checkStream 16 none s.sto.flashActive = .ok c → ∃ t, exec (.bootPhaseDone r) s = .next t ∧ t.bootPhase = 3 ∧
        SameBytes s t ∧ t.cores = s.cores ∧ t.cfg = s.cfgAfter true c.recs ∧ t.sto.digest = sha384 s.sto.flashActive ∧
        t.sto.floor = c.seq ∧ t.sto.doneHandle = c.handle)) ∧
    (runs → s.bootPhase = 3 →
      ((s.unusable r).isSome = true → fails 0x204 0x12 2) ∧
      (s.unusable r = none → ∃ t, exec (.bootPhaseDone r) s = .next t ∧ t.bootPhase = 4 ∧ SameBytes s t ∧ t.cores = s.cores ∧
        ∀ c < 96, let bad := badSlotsIn r c
          let sp := bad.headD (if SMap.get 8 s.cfg.coreMap c ≤ 8 then SMap.get 8 s.cfg.coreMap c else 8)
          bad.length ≤ 1 → (∀ i < 8, t.slotOf (8 * c + i) = if i < sp then i else i + 1) ∧
            bitsOf (t.reg .CLU_SPARE c) 3 0 = (if bad = [] then sp else 15) ∧
            ∀ k < 9, (t.reg .CLU_SPARE c).getLsbD (16 + k) = bad.contains k)) ∧
    (runs → s.bootPhase = 4 →
      (r.badStack = true → fails 0x203 0x12 2) ∧
      (r.badStack = false → ∃ t, exec (.bootPhaseDone r) s = .next t ∧ t.bootPhase = 5 ∧ OnlyReg s t .STO_BOOT_STATUS 0 0)) ∧
    (runs → s.bootPhase = 5 → ∃ t, exec (.bootPhaseDone r) s = .next t ∧ t.bootPhase = 6 ∧ t.counters = [] ∧
      ∀ x, t.byte x = if scratchBase ≤ x ∧ x < scratchEnd then 0 else s.byte x) ∧
    (runs → s.bootPhase = 6 →
      (r.hostLinkOk = false → fails 0x205 0x12 2) ∧
      (r.hostLinkOk = true → ∃ t, exec (.bootPhaseDone r) s = .next t ∧ t.bootPhase = 7 ∧
        ∀ p < 36, s.field .FLP_STATUS p 0 22 21 = 1 → t.field .FLP_STATUS p 0 31 28 = 5)) ∧
    (runs → s.bootPhase = 7 → ∃ t, exec (.bootPhaseDone r) s = .next t ∧ t.sto = { s.sto with ready := true } ∧
      OnlyReg { s with sto := t.sto } t .STO_BOOT_STATUS 0 0 ∧ (t.reg .STO_BOOT_STATUS).getLsbD 27 = true)) ∧
  (∀ (s : State) (bus : Fin 2) (addr : BitVec 7) (x : Sensor) (c : FwComponent) (k : Fin 32) (nonce : BitVec 256) (px py : Nat),
    let answers (i : Instr) (code : Nat) (bs : List Byte) : Prop :=
      exec i s = .next { s with out := .mgmt code bs :: s.out }
    let replies (i : Instr) (code : Nat) (ok : List Byte → Prop) : Prop := ∃ t bs, exec i s = .next t ∧ ok bs ∧
      t = { s with freeCtr := t.freeCtr, out := .mgmt code bs :: s.out }
    let s2 (bs : List Byte) : State := { s with sto := { s.sto with flashPending := bs } }
    (s.sto.standby = false → exec (.i3cDaa bus addr) s = .next s ∧ exec (.pldmDiscovery bus) s = .next s ∧
      exec (.pldmFirmwareUpdate bus c) s = .next s) ∧
    (s.managed = false → ∀ i, i = .pldmGetSensor bus x ∨ i = .pldmAshLogRead bus ∨ i = .spdmGetMeasurements k ∨
      i = .spdmChallenge nonce ∨ i = .spdmKeyExchange px py → exec i s = .next s) ∧
    (s.sto.standby = true →
      (∃ t, exec (.i3cDaa bus addr) s = .next t ∧ SMap.get 0 t.sto.i3c bus = addr.toNat ∧
        t = { s with sto := { s.sto with i3c := t.sto.i3c } }) ∧
      answers (.pldmDiscovery bus) 0 [0x00, 0x02, 0x05, 0x3F] ∧
      (∀ img : FwImage, let n := { img with version := if img.sigOk then max s.sto.imgA.version s.sto.imgB.version + 1 else 0 }
        ∃ t, exec (.pldmFirmwareUpdate bus (.stoker img)) s = .next t ∧ t.out = .mgmt 5 [] :: s.out ∧
          t.sto = if s.sto.imgA.version ≤ s.sto.imgB.version then { s.sto with imgA := n } else { s.sto with imgB := n }) ∧
      (∀ bs, ∃ t, exec (.pldmFirmwareUpdate bus (.stream bs)) s = .next t ∧ SameBytes s t ∧ t.sto.flashPending = bs ∧
        (∀ f, (s2 bs).checkStream 16 none bs = .error f → t.sto.flashActive = s.sto.flashActive ∧ Logged t 0x0E 0) ∧
        (∀ ck, (s2 bs).checkStream 16 none bs = .ok ck → t.sto.flashActive = bs ∧ t.sto.floor = ck.seq))) ∧
    (s.managed = true →
      (∀ v, s.sensor x = some v → answers (.pldmGetSensor bus x) 2 (leBytes 4 v)) ∧
      (s.sensor x = none → replies (.pldmGetSensor bus x) 2 fun bs => bs.length = 4) ∧
      (s.readable = 0 → answers (.pldmAshLogRead bus) 0x3F []) ∧
      (∀ r, 0 < s.readable → oldestRec s.sto.ash = some r → ∃ t, exec (.pldmAshLogRead bus) s = .next t ∧
        t.out = .mgmt 0x3F r.bytes :: s.out ∧ t.sto.ash = s.sto.ash.erase r ∧ t.readable = s.readable - 1) ∧
      (∀ d, s.measurement k = some d → replies (.spdmGetMeasurements k) 0x60 fun bs => bs.take 48 = beBytes 48 d.toNat) ∧
      (s.measurement k = none → answers (.spdmGetMeasurements k) 0x60 []) ∧
      replies (.spdmChallenge nonce) 0x03 (fun _ => True) ∧ replies (.spdmKeyExchange px py) 0x64 fun _ => True)) ∧
  (∀ (s : State) (slot : Fin 4) (key : BitVec 768) (g : MgmtSig),
    let ends (i : Instr) (ok : Prop) (new : KeySlot) : Prop := ∃ t, exec i s = .next t ∧ SameBytes s t ∧ t.cores = s.cores ∧
      t.sto.nonces = s.sto.nonces ++ [g.nonce] ∧ (ok → t.keySlot slot = new ∧ t.out.head? = some (.mgmt 0x3F [0])) ∧
      (¬ ok → t.sto.keys = s.sto.keys ∧ t.out = .mgmt 0x3F [1] :: s.out) ∧
      ∀ k, k ≠ slot.val → t.keySlot k = s.keySlot k
    (s.managed = false → exec (.provision slot key g) s = .next s ∧ exec (.revoke slot g) s = .next s) ∧
    (s.managed = true →
      ends (.provision slot key g) (s.signedOk true (mgmtBytes 0 slot key g.nonce) g = true ∧ s.keySlot slot = .empty)
        (.valid key) ∧
      ends (.revoke slot g) (s.signedOk false (mgmtBytes 1 slot 0 g.nonce) g = true ∧ s.keySlot slot ≠ .empty ∧
        ¬ ((s.keySlot slot).isValid = true ∧ s.validKeys = 1)) .revoked))
end

