-- ==== Sys2Proof/Laws/Map.lean ====
section
/-!
SUPPORT. The laws of sparse maps: a read after a write of the same key gives the value written, a write
leaves every other key alone, and every write keeps the canonical form.
-/

namespace Sys2Proof

variable {α : Type}

theorem SMap.get_erase_same (d : α) (m : SMap α) (k : Nat) : (m.erase k).get d k = d := by
  induction m with
  | nil => rfl
  | cons p t ih =>
    obtain ⟨k', v⟩ := p
    by_cases h : k' = k
    · simp [SMap.erase, h, ih]
    · simp [SMap.erase, SMap.get, h, ih]

theorem SMap.get_erase_other (d : α) (m : SMap α) {k j : Nat} (h : j ≠ k) :
    (m.erase k).get d j = m.get d j := by
  induction m with
  | nil => rfl
  | cons p t ih =>
    obtain ⟨k', v⟩ := p
    by_cases hk : k' = k
    · have : k' ≠ j := fun e => h (e.symm.trans hk)
      simp [SMap.erase, SMap.get, hk, ih]
      intro e; exact absurd (e.symm) h
    · simp [SMap.erase, SMap.get, hk, ih]

theorem SMap.get_insert_same (d : α) (m : SMap α) (k : Nat) (v : α) :
    (m.insert k v).get d k = v := by
  induction m with
  | nil => simp [SMap.insert, SMap.get]
  | cons p t ih =>
    obtain ⟨k', v'⟩ := p
    by_cases h1 : k < k'
    · simp [SMap.insert, SMap.get, h1]
    · by_cases h2 : k' = k
      · simp [SMap.insert, SMap.get, h2]
      · simp [SMap.insert, SMap.get, h1, h2, ih]

theorem SMap.get_insert_other (d : α) (m : SMap α) {k j : Nat} (v : α) (h : j ≠ k) :
    (m.insert k v).get d j = m.get d j := by
  have hk : k ≠ j := fun e => h e.symm
  induction m with
  | nil => simp [SMap.insert, SMap.get, hk]
  | cons p t ih =>
    obtain ⟨k', v'⟩ := p
    by_cases h1 : k < k'
    · simp [SMap.insert, SMap.get, h1, hk]
    · by_cases h2 : k' = k
      · subst h2; simp [SMap.insert, SMap.get, hk]
      · simp [SMap.insert, SMap.get, h1, h2, ih]

@[simp] theorem SMap.get_set_same [DecidableEq α] (d : α) (m : SMap α) (k : Nat) (v : α) :
    (SMap.set d m k v).get d k = v := by
  unfold SMap.set
  split
  · next h => rw [SMap.get_erase_same, h]
  · exact SMap.get_insert_same d m k v

theorem SMap.get_set_other [DecidableEq α] (d : α) (m : SMap α) {k j : Nat} (v : α) (h : j ≠ k) :
    (SMap.set d m k v).get d j = m.get d j := by
  unfold SMap.set
  split
  · exact SMap.get_erase_other d m h
  · exact SMap.get_insert_other d m v h

theorem SMap.wfFrom_mono [DecidableEq α] (d : α) {a b : Nat} (h : a ≤ b) (m : SMap α)
    (w : SMap.wfFrom d b m = true) : SMap.wfFrom d a m = true := by
  cases m with
  | nil => rfl
  | cons p t =>
    obtain ⟨k, v⟩ := p
    simp only [SMap.wfFrom, Bool.and_eq_true, decide_eq_true_eq] at w ⊢
    exact ⟨⟨Nat.le_trans h w.1.1, w.1.2⟩, w.2⟩

theorem SMap.wfFrom_erase [DecidableEq α] (d : α) (m : SMap α) (k : Nat) :
    ∀ lo, SMap.wfFrom d lo m = true → SMap.wfFrom d lo (m.erase k) = true := by
  induction m with
  | nil => intro lo h; exact h
  | cons p t ih =>
    obtain ⟨k', v⟩ := p
    intro lo w
    simp only [SMap.wfFrom, Bool.and_eq_true, decide_eq_true_eq] at w
    by_cases h : k' = k
    · simp only [SMap.erase, h, if_true]
      exact SMap.wfFrom_mono d (by omega) _ (ih _ w.2)
    · simp only [SMap.erase, h, if_false, SMap.wfFrom, Bool.and_eq_true, decide_eq_true_eq]
      exact ⟨w.1, ih _ w.2⟩

theorem SMap.wfFrom_insert [DecidableEq α] (d : α) (m : SMap α) (k : Nat) (v : α) (hv : v ≠ d) :
    ∀ lo, lo ≤ k → SMap.wfFrom d lo m = true → SMap.wfFrom d lo (m.insert k v) = true := by
  induction m with
  | nil => intro lo hl _; simp [SMap.insert, SMap.wfFrom, hl, hv]
  | cons p t ih =>
    obtain ⟨k', v'⟩ := p
    intro lo hl w
    simp only [SMap.wfFrom, Bool.and_eq_true, decide_eq_true_eq] at w
    by_cases h1 : k < k'
    · simp only [SMap.insert, h1, if_true, SMap.wfFrom, Bool.and_eq_true, decide_eq_true_eq]
      exact ⟨⟨hl, by simp [hv]⟩, ⟨by omega, w.1.2⟩, w.2⟩
    · by_cases h2 : k' = k
      · subst h2
        simp only [SMap.insert, Nat.lt_irrefl, if_false, if_true, SMap.wfFrom, Bool.and_eq_true,
          decide_eq_true_eq]
        exact ⟨⟨hl, by simp [hv]⟩, w.2⟩
      · simp only [SMap.insert, h1, h2, if_false, SMap.wfFrom, Bool.and_eq_true, decide_eq_true_eq]
        exact ⟨w.1, ih (k' + 1) (by omega) w.2⟩

/-- Every write keeps the canonical form. -/
theorem SMap.wf_set [DecidableEq α] (d : α) (m : SMap α) (k : Nat) (v : α)
    (h : SMap.wf d m = true) : SMap.wf d (SMap.set d m k v) = true := by
  unfold SMap.set SMap.wf at *
  split
  · exact SMap.wfFrom_erase d m k 0 h
  · next hv => exact SMap.wfFrom_insert d m k v hv 0 (Nat.zero_le _) h

end Sys2Proof
end

