-- ==== Sys2Proof/Laws/State.lean ====
section
/-!
SUPPORT. What each update of the state leaves alone, field by field, and the one update that each derived update is. Every
theorem here is true by unfolding; a later proof cites none of them by name, since `simp` rewrites with them.
-/

namespace Sys2Proof.Machine

open Sys2Proof

variable (s : State)

/-! ### Derived updates -/

@[simp] theorem State.modCore_eq (l : Nat) (f : Core → Core) : s.modCore l f = s.setCore l (f (s.core l)) := rfl
@[simp] theorem State.modCluster_eq (c : Nat) (f : Cluster → Cluster) : s.modCluster c f = s.setCluster c (f (s.cluster c)) := rfl
@[simp] theorem State.modRegion_eq (r : Nat) (f : Region → Region) : s.modRegion r f = s.setRegion r (f (s.region r)) := rfl
@[simp] theorem State.modStack_eq (k : Nat) (f : Stack → Stack) : s.modStack k f = s.setStack k (f (s.stack k)) := rfl
@[simp] theorem State.modPort_eq (p : Nat) (f : Port → Port) : s.modPort p f = s.setPort p (f (s.port p)) := rfl
@[simp] theorem State.modPart_eq (p : Nat) (f : Part → Part) : s.modPart p f = s.setPart p (f (s.part p)) := rfl
@[simp] theorem State.modCC_eq (l : Nat) (f : CC → CC) :
    s.modCC l f = s.setCore l { s.core l with cc := f (s.core l).cc } := rfl
@[simp] theorem State.modVE_eq (l : Nat) (f : VE → VE) :
    s.modVE l f = s.setCore l { s.core l with ve := f (s.core l).ve } := rfl
@[simp] theorem State.modMU_eq (l : Nat) (f : MU → MU) :
    s.modMU l f = s.setCore l { s.core l with mu := f (s.core l).mu } := rfl
@[simp] theorem State.modQueue_eq (l q : Nat) (f : Queue → Queue) :
    s.modQueue l q f = s.setCore l ((s.core l).setQueue q (f ((s.core l).queue q))) := rfl
@[simp] theorem State.modEntry_eq (l q acc : Nat) (f : QEntry → QEntry) :
    s.modEntry l q acc f = s.modQueue l q fun x => x.update acc f := rfl
@[simp] theorem State.setField_eq (n : RegName) (i j hi lo v : Nat) :
    s.setField n i j hi lo v = s.setReg n i j (putBits (s.reg n i j) hi lo v) := rfl

/-! ### Fields left alone -/

@[simp] theorem State.fields_setCore (l : Nat) (c : Core) :
    (s.setCore l c).pending = s.pending ∧ (s.setCore l c).freeCtr = s.freeCtr ∧ (s.setCore l c).out = s.out ∧
    (s.setCore l c).regs = s.regs ∧ (s.setCore l c).effLo = s.effLo ∧ (s.setCore l c).shadows = s.shadows ∧
    (s.setCore l c).counts = s.counts ∧ (s.setCore l c).mem = s.mem ∧ (s.setCore l c).lost = s.lost ∧
    (s.setCore l c).hearth = s.hearth ∧ (s.setCore l c).presence = s.presence ∧ (s.setCore l c).inFlight = s.inFlight ∧
    (s.setCore l c).clusters = s.clusters ∧ (s.setCore l c).regions = s.regions ∧ (s.setCore l c).stks = s.stks ∧
    (s.setCore l c).ports = s.ports ∧ (s.setCore l c).parts = s.parts ∧ (s.setCore l c).counters = s.counters ∧
    (s.setCore l c).streams = s.streams ∧ (s.setCore l c).deliveries = s.deliveries ∧ (s.setCore l c).retries = s.retries ∧
    (s.setCore l c).barriers = s.barriers ∧ (s.setCore l c).opRecords = s.opRecords ∧ (s.setCore l c).modes = s.modes ∧
    (s.setCore l c).pwrHeld = s.pwrHeld ∧ (s.setCore l c).pwrDeadline = s.pwrDeadline ∧
    (s.setCore l c).pwrBusy = s.pwrBusy ∧ (s.setCore l c).arbs = s.arbs ∧ (s.setCore l c).remotes = s.remotes ∧
    (s.setCore l c).nextTag = s.nextTag ∧ (s.setCore l c).msixTable = s.msixTable ∧ (s.setCore l c).msixPend = s.msixPend ∧
    (s.setCore l c).hostLink = s.hostLink ∧ (s.setCore l c).corrected = s.corrected ∧ (s.setCore l c).erred = s.erred ∧
    (s.setCore l c).spared = s.spared ∧ (s.setCore l c).lasers = s.lasers ∧ (s.setCore l c).bridgeLanes = s.bridgeLanes ∧
    (s.setCore l c).cfg = s.cfg ∧ (s.setCore l c).time = s.time ∧ (s.setCore l c).sto = s.sto ∧
    (s.setCore l c).damper = s.damper ∧ (s.setCore l c).dm = s.dm ∧ (s.setCore l c).obsBudget = s.obsBudget ∧
    (s.setCore l c).obsWaiting = s.obsWaiting ∧ (s.setCore l c).obsExports = s.obsExports :=
  by and_intros <;> rfl

@[simp] theorem State.fields_setCluster (c : Nat) (x : Cluster) :
    (s.setCluster c x).pending = s.pending ∧ (s.setCluster c x).freeCtr = s.freeCtr ∧ (s.setCluster c x).out = s.out ∧
    (s.setCluster c x).regs = s.regs ∧ (s.setCluster c x).effLo = s.effLo ∧ (s.setCluster c x).shadows = s.shadows ∧
    (s.setCluster c x).counts = s.counts ∧ (s.setCluster c x).mem = s.mem ∧ (s.setCluster c x).lost = s.lost ∧
    (s.setCluster c x).hearth = s.hearth ∧ (s.setCluster c x).presence = s.presence ∧
    (s.setCluster c x).inFlight = s.inFlight ∧ (s.setCluster c x).cores = s.cores ∧ (s.setCluster c x).regions = s.regions ∧
    (s.setCluster c x).stks = s.stks ∧ (s.setCluster c x).ports = s.ports ∧ (s.setCluster c x).parts = s.parts ∧
    (s.setCluster c x).counters = s.counters ∧ (s.setCluster c x).streams = s.streams ∧
    (s.setCluster c x).deliveries = s.deliveries ∧ (s.setCluster c x).retries = s.retries ∧
    (s.setCluster c x).barriers = s.barriers ∧ (s.setCluster c x).opRecords = s.opRecords ∧
    (s.setCluster c x).modes = s.modes ∧ (s.setCluster c x).pwrHeld = s.pwrHeld ∧
    (s.setCluster c x).pwrDeadline = s.pwrDeadline ∧ (s.setCluster c x).pwrBusy = s.pwrBusy ∧
    (s.setCluster c x).arbs = s.arbs ∧ (s.setCluster c x).remotes = s.remotes ∧ (s.setCluster c x).nextTag = s.nextTag ∧
    (s.setCluster c x).msixTable = s.msixTable ∧ (s.setCluster c x).msixPend = s.msixPend ∧
    (s.setCluster c x).hostLink = s.hostLink ∧ (s.setCluster c x).corrected = s.corrected ∧
    (s.setCluster c x).erred = s.erred ∧ (s.setCluster c x).spared = s.spared ∧ (s.setCluster c x).lasers = s.lasers ∧
    (s.setCluster c x).bridgeLanes = s.bridgeLanes ∧ (s.setCluster c x).cfg = s.cfg ∧ (s.setCluster c x).time = s.time ∧
    (s.setCluster c x).sto = s.sto ∧ (s.setCluster c x).damper = s.damper ∧ (s.setCluster c x).dm = s.dm ∧
    (s.setCluster c x).obsBudget = s.obsBudget ∧ (s.setCluster c x).obsWaiting = s.obsWaiting ∧
    (s.setCluster c x).obsExports = s.obsExports :=
  by and_intros <;> rfl

@[simp] theorem State.fields_setRegion (r : Nat) (x : Region) :
    (s.setRegion r x).pending = s.pending ∧ (s.setRegion r x).freeCtr = s.freeCtr ∧ (s.setRegion r x).out = s.out ∧
    (s.setRegion r x).regs = s.regs ∧ (s.setRegion r x).effLo = s.effLo ∧ (s.setRegion r x).shadows = s.shadows ∧
    (s.setRegion r x).counts = s.counts ∧ (s.setRegion r x).mem = s.mem ∧ (s.setRegion r x).lost = s.lost ∧
    (s.setRegion r x).hearth = s.hearth ∧ (s.setRegion r x).presence = s.presence ∧
    (s.setRegion r x).inFlight = s.inFlight ∧ (s.setRegion r x).cores = s.cores ∧ (s.setRegion r x).clusters = s.clusters ∧
    (s.setRegion r x).stks = s.stks ∧ (s.setRegion r x).ports = s.ports ∧ (s.setRegion r x).parts = s.parts ∧
    (s.setRegion r x).counters = s.counters ∧ (s.setRegion r x).streams = s.streams ∧
    (s.setRegion r x).deliveries = s.deliveries ∧ (s.setRegion r x).retries = s.retries ∧
    (s.setRegion r x).barriers = s.barriers ∧ (s.setRegion r x).opRecords = s.opRecords ∧
    (s.setRegion r x).modes = s.modes ∧ (s.setRegion r x).pwrHeld = s.pwrHeld ∧
    (s.setRegion r x).pwrDeadline = s.pwrDeadline ∧ (s.setRegion r x).pwrBusy = s.pwrBusy ∧
    (s.setRegion r x).arbs = s.arbs ∧ (s.setRegion r x).remotes = s.remotes ∧ (s.setRegion r x).nextTag = s.nextTag ∧
    (s.setRegion r x).msixTable = s.msixTable ∧ (s.setRegion r x).msixPend = s.msixPend ∧
    (s.setRegion r x).hostLink = s.hostLink ∧ (s.setRegion r x).corrected = s.corrected ∧
    (s.setRegion r x).erred = s.erred ∧ (s.setRegion r x).spared = s.spared ∧ (s.setRegion r x).lasers = s.lasers ∧
    (s.setRegion r x).bridgeLanes = s.bridgeLanes ∧ (s.setRegion r x).cfg = s.cfg ∧ (s.setRegion r x).time = s.time ∧
    (s.setRegion r x).sto = s.sto ∧ (s.setRegion r x).damper = s.damper ∧ (s.setRegion r x).dm = s.dm ∧
    (s.setRegion r x).obsBudget = s.obsBudget ∧ (s.setRegion r x).obsWaiting = s.obsWaiting ∧
    (s.setRegion r x).obsExports = s.obsExports :=
  by and_intros <;> rfl

@[simp] theorem State.fields_setStack (k : Nat) (x : Stack) :
    (s.setStack k x).pending = s.pending ∧ (s.setStack k x).freeCtr = s.freeCtr ∧ (s.setStack k x).out = s.out ∧
    (s.setStack k x).regs = s.regs ∧ (s.setStack k x).effLo = s.effLo ∧ (s.setStack k x).shadows = s.shadows ∧
    (s.setStack k x).counts = s.counts ∧ (s.setStack k x).mem = s.mem ∧ (s.setStack k x).lost = s.lost ∧
    (s.setStack k x).hearth = s.hearth ∧ (s.setStack k x).presence = s.presence ∧ (s.setStack k x).inFlight = s.inFlight ∧
    (s.setStack k x).cores = s.cores ∧ (s.setStack k x).clusters = s.clusters ∧ (s.setStack k x).regions = s.regions ∧
    (s.setStack k x).ports = s.ports ∧ (s.setStack k x).parts = s.parts ∧ (s.setStack k x).counters = s.counters ∧
    (s.setStack k x).streams = s.streams ∧ (s.setStack k x).deliveries = s.deliveries ∧
    (s.setStack k x).retries = s.retries ∧ (s.setStack k x).barriers = s.barriers ∧
    (s.setStack k x).opRecords = s.opRecords ∧ (s.setStack k x).modes = s.modes ∧ (s.setStack k x).pwrHeld = s.pwrHeld ∧
    (s.setStack k x).pwrDeadline = s.pwrDeadline ∧ (s.setStack k x).pwrBusy = s.pwrBusy ∧ (s.setStack k x).arbs = s.arbs ∧
    (s.setStack k x).remotes = s.remotes ∧ (s.setStack k x).nextTag = s.nextTag ∧ (s.setStack k x).msixTable = s.msixTable ∧
    (s.setStack k x).msixPend = s.msixPend ∧ (s.setStack k x).hostLink = s.hostLink ∧
    (s.setStack k x).corrected = s.corrected ∧ (s.setStack k x).erred = s.erred ∧ (s.setStack k x).spared = s.spared ∧
    (s.setStack k x).lasers = s.lasers ∧ (s.setStack k x).bridgeLanes = s.bridgeLanes ∧ (s.setStack k x).cfg = s.cfg ∧
    (s.setStack k x).time = s.time ∧ (s.setStack k x).sto = s.sto ∧ (s.setStack k x).damper = s.damper ∧
    (s.setStack k x).dm = s.dm ∧ (s.setStack k x).obsBudget = s.obsBudget ∧ (s.setStack k x).obsWaiting = s.obsWaiting ∧
    (s.setStack k x).obsExports = s.obsExports :=
  by and_intros <;> rfl

@[simp] theorem State.fields_setPort (p : Nat) (x : Port) :
    (s.setPort p x).pending = s.pending ∧ (s.setPort p x).freeCtr = s.freeCtr ∧ (s.setPort p x).out = s.out ∧
    (s.setPort p x).regs = s.regs ∧ (s.setPort p x).effLo = s.effLo ∧ (s.setPort p x).shadows = s.shadows ∧
    (s.setPort p x).counts = s.counts ∧ (s.setPort p x).mem = s.mem ∧ (s.setPort p x).lost = s.lost ∧
    (s.setPort p x).hearth = s.hearth ∧ (s.setPort p x).presence = s.presence ∧ (s.setPort p x).inFlight = s.inFlight ∧
    (s.setPort p x).cores = s.cores ∧ (s.setPort p x).clusters = s.clusters ∧ (s.setPort p x).regions = s.regions ∧
    (s.setPort p x).stks = s.stks ∧ (s.setPort p x).parts = s.parts ∧ (s.setPort p x).counters = s.counters ∧
    (s.setPort p x).streams = s.streams ∧ (s.setPort p x).deliveries = s.deliveries ∧ (s.setPort p x).retries = s.retries ∧
    (s.setPort p x).barriers = s.barriers ∧ (s.setPort p x).opRecords = s.opRecords ∧ (s.setPort p x).modes = s.modes ∧
    (s.setPort p x).pwrHeld = s.pwrHeld ∧ (s.setPort p x).pwrDeadline = s.pwrDeadline ∧
    (s.setPort p x).pwrBusy = s.pwrBusy ∧ (s.setPort p x).arbs = s.arbs ∧ (s.setPort p x).remotes = s.remotes ∧
    (s.setPort p x).nextTag = s.nextTag ∧ (s.setPort p x).msixTable = s.msixTable ∧ (s.setPort p x).msixPend = s.msixPend ∧
    (s.setPort p x).hostLink = s.hostLink ∧ (s.setPort p x).corrected = s.corrected ∧ (s.setPort p x).erred = s.erred ∧
    (s.setPort p x).spared = s.spared ∧ (s.setPort p x).lasers = s.lasers ∧ (s.setPort p x).bridgeLanes = s.bridgeLanes ∧
    (s.setPort p x).cfg = s.cfg ∧ (s.setPort p x).time = s.time ∧ (s.setPort p x).sto = s.sto ∧
    (s.setPort p x).damper = s.damper ∧ (s.setPort p x).dm = s.dm ∧ (s.setPort p x).obsBudget = s.obsBudget ∧
    (s.setPort p x).obsWaiting = s.obsWaiting ∧ (s.setPort p x).obsExports = s.obsExports :=
  by and_intros <;> rfl

@[simp] theorem State.fields_setPart (p : Nat) (x : Part) :
    (s.setPart p x).pending = s.pending ∧ (s.setPart p x).freeCtr = s.freeCtr ∧ (s.setPart p x).out = s.out ∧
    (s.setPart p x).regs = s.regs ∧ (s.setPart p x).effLo = s.effLo ∧ (s.setPart p x).shadows = s.shadows ∧
    (s.setPart p x).counts = s.counts ∧ (s.setPart p x).mem = s.mem ∧ (s.setPart p x).lost = s.lost ∧
    (s.setPart p x).hearth = s.hearth ∧ (s.setPart p x).presence = s.presence ∧ (s.setPart p x).inFlight = s.inFlight ∧
    (s.setPart p x).cores = s.cores ∧ (s.setPart p x).clusters = s.clusters ∧ (s.setPart p x).regions = s.regions ∧
    (s.setPart p x).stks = s.stks ∧ (s.setPart p x).ports = s.ports ∧ (s.setPart p x).counters = s.counters ∧
    (s.setPart p x).streams = s.streams ∧ (s.setPart p x).deliveries = s.deliveries ∧ (s.setPart p x).retries = s.retries ∧
    (s.setPart p x).barriers = s.barriers ∧ (s.setPart p x).opRecords = s.opRecords ∧ (s.setPart p x).modes = s.modes ∧
    (s.setPart p x).pwrHeld = s.pwrHeld ∧ (s.setPart p x).pwrDeadline = s.pwrDeadline ∧
    (s.setPart p x).pwrBusy = s.pwrBusy ∧ (s.setPart p x).arbs = s.arbs ∧ (s.setPart p x).remotes = s.remotes ∧
    (s.setPart p x).nextTag = s.nextTag ∧ (s.setPart p x).msixTable = s.msixTable ∧ (s.setPart p x).msixPend = s.msixPend ∧
    (s.setPart p x).hostLink = s.hostLink ∧ (s.setPart p x).corrected = s.corrected ∧ (s.setPart p x).erred = s.erred ∧
    (s.setPart p x).spared = s.spared ∧ (s.setPart p x).lasers = s.lasers ∧ (s.setPart p x).bridgeLanes = s.bridgeLanes ∧
    (s.setPart p x).cfg = s.cfg ∧ (s.setPart p x).time = s.time ∧ (s.setPart p x).sto = s.sto ∧
    (s.setPart p x).damper = s.damper ∧ (s.setPart p x).dm = s.dm ∧ (s.setPart p x).obsBudget = s.obsBudget ∧
    (s.setPart p x).obsWaiting = s.obsWaiting ∧ (s.setPart p x).obsExports = s.obsExports :=
  by and_intros <;> rfl

@[simp] theorem State.fields_setCounter (k : Nat) (x : Counter) :
    (s.setCounter k x).pending = s.pending ∧ (s.setCounter k x).freeCtr = s.freeCtr ∧ (s.setCounter k x).out = s.out ∧
    (s.setCounter k x).regs = s.regs ∧ (s.setCounter k x).effLo = s.effLo ∧ (s.setCounter k x).shadows = s.shadows ∧
    (s.setCounter k x).counts = s.counts ∧ (s.setCounter k x).mem = s.mem ∧ (s.setCounter k x).lost = s.lost ∧
    (s.setCounter k x).hearth = s.hearth ∧ (s.setCounter k x).presence = s.presence ∧
    (s.setCounter k x).inFlight = s.inFlight ∧ (s.setCounter k x).cores = s.cores ∧
    (s.setCounter k x).clusters = s.clusters ∧ (s.setCounter k x).regions = s.regions ∧ (s.setCounter k x).stks = s.stks ∧
    (s.setCounter k x).ports = s.ports ∧ (s.setCounter k x).parts = s.parts ∧ (s.setCounter k x).streams = s.streams ∧
    (s.setCounter k x).deliveries = s.deliveries ∧ (s.setCounter k x).retries = s.retries ∧
    (s.setCounter k x).barriers = s.barriers ∧ (s.setCounter k x).opRecords = s.opRecords ∧
    (s.setCounter k x).modes = s.modes ∧ (s.setCounter k x).pwrHeld = s.pwrHeld ∧
    (s.setCounter k x).pwrDeadline = s.pwrDeadline ∧ (s.setCounter k x).pwrBusy = s.pwrBusy ∧
    (s.setCounter k x).arbs = s.arbs ∧ (s.setCounter k x).remotes = s.remotes ∧ (s.setCounter k x).nextTag = s.nextTag ∧
    (s.setCounter k x).msixTable = s.msixTable ∧ (s.setCounter k x).msixPend = s.msixPend ∧
    (s.setCounter k x).hostLink = s.hostLink ∧ (s.setCounter k x).corrected = s.corrected ∧
    (s.setCounter k x).erred = s.erred ∧ (s.setCounter k x).spared = s.spared ∧ (s.setCounter k x).lasers = s.lasers ∧
    (s.setCounter k x).bridgeLanes = s.bridgeLanes ∧ (s.setCounter k x).cfg = s.cfg ∧ (s.setCounter k x).time = s.time ∧
    (s.setCounter k x).sto = s.sto ∧ (s.setCounter k x).damper = s.damper ∧ (s.setCounter k x).dm = s.dm ∧
    (s.setCounter k x).obsBudget = s.obsBudget ∧ (s.setCounter k x).obsWaiting = s.obsWaiting ∧
    (s.setCounter k x).obsExports = s.obsExports :=
  by and_intros <;> rfl

@[simp] theorem State.fields_setStream (k : Nat) (x : SStream) :
    (s.setStream k x).pending = s.pending ∧ (s.setStream k x).freeCtr = s.freeCtr ∧ (s.setStream k x).out = s.out ∧
    (s.setStream k x).regs = s.regs ∧ (s.setStream k x).effLo = s.effLo ∧ (s.setStream k x).shadows = s.shadows ∧
    (s.setStream k x).counts = s.counts ∧ (s.setStream k x).mem = s.mem ∧ (s.setStream k x).lost = s.lost ∧
    (s.setStream k x).hearth = s.hearth ∧ (s.setStream k x).presence = s.presence ∧
    (s.setStream k x).inFlight = s.inFlight ∧ (s.setStream k x).cores = s.cores ∧ (s.setStream k x).clusters = s.clusters ∧
    (s.setStream k x).regions = s.regions ∧ (s.setStream k x).stks = s.stks ∧ (s.setStream k x).ports = s.ports ∧
    (s.setStream k x).parts = s.parts ∧ (s.setStream k x).counters = s.counters ∧
    (s.setStream k x).deliveries = s.deliveries ∧ (s.setStream k x).retries = s.retries ∧
    (s.setStream k x).barriers = s.barriers ∧ (s.setStream k x).opRecords = s.opRecords ∧
    (s.setStream k x).modes = s.modes ∧ (s.setStream k x).pwrHeld = s.pwrHeld ∧
    (s.setStream k x).pwrDeadline = s.pwrDeadline ∧ (s.setStream k x).pwrBusy = s.pwrBusy ∧
    (s.setStream k x).arbs = s.arbs ∧ (s.setStream k x).remotes = s.remotes ∧ (s.setStream k x).nextTag = s.nextTag ∧
    (s.setStream k x).msixTable = s.msixTable ∧ (s.setStream k x).msixPend = s.msixPend ∧
    (s.setStream k x).hostLink = s.hostLink ∧ (s.setStream k x).corrected = s.corrected ∧
    (s.setStream k x).erred = s.erred ∧ (s.setStream k x).spared = s.spared ∧ (s.setStream k x).lasers = s.lasers ∧
    (s.setStream k x).bridgeLanes = s.bridgeLanes ∧ (s.setStream k x).cfg = s.cfg ∧ (s.setStream k x).time = s.time ∧
    (s.setStream k x).sto = s.sto ∧ (s.setStream k x).damper = s.damper ∧ (s.setStream k x).dm = s.dm ∧
    (s.setStream k x).obsBudget = s.obsBudget ∧ (s.setStream k x).obsWaiting = s.obsWaiting ∧
    (s.setStream k x).obsExports = s.obsExports :=
  by and_intros <;> rfl

@[simp] theorem State.fields_setBarrier (k : Nat) (x : Barrier) :
    (s.setBarrier k x).pending = s.pending ∧ (s.setBarrier k x).freeCtr = s.freeCtr ∧ (s.setBarrier k x).out = s.out ∧
    (s.setBarrier k x).regs = s.regs ∧ (s.setBarrier k x).effLo = s.effLo ∧ (s.setBarrier k x).shadows = s.shadows ∧
    (s.setBarrier k x).counts = s.counts ∧ (s.setBarrier k x).mem = s.mem ∧ (s.setBarrier k x).lost = s.lost ∧
    (s.setBarrier k x).hearth = s.hearth ∧ (s.setBarrier k x).presence = s.presence ∧
    (s.setBarrier k x).inFlight = s.inFlight ∧ (s.setBarrier k x).cores = s.cores ∧
    (s.setBarrier k x).clusters = s.clusters ∧ (s.setBarrier k x).regions = s.regions ∧ (s.setBarrier k x).stks = s.stks ∧
    (s.setBarrier k x).ports = s.ports ∧ (s.setBarrier k x).parts = s.parts ∧ (s.setBarrier k x).counters = s.counters ∧
    (s.setBarrier k x).streams = s.streams ∧ (s.setBarrier k x).deliveries = s.deliveries ∧
    (s.setBarrier k x).retries = s.retries ∧ (s.setBarrier k x).opRecords = s.opRecords ∧
    (s.setBarrier k x).modes = s.modes ∧ (s.setBarrier k x).pwrHeld = s.pwrHeld ∧
    (s.setBarrier k x).pwrDeadline = s.pwrDeadline ∧ (s.setBarrier k x).pwrBusy = s.pwrBusy ∧
    (s.setBarrier k x).arbs = s.arbs ∧ (s.setBarrier k x).remotes = s.remotes ∧ (s.setBarrier k x).nextTag = s.nextTag ∧
    (s.setBarrier k x).msixTable = s.msixTable ∧ (s.setBarrier k x).msixPend = s.msixPend ∧
    (s.setBarrier k x).hostLink = s.hostLink ∧ (s.setBarrier k x).corrected = s.corrected ∧
    (s.setBarrier k x).erred = s.erred ∧ (s.setBarrier k x).spared = s.spared ∧ (s.setBarrier k x).lasers = s.lasers ∧
    (s.setBarrier k x).bridgeLanes = s.bridgeLanes ∧ (s.setBarrier k x).cfg = s.cfg ∧ (s.setBarrier k x).time = s.time ∧
    (s.setBarrier k x).sto = s.sto ∧ (s.setBarrier k x).damper = s.damper ∧ (s.setBarrier k x).dm = s.dm ∧
    (s.setBarrier k x).obsBudget = s.obsBudget ∧ (s.setBarrier k x).obsWaiting = s.obsWaiting ∧
    (s.setBarrier k x).obsExports = s.obsExports :=
  by and_intros <;> rfl

@[simp] theorem State.fields_setReg (n : RegName) (i j : Nat) (w : W32) :
    (s.setReg n i j w).pending = s.pending ∧ (s.setReg n i j w).freeCtr = s.freeCtr ∧ (s.setReg n i j w).out = s.out ∧
    (s.setReg n i j w).effLo = s.effLo ∧ (s.setReg n i j w).shadows = s.shadows ∧ (s.setReg n i j w).counts = s.counts ∧
    (s.setReg n i j w).mem = s.mem ∧ (s.setReg n i j w).lost = s.lost ∧ (s.setReg n i j w).hearth = s.hearth ∧
    (s.setReg n i j w).presence = s.presence ∧ (s.setReg n i j w).inFlight = s.inFlight ∧
    (s.setReg n i j w).cores = s.cores ∧ (s.setReg n i j w).clusters = s.clusters ∧ (s.setReg n i j w).regions = s.regions ∧
    (s.setReg n i j w).stks = s.stks ∧ (s.setReg n i j w).ports = s.ports ∧ (s.setReg n i j w).parts = s.parts ∧
    (s.setReg n i j w).counters = s.counters ∧ (s.setReg n i j w).streams = s.streams ∧
    (s.setReg n i j w).deliveries = s.deliveries ∧ (s.setReg n i j w).retries = s.retries ∧
    (s.setReg n i j w).barriers = s.barriers ∧ (s.setReg n i j w).opRecords = s.opRecords ∧
    (s.setReg n i j w).modes = s.modes ∧ (s.setReg n i j w).pwrHeld = s.pwrHeld ∧
    (s.setReg n i j w).pwrDeadline = s.pwrDeadline ∧ (s.setReg n i j w).pwrBusy = s.pwrBusy ∧
    (s.setReg n i j w).arbs = s.arbs ∧ (s.setReg n i j w).remotes = s.remotes ∧ (s.setReg n i j w).nextTag = s.nextTag ∧
    (s.setReg n i j w).msixTable = s.msixTable ∧ (s.setReg n i j w).msixPend = s.msixPend ∧
    (s.setReg n i j w).hostLink = s.hostLink ∧ (s.setReg n i j w).corrected = s.corrected ∧
    (s.setReg n i j w).erred = s.erred ∧ (s.setReg n i j w).spared = s.spared ∧ (s.setReg n i j w).lasers = s.lasers ∧
    (s.setReg n i j w).bridgeLanes = s.bridgeLanes ∧ (s.setReg n i j w).cfg = s.cfg ∧ (s.setReg n i j w).time = s.time ∧
    (s.setReg n i j w).sto = s.sto ∧ (s.setReg n i j w).damper = s.damper ∧ (s.setReg n i j w).dm = s.dm ∧
    (s.setReg n i j w).obsBudget = s.obsBudget ∧ (s.setReg n i j w).obsWaiting = s.obsWaiting ∧
    (s.setReg n i j w).obsExports = s.obsExports :=
  by and_intros <;> rfl

@[simp] theorem State.fields_setPair (lo hi : RegName) (i j v : Nat) :
    (s.setPair lo hi i j v).pending = s.pending ∧ (s.setPair lo hi i j v).freeCtr = s.freeCtr ∧
    (s.setPair lo hi i j v).out = s.out ∧ (s.setPair lo hi i j v).shadows = s.shadows ∧
    (s.setPair lo hi i j v).counts = s.counts ∧ (s.setPair lo hi i j v).mem = s.mem ∧
    (s.setPair lo hi i j v).lost = s.lost ∧ (s.setPair lo hi i j v).hearth = s.hearth ∧
    (s.setPair lo hi i j v).presence = s.presence ∧ (s.setPair lo hi i j v).inFlight = s.inFlight ∧
    (s.setPair lo hi i j v).cores = s.cores ∧ (s.setPair lo hi i j v).clusters = s.clusters ∧
    (s.setPair lo hi i j v).regions = s.regions ∧ (s.setPair lo hi i j v).stks = s.stks ∧
    (s.setPair lo hi i j v).ports = s.ports ∧ (s.setPair lo hi i j v).parts = s.parts ∧
    (s.setPair lo hi i j v).counters = s.counters ∧ (s.setPair lo hi i j v).streams = s.streams ∧
    (s.setPair lo hi i j v).deliveries = s.deliveries ∧ (s.setPair lo hi i j v).retries = s.retries ∧
    (s.setPair lo hi i j v).barriers = s.barriers ∧ (s.setPair lo hi i j v).opRecords = s.opRecords ∧
    (s.setPair lo hi i j v).modes = s.modes ∧ (s.setPair lo hi i j v).pwrHeld = s.pwrHeld ∧
    (s.setPair lo hi i j v).pwrDeadline = s.pwrDeadline ∧ (s.setPair lo hi i j v).pwrBusy = s.pwrBusy ∧
    (s.setPair lo hi i j v).arbs = s.arbs ∧ (s.setPair lo hi i j v).remotes = s.remotes ∧
    (s.setPair lo hi i j v).nextTag = s.nextTag ∧ (s.setPair lo hi i j v).msixTable = s.msixTable ∧
    (s.setPair lo hi i j v).msixPend = s.msixPend ∧ (s.setPair lo hi i j v).hostLink = s.hostLink ∧
    (s.setPair lo hi i j v).corrected = s.corrected ∧ (s.setPair lo hi i j v).erred = s.erred ∧
    (s.setPair lo hi i j v).spared = s.spared ∧ (s.setPair lo hi i j v).lasers = s.lasers ∧
    (s.setPair lo hi i j v).bridgeLanes = s.bridgeLanes ∧ (s.setPair lo hi i j v).cfg = s.cfg ∧
    (s.setPair lo hi i j v).time = s.time ∧ (s.setPair lo hi i j v).sto = s.sto ∧
    (s.setPair lo hi i j v).damper = s.damper ∧ (s.setPair lo hi i j v).dm = s.dm ∧
    (s.setPair lo hi i j v).obsBudget = s.obsBudget ∧ (s.setPair lo hi i j v).obsWaiting = s.obsWaiting ∧
    (s.setPair lo hi i j v).obsExports = s.obsExports :=
  by and_intros <;> rfl

@[simp] theorem State.fields_addCount (lo : RegName) (i j n : Nat) :
    (s.addCount lo i j n).pending = s.pending ∧ (s.addCount lo i j n).freeCtr = s.freeCtr ∧
    (s.addCount lo i j n).out = s.out ∧ (s.addCount lo i j n).regs = s.regs ∧ (s.addCount lo i j n).effLo = s.effLo ∧
    (s.addCount lo i j n).shadows = s.shadows ∧ (s.addCount lo i j n).mem = s.mem ∧ (s.addCount lo i j n).lost = s.lost ∧
    (s.addCount lo i j n).hearth = s.hearth ∧ (s.addCount lo i j n).presence = s.presence ∧
    (s.addCount lo i j n).inFlight = s.inFlight ∧ (s.addCount lo i j n).cores = s.cores ∧
    (s.addCount lo i j n).clusters = s.clusters ∧ (s.addCount lo i j n).regions = s.regions ∧
    (s.addCount lo i j n).stks = s.stks ∧ (s.addCount lo i j n).ports = s.ports ∧ (s.addCount lo i j n).parts = s.parts ∧
    (s.addCount lo i j n).counters = s.counters ∧ (s.addCount lo i j n).streams = s.streams ∧
    (s.addCount lo i j n).deliveries = s.deliveries ∧ (s.addCount lo i j n).retries = s.retries ∧
    (s.addCount lo i j n).barriers = s.barriers ∧ (s.addCount lo i j n).opRecords = s.opRecords ∧
    (s.addCount lo i j n).modes = s.modes ∧ (s.addCount lo i j n).pwrHeld = s.pwrHeld ∧
    (s.addCount lo i j n).pwrDeadline = s.pwrDeadline ∧ (s.addCount lo i j n).pwrBusy = s.pwrBusy ∧
    (s.addCount lo i j n).arbs = s.arbs ∧ (s.addCount lo i j n).remotes = s.remotes ∧
    (s.addCount lo i j n).nextTag = s.nextTag ∧ (s.addCount lo i j n).msixTable = s.msixTable ∧
    (s.addCount lo i j n).msixPend = s.msixPend ∧ (s.addCount lo i j n).hostLink = s.hostLink ∧
    (s.addCount lo i j n).corrected = s.corrected ∧ (s.addCount lo i j n).erred = s.erred ∧
    (s.addCount lo i j n).spared = s.spared ∧ (s.addCount lo i j n).lasers = s.lasers ∧
    (s.addCount lo i j n).bridgeLanes = s.bridgeLanes ∧ (s.addCount lo i j n).cfg = s.cfg ∧
    (s.addCount lo i j n).time = s.time ∧ (s.addCount lo i j n).sto = s.sto ∧ (s.addCount lo i j n).damper = s.damper ∧
    (s.addCount lo i j n).dm = s.dm ∧ (s.addCount lo i j n).obsBudget = s.obsBudget ∧
    (s.addCount lo i j n).obsWaiting = s.obsWaiting ∧ (s.addCount lo i j n).obsExports = s.obsExports :=
  by and_intros <;> rfl

@[simp] theorem State.fields_poke (a : Nat) (b : Byte) :
    (s.poke a b).pending = s.pending ∧ (s.poke a b).freeCtr = s.freeCtr ∧ (s.poke a b).out = s.out ∧
    (s.poke a b).regs = s.regs ∧ (s.poke a b).effLo = s.effLo ∧ (s.poke a b).shadows = s.shadows ∧
    (s.poke a b).counts = s.counts ∧ (s.poke a b).lost = s.lost ∧ (s.poke a b).hearth = s.hearth ∧
    (s.poke a b).presence = s.presence ∧ (s.poke a b).inFlight = s.inFlight ∧ (s.poke a b).cores = s.cores ∧
    (s.poke a b).clusters = s.clusters ∧ (s.poke a b).regions = s.regions ∧ (s.poke a b).stks = s.stks ∧
    (s.poke a b).ports = s.ports ∧ (s.poke a b).parts = s.parts ∧ (s.poke a b).counters = s.counters ∧
    (s.poke a b).streams = s.streams ∧ (s.poke a b).deliveries = s.deliveries ∧ (s.poke a b).retries = s.retries ∧
    (s.poke a b).barriers = s.barriers ∧ (s.poke a b).opRecords = s.opRecords ∧ (s.poke a b).modes = s.modes ∧
    (s.poke a b).pwrHeld = s.pwrHeld ∧ (s.poke a b).pwrDeadline = s.pwrDeadline ∧ (s.poke a b).pwrBusy = s.pwrBusy ∧
    (s.poke a b).arbs = s.arbs ∧ (s.poke a b).remotes = s.remotes ∧ (s.poke a b).nextTag = s.nextTag ∧
    (s.poke a b).msixTable = s.msixTable ∧ (s.poke a b).msixPend = s.msixPend ∧ (s.poke a b).hostLink = s.hostLink ∧
    (s.poke a b).corrected = s.corrected ∧ (s.poke a b).erred = s.erred ∧ (s.poke a b).spared = s.spared ∧
    (s.poke a b).lasers = s.lasers ∧ (s.poke a b).bridgeLanes = s.bridgeLanes ∧ (s.poke a b).cfg = s.cfg ∧
    (s.poke a b).time = s.time ∧ (s.poke a b).sto = s.sto ∧ (s.poke a b).damper = s.damper ∧ (s.poke a b).dm = s.dm ∧
    (s.poke a b).obsBudget = s.obsBudget ∧ (s.poke a b).obsWaiting = s.obsWaiting ∧
    (s.poke a b).obsExports = s.obsExports :=
  by and_intros <;> rfl

@[simp] theorem State.fields_emit (o : Out) :
    (s.emit o).pending = s.pending ∧ (s.emit o).freeCtr = s.freeCtr ∧ (s.emit o).regs = s.regs ∧
    (s.emit o).effLo = s.effLo ∧ (s.emit o).shadows = s.shadows ∧ (s.emit o).counts = s.counts ∧ (s.emit o).mem = s.mem ∧
    (s.emit o).lost = s.lost ∧ (s.emit o).hearth = s.hearth ∧ (s.emit o).presence = s.presence ∧
    (s.emit o).inFlight = s.inFlight ∧ (s.emit o).cores = s.cores ∧ (s.emit o).clusters = s.clusters ∧
    (s.emit o).regions = s.regions ∧ (s.emit o).stks = s.stks ∧ (s.emit o).ports = s.ports ∧ (s.emit o).parts = s.parts ∧
    (s.emit o).counters = s.counters ∧ (s.emit o).streams = s.streams ∧ (s.emit o).deliveries = s.deliveries ∧
    (s.emit o).retries = s.retries ∧ (s.emit o).barriers = s.barriers ∧ (s.emit o).opRecords = s.opRecords ∧
    (s.emit o).modes = s.modes ∧ (s.emit o).pwrHeld = s.pwrHeld ∧ (s.emit o).pwrDeadline = s.pwrDeadline ∧
    (s.emit o).pwrBusy = s.pwrBusy ∧ (s.emit o).arbs = s.arbs ∧ (s.emit o).remotes = s.remotes ∧
    (s.emit o).nextTag = s.nextTag ∧ (s.emit o).msixTable = s.msixTable ∧ (s.emit o).msixPend = s.msixPend ∧
    (s.emit o).hostLink = s.hostLink ∧ (s.emit o).corrected = s.corrected ∧ (s.emit o).erred = s.erred ∧
    (s.emit o).spared = s.spared ∧ (s.emit o).lasers = s.lasers ∧ (s.emit o).bridgeLanes = s.bridgeLanes ∧
    (s.emit o).cfg = s.cfg ∧ (s.emit o).time = s.time ∧ (s.emit o).sto = s.sto ∧ (s.emit o).damper = s.damper ∧
    (s.emit o).dm = s.dm ∧ (s.emit o).obsBudget = s.obsBudget ∧ (s.emit o).obsWaiting = s.obsWaiting ∧
    (s.emit o).obsExports = s.obsExports :=
  by and_intros <;> rfl

@[simp] theorem State.fields_nextFree :
    (s.nextFree).pending = s.pending ∧ (s.nextFree).out = s.out ∧ (s.nextFree).regs = s.regs ∧
    (s.nextFree).effLo = s.effLo ∧ (s.nextFree).shadows = s.shadows ∧ (s.nextFree).counts = s.counts ∧
    (s.nextFree).mem = s.mem ∧ (s.nextFree).lost = s.lost ∧ (s.nextFree).hearth = s.hearth ∧
    (s.nextFree).presence = s.presence ∧ (s.nextFree).inFlight = s.inFlight ∧ (s.nextFree).cores = s.cores ∧
    (s.nextFree).clusters = s.clusters ∧ (s.nextFree).regions = s.regions ∧ (s.nextFree).stks = s.stks ∧
    (s.nextFree).ports = s.ports ∧ (s.nextFree).parts = s.parts ∧ (s.nextFree).counters = s.counters ∧
    (s.nextFree).streams = s.streams ∧ (s.nextFree).deliveries = s.deliveries ∧ (s.nextFree).retries = s.retries ∧
    (s.nextFree).barriers = s.barriers ∧ (s.nextFree).opRecords = s.opRecords ∧ (s.nextFree).modes = s.modes ∧
    (s.nextFree).pwrHeld = s.pwrHeld ∧ (s.nextFree).pwrDeadline = s.pwrDeadline ∧ (s.nextFree).pwrBusy = s.pwrBusy ∧
    (s.nextFree).arbs = s.arbs ∧ (s.nextFree).remotes = s.remotes ∧ (s.nextFree).nextTag = s.nextTag ∧
    (s.nextFree).msixTable = s.msixTable ∧ (s.nextFree).msixPend = s.msixPend ∧ (s.nextFree).hostLink = s.hostLink ∧
    (s.nextFree).corrected = s.corrected ∧ (s.nextFree).erred = s.erred ∧ (s.nextFree).spared = s.spared ∧
    (s.nextFree).lasers = s.lasers ∧ (s.nextFree).bridgeLanes = s.bridgeLanes ∧ (s.nextFree).cfg = s.cfg ∧
    (s.nextFree).time = s.time ∧ (s.nextFree).sto = s.sto ∧ (s.nextFree).damper = s.damper ∧ (s.nextFree).dm = s.dm ∧
    (s.nextFree).obsBudget = s.obsBudget ∧ (s.nextFree).obsWaiting = s.obsWaiting ∧
    (s.nextFree).obsExports = s.obsExports :=
  by and_intros <;> rfl

@[simp] theorem State.fields_setHolders (line : Nat) (ls : List Nat) :
    (s.setHolders line ls).pending = s.pending ∧ (s.setHolders line ls).freeCtr = s.freeCtr ∧
    (s.setHolders line ls).out = s.out ∧ (s.setHolders line ls).regs = s.regs ∧ (s.setHolders line ls).effLo = s.effLo ∧
    (s.setHolders line ls).shadows = s.shadows ∧ (s.setHolders line ls).counts = s.counts ∧
    (s.setHolders line ls).mem = s.mem ∧ (s.setHolders line ls).lost = s.lost ∧ (s.setHolders line ls).hearth = s.hearth ∧
    (s.setHolders line ls).inFlight = s.inFlight ∧ (s.setHolders line ls).cores = s.cores ∧
    (s.setHolders line ls).clusters = s.clusters ∧ (s.setHolders line ls).regions = s.regions ∧
    (s.setHolders line ls).stks = s.stks ∧ (s.setHolders line ls).ports = s.ports ∧ (s.setHolders line ls).parts = s.parts ∧
    (s.setHolders line ls).counters = s.counters ∧ (s.setHolders line ls).streams = s.streams ∧
    (s.setHolders line ls).deliveries = s.deliveries ∧ (s.setHolders line ls).retries = s.retries ∧
    (s.setHolders line ls).barriers = s.barriers ∧ (s.setHolders line ls).opRecords = s.opRecords ∧
    (s.setHolders line ls).modes = s.modes ∧ (s.setHolders line ls).pwrHeld = s.pwrHeld ∧
    (s.setHolders line ls).pwrDeadline = s.pwrDeadline ∧ (s.setHolders line ls).pwrBusy = s.pwrBusy ∧
    (s.setHolders line ls).arbs = s.arbs ∧ (s.setHolders line ls).remotes = s.remotes ∧
    (s.setHolders line ls).nextTag = s.nextTag ∧ (s.setHolders line ls).msixTable = s.msixTable ∧
    (s.setHolders line ls).msixPend = s.msixPend ∧ (s.setHolders line ls).hostLink = s.hostLink ∧
    (s.setHolders line ls).corrected = s.corrected ∧ (s.setHolders line ls).erred = s.erred ∧
    (s.setHolders line ls).spared = s.spared ∧ (s.setHolders line ls).lasers = s.lasers ∧
    (s.setHolders line ls).bridgeLanes = s.bridgeLanes ∧ (s.setHolders line ls).cfg = s.cfg ∧
    (s.setHolders line ls).time = s.time ∧ (s.setHolders line ls).sto = s.sto ∧ (s.setHolders line ls).damper = s.damper ∧
    (s.setHolders line ls).dm = s.dm ∧ (s.setHolders line ls).obsBudget = s.obsBudget ∧
    (s.setHolders line ls).obsWaiting = s.obsWaiting ∧ (s.setHolders line ls).obsExports = s.obsExports :=
  by and_intros <;> rfl

@[simp] theorem State.fields_dmSet (a : Nat) (v : W32) :
    (s.dmSet a v).pending = s.pending ∧ (s.dmSet a v).freeCtr = s.freeCtr ∧ (s.dmSet a v).out = s.out ∧
    (s.dmSet a v).regs = s.regs ∧ (s.dmSet a v).effLo = s.effLo ∧ (s.dmSet a v).shadows = s.shadows ∧
    (s.dmSet a v).counts = s.counts ∧ (s.dmSet a v).mem = s.mem ∧ (s.dmSet a v).lost = s.lost ∧
    (s.dmSet a v).hearth = s.hearth ∧ (s.dmSet a v).presence = s.presence ∧ (s.dmSet a v).inFlight = s.inFlight ∧
    (s.dmSet a v).cores = s.cores ∧ (s.dmSet a v).clusters = s.clusters ∧ (s.dmSet a v).regions = s.regions ∧
    (s.dmSet a v).stks = s.stks ∧ (s.dmSet a v).ports = s.ports ∧ (s.dmSet a v).parts = s.parts ∧
    (s.dmSet a v).counters = s.counters ∧ (s.dmSet a v).streams = s.streams ∧ (s.dmSet a v).deliveries = s.deliveries ∧
    (s.dmSet a v).retries = s.retries ∧ (s.dmSet a v).barriers = s.barriers ∧ (s.dmSet a v).opRecords = s.opRecords ∧
    (s.dmSet a v).modes = s.modes ∧ (s.dmSet a v).pwrHeld = s.pwrHeld ∧ (s.dmSet a v).pwrDeadline = s.pwrDeadline ∧
    (s.dmSet a v).pwrBusy = s.pwrBusy ∧ (s.dmSet a v).arbs = s.arbs ∧ (s.dmSet a v).remotes = s.remotes ∧
    (s.dmSet a v).nextTag = s.nextTag ∧ (s.dmSet a v).msixTable = s.msixTable ∧ (s.dmSet a v).msixPend = s.msixPend ∧
    (s.dmSet a v).hostLink = s.hostLink ∧ (s.dmSet a v).corrected = s.corrected ∧ (s.dmSet a v).erred = s.erred ∧
    (s.dmSet a v).spared = s.spared ∧ (s.dmSet a v).lasers = s.lasers ∧ (s.dmSet a v).bridgeLanes = s.bridgeLanes ∧
    (s.dmSet a v).cfg = s.cfg ∧ (s.dmSet a v).time = s.time ∧ (s.dmSet a v).sto = s.sto ∧ (s.dmSet a v).damper = s.damper ∧
    (s.dmSet a v).obsBudget = s.obsBudget ∧ (s.dmSet a v).obsWaiting = s.obsWaiting ∧
    (s.dmSet a v).obsExports = s.obsExports :=
  by and_intros <;> rfl

/-! ### A core -/

@[simp] theorem Core.fields_setQueue (c : Core) (q : Nat) (x : Queue) :
    (c.setQueue q x).cc = c.cc ∧ (c.setQueue q x).priv = c.priv ∧ (c.setQueue q x).cache = c.cache ∧
    (c.setQueue q x).evict = c.evict ∧ (c.setQueue q x).arenas = c.arenas ∧ (c.setQueue q x).spanCache = c.spanCache ∧
    (c.setQueue q x).faultSeq = c.faultSeq ∧ (c.setQueue q x).l1x = c.l1x ∧ (c.setQueue q x).ve = c.ve ∧
    (c.setQueue q x).mu = c.mu ∧ (c.setQueue q x).sq = c.sq ∧ (c.setQueue q x).deStopped = c.deStopped ∧
    (c.setQueue q x).lost = c.lost ∧ (c.setQueue q x).oldSlot = c.oldSlot ∧ (c.setQueue q x).busy = c.busy ∧
    (c.setQueue q x).nominal = c.nominal :=
  by and_intros <;> rfl

@[simp] theorem CC.fields_setCsr (c : CC) (n : Nat) (v : W64) :
    (c.setCsr n v).x = c.x ∧ (c.setCsr n v).pc = c.pc ∧ (c.setCsr n v).mtimecmp = c.mtimecmp ∧
    (c.setCsr n v).sigSeq = c.sigSeq ∧ (c.setCsr n v).stall = c.stall ∧ (c.setCsr n v).stores = c.stores ∧
    (c.setCsr n v).resv = c.resv ∧ (c.setCsr n v).halted = c.halted ∧ (c.setCsr n v).haltAt = c.haltAt ∧
    (c.setCsr n v).stopped = c.stopped ∧ (c.setCsr n v).remoteWrites = c.remoteWrites :=
  by and_intros <;> rfl

end Sys2Proof.Machine
end

