-- ==== Sys2Proof/Laws/Units.lean ====
section
/-!
SUPPORT. A unit, register, queue, group or grid read after one is written: the one written reads what was written, every other one
as before.
-/

namespace Sys2Proof.Machine

open Sys2Proof

variable (s : State)

/-! ### Units -/

@[simp] theorem State.core_setCore_same (k : Nat) (x : Core) : (s.setCore k x).core k = x := by
  simp [State.core, State.setCore]
theorem State.core_setCore_other {k j : Nat} (x : Core) (h : j ≠ k) : (s.setCore k x).core j = s.core j :=
  SMap.get_set_other _ _ _ h
@[simp] theorem State.cluster_setCluster_same (k : Nat) (x : Cluster) : (s.setCluster k x).cluster k = x := by
  simp [State.cluster, State.setCluster]
theorem State.cluster_setCluster_other {k j : Nat} (x : Cluster) (h : j ≠ k) : (s.setCluster k x).cluster j = s.cluster j :=
  SMap.get_set_other _ _ _ h
@[simp] theorem State.region_setRegion_same (k : Nat) (x : Region) : (s.setRegion k x).region k = x := by
  simp [State.region, State.setRegion]
theorem State.region_setRegion_other {k j : Nat} (x : Region) (h : j ≠ k) : (s.setRegion k x).region j = s.region j :=
  SMap.get_set_other _ _ _ h
@[simp] theorem State.stack_setStack_same (k : Nat) (x : Stack) : (s.setStack k x).stack k = x := by
  simp [State.stack, State.setStack]
theorem State.stack_setStack_other {k j : Nat} (x : Stack) (h : j ≠ k) : (s.setStack k x).stack j = s.stack j :=
  SMap.get_set_other _ _ _ h
@[simp] theorem State.port_setPort_same (k : Nat) (x : Port) : (s.setPort k x).port k = x := by
  simp [State.port, State.setPort]
theorem State.port_setPort_other {k j : Nat} (x : Port) (h : j ≠ k) : (s.setPort k x).port j = s.port j :=
  SMap.get_set_other _ _ _ h
@[simp] theorem State.part_setPart_same (k : Nat) (x : Part) : (s.setPart k x).part k = x := by
  simp [State.part, State.setPart]
theorem State.part_setPart_other {k j : Nat} (x : Part) (h : j ≠ k) : (s.setPart k x).part j = s.part j :=
  SMap.get_set_other _ _ _ h
@[simp] theorem State.counter_setCounter_same (k : Nat) (x : Counter) : (s.setCounter k x).counter k = x := by
  simp [State.counter, State.setCounter]
theorem State.counter_setCounter_other {k j : Nat} (x : Counter) (h : j ≠ k) : (s.setCounter k x).counter j = s.counter j :=
  SMap.get_set_other _ _ _ h
@[simp] theorem State.stream_setStream_same (k : Nat) (x : SStream) : (s.setStream k x).stream k = x := by
  simp [State.stream, State.setStream]
theorem State.stream_setStream_other {k j : Nat} (x : SStream) (h : j ≠ k) : (s.setStream k x).stream j = s.stream j :=
  SMap.get_set_other _ _ _ h
@[simp] theorem State.barrier_setBarrier_same (k : Nat) (x : Barrier) : (s.setBarrier k x).barrier k = x := by
  simp [State.barrier, State.setBarrier]
theorem State.barrier_setBarrier_other {k j : Nat} (x : Barrier) (h : j ≠ k) : (s.setBarrier k x).barrier j = s.barrier j :=
  SMap.get_set_other _ _ _ h

/-! ### Each unit when another kind of unit is written -/

@[simp] theorem State.units_setCore (k j : Nat) (x : Core) :
    (s.setCore k x).cluster j = s.cluster j ∧ (s.setCore k x).region j = s.region j ∧
    (s.setCore k x).stack j = s.stack j ∧ (s.setCore k x).port j = s.port j ∧ (s.setCore k x).part j = s.part j ∧
    (s.setCore k x).counter j = s.counter j ∧ (s.setCore k x).stream j = s.stream j ∧
    (s.setCore k x).barrier j = s.barrier j := by
  and_intros <;> rfl
@[simp] theorem State.units_setCluster (k j : Nat) (x : Cluster) :
    (s.setCluster k x).core j = s.core j ∧ (s.setCluster k x).region j = s.region j ∧
    (s.setCluster k x).stack j = s.stack j ∧ (s.setCluster k x).port j = s.port j ∧
    (s.setCluster k x).part j = s.part j ∧ (s.setCluster k x).counter j = s.counter j ∧
    (s.setCluster k x).stream j = s.stream j ∧ (s.setCluster k x).barrier j = s.barrier j := by
  and_intros <;> rfl
@[simp] theorem State.units_setRegion (k j : Nat) (x : Region) :
    (s.setRegion k x).core j = s.core j ∧ (s.setRegion k x).cluster j = s.cluster j ∧
    (s.setRegion k x).stack j = s.stack j ∧ (s.setRegion k x).port j = s.port j ∧
    (s.setRegion k x).part j = s.part j ∧ (s.setRegion k x).counter j = s.counter j ∧
    (s.setRegion k x).stream j = s.stream j ∧ (s.setRegion k x).barrier j = s.barrier j := by
  and_intros <;> rfl
@[simp] theorem State.units_setStack (k j : Nat) (x : Stack) :
    (s.setStack k x).core j = s.core j ∧ (s.setStack k x).cluster j = s.cluster j ∧
    (s.setStack k x).region j = s.region j ∧ (s.setStack k x).port j = s.port j ∧ (s.setStack k x).part j = s.part j ∧
    (s.setStack k x).counter j = s.counter j ∧ (s.setStack k x).stream j = s.stream j ∧
    (s.setStack k x).barrier j = s.barrier j := by
  and_intros <;> rfl
@[simp] theorem State.units_setPort (k j : Nat) (x : Port) :
    (s.setPort k x).core j = s.core j ∧ (s.setPort k x).cluster j = s.cluster j ∧
    (s.setPort k x).region j = s.region j ∧ (s.setPort k x).stack j = s.stack j ∧ (s.setPort k x).part j = s.part j ∧
    (s.setPort k x).counter j = s.counter j ∧ (s.setPort k x).stream j = s.stream j ∧
    (s.setPort k x).barrier j = s.barrier j := by
  and_intros <;> rfl
@[simp] theorem State.units_setPart (k j : Nat) (x : Part) :
    (s.setPart k x).core j = s.core j ∧ (s.setPart k x).cluster j = s.cluster j ∧
    (s.setPart k x).region j = s.region j ∧ (s.setPart k x).stack j = s.stack j ∧ (s.setPart k x).port j = s.port j ∧
    (s.setPart k x).counter j = s.counter j ∧ (s.setPart k x).stream j = s.stream j ∧
    (s.setPart k x).barrier j = s.barrier j := by
  and_intros <;> rfl
@[simp] theorem State.units_setCounter (k j : Nat) (x : Counter) :
    (s.setCounter k x).core j = s.core j ∧ (s.setCounter k x).cluster j = s.cluster j ∧
    (s.setCounter k x).region j = s.region j ∧ (s.setCounter k x).stack j = s.stack j ∧
    (s.setCounter k x).port j = s.port j ∧ (s.setCounter k x).part j = s.part j ∧
    (s.setCounter k x).stream j = s.stream j ∧ (s.setCounter k x).barrier j = s.barrier j := by
  and_intros <;> rfl
@[simp] theorem State.units_setStream (k j : Nat) (x : SStream) :
    (s.setStream k x).core j = s.core j ∧ (s.setStream k x).cluster j = s.cluster j ∧
    (s.setStream k x).region j = s.region j ∧ (s.setStream k x).stack j = s.stack j ∧
    (s.setStream k x).port j = s.port j ∧ (s.setStream k x).part j = s.part j ∧
    (s.setStream k x).counter j = s.counter j ∧ (s.setStream k x).barrier j = s.barrier j := by
  and_intros <;> rfl
@[simp] theorem State.units_setBarrier (k j : Nat) (x : Barrier) :
    (s.setBarrier k x).core j = s.core j ∧ (s.setBarrier k x).cluster j = s.cluster j ∧
    (s.setBarrier k x).region j = s.region j ∧ (s.setBarrier k x).stack j = s.stack j ∧
    (s.setBarrier k x).port j = s.port j ∧ (s.setBarrier k x).part j = s.part j ∧
    (s.setBarrier k x).counter j = s.counter j ∧ (s.setBarrier k x).stream j = s.stream j := by
  and_intros <;> rfl

/-! ### Registers -/

@[simp] theorem State.reg_setReg_same (n : RegName) (i j : Nat) (w : W32) : (s.setReg n i j w).reg n i j = w := by
  simp [State.reg, State.setReg]

theorem RegName.ctorIdx_injective {m n : RegName} (h : m.ctorIdx = n.ctorIdx) : m = n := by
  have := RegName.ofNat_ctorIdx m
  rw [h, RegName.ofNat_ctorIdx] at this
  exact this.symm

/-- Registers of the manual have indices below 4,096, and there the key tells them apart. -/
theorem RegRef.key_injective {r q : RegRef} (hi : r.i < 4096) (hj : r.j < 4096) (hi' : q.i < 4096) (hj' : q.j < 4096)
    (h : r.key = q.key) : r = q := by
  obtain ⟨n, i, j⟩ := r
  obtain ⟨m, a, b⟩ := q
  simp only [RegRef.key] at *
  have h1 : n.ctorIdx = m.ctorIdx := by omega
  obtain rfl := RegName.ctorIdx_injective h1
  have h2 : i = a := by omega
  have h3 : j = b := by omega
  subst h2 h3; rfl

theorem State.reg_setReg_key (n m : RegName) (i j a b : Nat) (w : W32)
    (h : ({ name := m, i := a, j := b } : RegRef).key ≠ ({ name := n, i := i, j := j } : RegRef).key) :
    (s.setReg n i j w).reg m a b = s.reg m a b := by
  unfold State.reg State.setReg
  simp only
  unfold SMap.set
  split
  · exact SMap.get_erase_other _ _ h
  · exact SMap.get_insert_other _ _ _ h

theorem State.reg_setReg_other {n m : RegName} {i j a b : Nat} (w : W32) (h : (m, a, b) ≠ (n, i, j)) (hi : i < 4096)
    (hj : j < 4096) (ha : a < 4096) (hb : b < 4096) : (s.setReg n i j w).reg m a b = s.reg m a b := by
  refine s.reg_setReg_key n m i j a b w fun e => h ?_
  have := RegRef.key_injective (r := ⟨m, a, b⟩) (q := ⟨n, i, j⟩) ha hb hi hj e
  injection this with e1 e2 e3
  rw [e1, e2, e3]

@[simp] theorem State.count_addCount_same (n : RegName) (i j k : Nat) :
    (s.addCount n i j k).count n i j = (s.count n i j + k) % 2 ^ 48 := by
  simp [State.count, State.addCount]
@[simp] theorem State.reg_addCount (n m : RegName) (i j k a b : Nat) : (s.addCount n i j k).reg m a b = s.reg m a b := rfl

/-- Both words of a pair and its value in effect, after the pair is written (R379): a value that leaves the reserved bits clear (R8)
is what the pair then reads. -/
theorem State.pair_setPair_same {lo hi : RegName} (i j v : Nat) (hv : v < 2 ^ 64)
    (hl : BitVec.ofNat 32 v &&& lo.known = BitVec.ofNat 32 v)
    (hh : BitVec.ofNat 32 (v >>> 32) &&& hi.known = BitVec.ofNat 32 (v >>> 32)) :
    (s.setPair lo hi i j v).pair lo hi i j = v := by
  have e : (s.setPair lo hi i j v).reg hi i j = BitVec.ofNat 32 (v >>> 32) := by
    unfold State.setPair
    rw [hl, hh]
    exact State.reg_setReg_same _ _ _ _ _
  unfold State.pair
  rw [e]
  simp only [State.setPair, hl, SMap.get_set_same, BitVec.toNat_ofNat, Nat.shiftRight_eq_div_pow]
  omega

/-! ### Queues -/

@[simp] theorem Core.queue_setQueue_same (c : Core) (q : Nat) (x : Queue) : (c.setQueue q x).queue q = x := by
  simp [Core.queue, Core.setQueue]
theorem Core.queue_setQueue_other (c : Core) {q r : Nat} (x : Queue) (h : r ≠ q) : (c.setQueue q x).queue r = c.queue r :=
  SMap.get_set_other _ _ _ h
theorem State.queue_modQueue_same (l q : Nat) (f : Queue → Queue) : (s.modQueue l q f).queue l q = f (s.queue l q) := by
  simp [State.queue]
theorem State.queue_modQueue_queue (l : Nat) {q r : Nat} (f : Queue → Queue) (h : r ≠ q) :
    (s.modQueue l q f).queue l r = s.queue l r := by
  simp [State.queue, Core.queue_setQueue_other _ _ h]
theorem State.queue_modQueue_core {l k : Nat} (q r : Nat) (f : Queue → Queue) (h : k ≠ l) :
    (s.modQueue l q f).queue k r = s.queue k r := by
  simp [State.queue, State.core_setCore_other _ _ h]

/-! ### Integer registers and CSRs of a control core -/

@[simp] theorem CC.csr_setCsr_same (c : CC) (n : Nat) (v : W64) : (c.setCsr n v).csr n = v := by simp [CC.csr, CC.setCsr]
theorem CC.csr_setCsr_other (c : CC) {n m : Nat} (v : W64) (h : m ≠ n) : (c.setCsr n v).csr m = c.csr m :=
  SMap.get_set_other _ _ _ h
@[simp] theorem CC.xr_setCsr (c : CC) (n r : Nat) (v : W64) : (c.setCsr n v).xr r = c.xr r := rfl
@[simp] theorem CC.xr_zero (c : CC) : c.xr 0 = 0 := rfl
/-- x0 takes nothing (R59). -/
theorem CC.xr_setX (c : CC) (n r : Nat) (v : W64) :
    (c.setX n v).xr r = if r = 0 then 0 else if r = n then v else c.xr r := by
  unfold CC.setX CC.xr
  by_cases h0 : n = 0
  · subst h0
    by_cases hr : r = 0 <;> simp [hr]
  · by_cases hr : r = 0
    · simp [hr]
    · by_cases hn : r = n
      · simp [h0, hn]
      · simp [h0, hr, hn, SMap.get_set_other _ _ _ hn]
@[simp] theorem CC.csr_setX (c : CC) (n r : Nat) (v : W64) : (c.setX r v).csr n = c.csr n := by
  unfold CC.setX; split <;> rfl

/-! ### Groups and grids -/

@[simp] theorem State.group_setGroup_same (l g : Nat) (x : Option Group) : (s.setGroup l g x).group l g = x := by
  simp [State.group, State.setGroup]
theorem State.group_setGroup_other (l : Nat) {g k : Nat} (x : Option Group) (h : k ≠ g) :
    (s.setGroup l g x).group l k = s.group l k := by
  simp [State.group, State.setGroup, SMap.get_set_other _ _ _ h]
theorem State.group_setGroup_core {l k : Nat} (g h : Nat) (x : Option Group) (e : k ≠ l) :
    (s.setGroup l g x).group k h = s.group k h := by
  simp [State.group, State.setGroup, State.core_setCore_other _ _ e]
@[simp] theorem State.grid_setGrid_same (l g : Nat) (x : Option Grid) : (s.setGrid l g x).grid l g = x := by
  simp [State.grid, State.setGrid]
theorem State.grid_setGrid_other (l : Nat) {g k : Nat} (x : Option Grid) (h : k ≠ g) :
    (s.setGrid l g x).grid l k = s.grid l k := by
  simp [State.grid, State.setGrid, SMap.get_set_other _ _ _ h]

end Sys2Proof.Machine
end

