-- ==== Sys2Proof/Laws/Records.lean ====
section
/-!
SUPPORT. What a message of the host link and a record of the ash log can change (R352, R353, Table 12.13), and what preserves an
invariant of the state over a list.
-/

namespace Sys2Proof.Machine

open Sys2Proof

variable (s : State)

/-- What every turn keeps, a fold keeps. -/
theorem foldl_keeps {α β : Type} (P : β → Prop) (f : β → α → β) (hf : ∀ b a, P b → P (f b a)) (l : List α) :
    ∀ b, P b → P (l.foldl f b) := by
  induction l with
  | nil => intro b h; exact h
  | cons a t ih => intro b h; exact ih _ (hf b a h)

/-- What every turn leaves equal, a fold leaves equal. -/
theorem foldl_same {α β γ : Type} (g : β → γ) (f : β → α → β) (hf : ∀ b a, g (f b a) = g b) (l : List α) (b : β) :
    g (l.foldl f b) = g b :=
  foldl_keeps (fun x => g x = g b) f (fun x a h => (hf x a).trans h) l b rfl

theorem SameBytes.refl : SameBytes s s := fun _ => rfl
theorem SameBytes.trans {a b c : State} (h : SameBytes a b) (k : SameBytes b c) : SameBytes a c := fun x => (k x).trans (h x)
theorem sameBytes_of_eq {s t : State} (h : t.mem = s.mem) (k : t.lost = s.lost) : SameBytes s t := fun a => by
  unfold State.byte; rw [h, k]

/-- A message to the host leaves on the port of the endpoint, or waits for one (R318). -/
theorem State.toHost_frame (m : HostMsg) :
    s.toHost m = { s with hostLink := (s.toHost m).hostLink, out := (s.toHost m).out } := by
  unfold State.toHost
  simp only
  split <;> rfl

/-- A replay sends again and forgets nothing. -/
theorem State.hostReplay_frame : s.hostReplay = { s with out := s.hostReplay.out } := by
  unfold State.hostReplay
  split
  · rfl
  · exact foldl_keeps (fun t : State => t = { s with out := t.out }) _ (fun t e h => by rw [h]; rfl) _ _ rfl

/-- The data-link layer's change of port touches the host link and what has left alone (R318). -/
theorem State.hostResume_frame :
    s.hostResume = { s with hostLink := s.hostResume.hostLink, out := s.hostResume.out } := by
  unfold State.hostResume
  split
  · rfl
  · refine foldl_keeps (fun t : State => t = { s with hostLink := t.hostLink, out := t.out }) _ (fun t m h => ?_) _ _ ?_
    · rw [State.toHost_frame, h]
    · rw [State.hostReplay_frame]

/-- An MSI-X message leaves or waits, or is held as a pending bit. -/
theorem State.msix_frame (fn vec : Nat) :
    s.msix fn vec = { s with msixPend := (s.msix fn vec).msixPend, hostLink := (s.msix fn vec).hostLink, out := (s.msix fn vec).out } := by
  unfold State.msix
  split
  · split <;> rfl
  · rw [State.toHost_frame]

theorem State.msixVf_frame (p vec : Nat) :
    s.msixVf p vec = { s with msixPend := (s.msixVf p vec).msixPend, hostLink := (s.msixVf p vec).hostLink,
                              out := (s.msixVf p vec).out } := by
  unfold State.msixVf
  split
  · exact s.msix_frame _ _
  · rfl

theorem State.bumpField_frame (n : RegName) (i j hi lo d : Nat) :
    s.bumpField n i j hi lo d = { s with regs := (s.bumpField n i j hi lo d).regs } := rfl

/-- A record of the ash log changes the log, its status register and what has gone to the host. -/
theorem State.ash_frame (r : AshRec) :
    s.ash r = { s with regs := (s.ash r).regs, sto := (s.ash r).sto, msixPend := (s.ash r).msixPend,
                       hostLink := (s.ash r).hostLink, out := (s.ash r).out } := by
  unfold State.ash
  simp only
  rw [State.msix_frame]
  split <;> rfl

theorem State.ashNow_frame (src : W32) (kind severity part unit lcore : Nat) (span : W32) (start length detail : Nat) :
    let t := s.ashNow src kind severity part unit lcore span start length detail
    t = { s with regs := t.regs, sto := t.sto, msixPend := t.msixPend, hostLink := t.hostLink, out := t.out } := s.ash_frame _

/-- The newest record of the log is the one that entered it. -/
theorem State.ash_last (r : AshRec) : (s.ash r).sto.ash.getLast? = some r := by
  unfold State.ash
  simp only
  rw [State.msix_frame]
  simp

theorem State.logged_ashNow (src : W32) (kind severity part unit lcore : Nat) (span : W32) (start length detail : Nat)
    (h : kind < 2 ^ 16) : Logged (s.ashNow src kind severity part unit lcore span start length detail) kind severity :=
  ⟨_, s.ash_last _, by show (BitVec.ofNat 16 kind).toNat = kind; rw [BitVec.toNat_ofNat, Nat.mod_eq_of_lt h], rfl⟩

theorem State.serviceEvent_frame (part unit lcore : Nat) (span : W32) (start length detail : Nat) :
    let t := s.serviceEvent part unit lcore span start length detail
    t = { s with regs := t.regs, sto := t.sto, msixPend := t.msixPend, hostLink := t.hostLink, out := t.out } := by
  unfold State.serviceEvent
  simp only
  split
  · rw [State.msixVf_frame, State.msix_frame, State.ashNow_frame]
  · rw [State.msix_frame, State.ashNow_frame]

theorem State.sameBytes_msix (fn vec : Nat) : SameBytes s (s.msix fn vec) :=
  sameBytes_of_eq (by rw [State.msix_frame]) (by rw [State.msix_frame])
theorem State.sameBytes_ash (r : AshRec) : SameBytes s (s.ash r) :=
  sameBytes_of_eq (by rw [State.ash_frame]) (by rw [State.ash_frame])

@[simp] theorem State.mem_msix (fn vec : Nat) : (s.msix fn vec).mem = s.mem := by rw [State.msix_frame]
@[simp] theorem State.mem_msixVf (p vec : Nat) : (s.msixVf p vec).mem = s.mem := by rw [State.msixVf_frame]
@[simp] theorem State.mem_ash (r : AshRec) : (s.ash r).mem = s.mem := by rw [State.ash_frame]
@[simp] theorem State.mem_ashNow (src : W32) (kind severity part unit lcore : Nat) (span : W32) (start length detail : Nat) :
    (s.ashNow src kind severity part unit lcore span start length detail).mem = s.mem := s.mem_ash _
@[simp] theorem State.mem_serviceEvent (part unit lcore : Nat) (span : W32) (start length detail : Nat) :
    (s.serviceEvent part unit lcore span start length detail).mem = s.mem := by rw [State.serviceEvent_frame]
@[simp] theorem State.cores_ash (r : AshRec) : (s.ash r).cores = s.cores := by rw [State.ash_frame]
@[simp] theorem State.core_ashNow (src : W32) (kind severity part unit lcore : Nat) (span : W32) (start length detail l : Nat) :
    (s.ashNow src kind severity part unit lcore span start length detail).core l = s.core l := by
  unfold State.core State.ashNow; rw [s.cores_ash]

end Sys2Proof.Machine
end

