-- ==== Sys2Proof/Laws/Arbiters.lean ====
section
/-!
SUPPORT. What arbiters can do (R13, R325 to R328): every operation of theirs changes arbiters alone, a grant takes a request that
waits, and an arbiter that is written leaves every other as it was.
-/

namespace Sys2Proof.Machine

open Sys2Proof

variable (s : State)

/-- Two arbiters have two keys. -/
theorem arbKey_injective {a b : Arbiter} (h : arbKey a = arbKey b) : a = b := by
  cases a <;> cases b <;> simp only [arbKey] at h <;>
    first
    | (rename_i x y; have e : x = y := Fin.ext (by omega); rw [e])
    | omega

@[simp] theorem State.arb_setArb_same (a : Arbiter) (x : Arb) : (s.setArb a x).arb a = x := by
  simp [State.arb, State.setArb]
theorem State.arb_setArb_other {a b : Arbiter} (x : Arb) (h : b ≠ a) : (s.setArb a x).arb b = s.arb b :=
  SMap.get_set_other _ _ _ fun e => h (arbKey_injective e)

/-- The states differ in their arbiters at most. -/
def OnlyArbs (s t : State) : Prop := t = { s with arbs := t.arbs }

theorem OnlyArbs.refl : OnlyArbs s s := rfl
theorem OnlyArbs.trans {a b c : State} (h : OnlyArbs a b) (k : OnlyArbs b c) : OnlyArbs a c := by
  unfold OnlyArbs at *; rw [k, h]
theorem OnlyArbs.sameBytes {a b : State} (h : OnlyArbs a b) : SameBytes a b :=
  sameBytes_of_eq (by rw [h]) (by rw [h])
theorem State.onlyArbs_setArb (a : Arbiter) (x : Arb) : OnlyArbs s (s.setArb a x) := rfl

/-- What changes arbiters alone at every turn changes them alone over a list. -/
theorem onlyArbs_foldl {α : Type} (f : State → α → State) (hf : ∀ s a, OnlyArbs s (f s a)) (l : List α) : OnlyArbs s (l.foldl f s) :=
  foldl_keeps (OnlyArbs s) f (fun b a h => h.trans (hf b a)) l s rfl

theorem State.onlyArbs_arbStep (a : Arbiter) : OnlyArbs s (s.arbStep a) := by
  unfold State.arbStep
  split
  · split <;> rfl
  · split
    · rfl
    · split <;> rfl

theorem State.onlyArbs_arbArrive (top : Arbiter) (l : List ArbArrival) (c : Nat) : OnlyArbs s (s.arbArrive top l c) :=
  onlyArbs_foldl s _ (fun s q => by dsimp only; split <;> rfl) _

theorem State.onlyArbs_arbReady (a : Arbiter) : OnlyArbs s (s.arbReady a) := by
  unfold State.arbReady; split <;> rfl

theorem State.onlyArbs_census (a : Arbiter) : OnlyArbs s (s.census a) := rfl

/-- The 256 cycles of a window change arbiters alone. -/
theorem State.onlyArbs_window (top : Arbiter) (arrivals : List ArbArrival) (busy : List Arbiter) :
    OnlyArbs s ((List.range 256).foldl (fun s c => busy.foldl State.arbStep (s.arbArrive top arrivals c)) s) :=
  onlyArbs_foldl s _ (fun s c => (s.onlyArbs_arbArrive top arrivals c).trans
    (onlyArbs_foldl _ _ (fun s a => s.onlyArbs_arbStep a) busy)) _

/-- A grant takes one request that waits. -/
theorem Arb.mem_grant {x y : Arb} {a : Arbiter} {q : ArbReq} (h : x.grant a = some (q, y)) : q ∈ x.waiting := by
  unfold Arb.grant at h
  simp only at h
  split at h
  · cases h
  · split at h
    · cases h
    · split at h
      · cases h
      · rename_i e
        cases h
        exact List.mem_of_getElem? e

/-- The class that an arbiter serves has a request that waits. -/
theorem Arb.serves_some {x : Arb} {c : ArbClass} (h : x.serves = some c) : ∃ r ∈ x.waiting, r.cls = c := by
  have pick {d : ArbClass} (k : (x.waiting.any fun r => r.cls == d) = true) : ∃ r ∈ x.waiting, r.cls = d := by
    simpa using k
  unfold Arb.serves at h
  simp only at h
  split at h
  · rename_i k; cases h; exact pick ((Bool.and_eq_true _ _).mp k).1
  · split at h
    · rename_i k; cases h; exact pick k
    · split at h
      · rename_i k; cases h; exact pick k
      · cases h

end Sys2Proof.Machine
end

