-- ==== Sys2Proof/Laws/Memory.lean ====
section
/-!
SUPPORT. Memory (log entry 5): a byte read after bytes are stored, the frame of each storing operation, and the canonical form,
which every one of them keeps.
-/

namespace Sys2Proof.Machine

open Sys2Proof

variable (s : State)

/-! ### Storage -/

/-- Storage after bytes are put from `a` on. -/
theorem State.get_pokes (bs : List Byte) : ∀ (s : State) (a x : Nat),
    SMap.get blankByte (s.pokes a bs).mem x =
      if a ≤ x ∧ x < a + bs.length then bs.getD (x - a) 0 else SMap.get blankByte s.mem x := by
  induction bs with
  | nil => intro s a x; rw [if_neg (by simp only [List.length_nil]; omega)]; rfl
  | cons b t ih =>
    intro s a x
    rw [State.pokes, ih]
    by_cases h : x = a
    · subst h
      have h1 : ¬ (x + 1 ≤ x ∧ x < x + 1 + t.length) := by omega
      have h2 : x ≤ x ∧ x < x + (b :: t).length := by simp
      rw [if_neg h1, if_pos h2]
      simp [State.poke]
    · have e : SMap.get blankByte (s.poke a b).mem x = SMap.get blankByte s.mem x := SMap.get_set_other _ _ _ h
      rw [e]
      by_cases h1 : a + 1 ≤ x ∧ x < a + 1 + t.length
      · have h2 : a ≤ x ∧ x < a + (b :: t).length := by simp only [List.length_cons]; omega
        rw [if_pos h1, if_pos h2]
        have : x - a = (x - (a + 1)) + 1 := by omega
        rw [this]; rfl
      · have h2 : ¬ (a ≤ x ∧ x < a + (b :: t).length) := by simp only [List.length_cons]; omega
        rw [if_neg h1, if_neg h2]

theorem State.pokes_frame (bs : List Byte) : ∀ (s : State) (a : Nat), s.pokes a bs = { s with mem := (s.pokes a bs).mem } := by
  induction bs with
  | nil => intro s a; rfl
  | cons b t ih => intro s a; exact ih (s.poke a b) (a + 1)

@[simp] theorem State.wf_poke (a : Nat) (b : Byte) (h : Memory.wf s.mem = true) : Memory.wf (s.poke a b).mem = true :=
  SMap.wf_set _ _ _ _ h

@[simp] theorem State.wf_pokes (bs : List Byte) : ∀ (s : State) (a : Nat), Memory.wf s.mem = true → Memory.wf (s.pokes a bs).mem = true := by
  induction bs with
  | nil => intro s a h; exact h
  | cons b t ih => intro s a h; exact ih _ _ (s.wf_poke a b h)

/-! ### Granules lost without copy (R351) -/

/-- One granule healed. -/
def State.healOne (s : State) (g : Nat) : State :=
  if s.lost.contains g then { s.pokes (g * 64) (List.replicate 64 0xFF) with lost := s.lost.filter (· != g) } else s

theorem getD_replicate {n k : Nat} (b : Byte) (h : k < n) : (List.replicate n b).getD k 0 = b := by
  rw [List.getD_eq_getElem?_getD, List.getElem?_replicate, if_pos h]; rfl

theorem State.healOne_eq (g : Nat) : ∃ r : List Byte, (∀ k, k < 64 → r.getD k 0 = 0xFF) ∧ r.length = 64 ∧
    s.healOne g = if s.lost.contains g then { s.pokes (g * 64) r with lost := s.lost.filter (· != g) } else s :=
  ⟨List.replicate 64 0xFF, fun _ => getD_replicate _, List.length_replicate, rfl⟩

theorem State.mem_healOne (g : Nat) : ∃ r : List Byte, (∀ k, k < 64 → r.getD k 0 = 0xFF) ∧ r.length = 64 ∧
    (s.healOne g).mem = if s.lost.contains g then (s.pokes (g * 64) r).mem else s.mem := by
  obtain ⟨r, h1, h2, e⟩ := s.healOne_eq g
  refine ⟨r, h1, h2, ?_⟩
  rw [e]
  split
  · rfl
  · rfl

theorem State.heal_eq (a n : Nat) :
    s.heal a n = if n = 0 then s else (span (granuleOf a) (granuleOf (a + n - 1))).foldl State.healOne s := rfl

theorem State.healOne_frame (g : Nat) : s.healOne g = { s with mem := (s.healOne g).mem, lost := (s.healOne g).lost } := by
  unfold State.healOne
  generalize List.replicate 64 (0xFF : Byte) = r
  split
  · rw [State.pokes_frame]
  · rfl

@[simp] theorem State.wf_healOne (g : Nat) (h : Memory.wf s.mem = true) : Memory.wf (s.healOne g).mem = true := by
  obtain ⟨r, -, -, e⟩ := s.mem_healOne g
  rw [e]
  split
  · exact State.wf_pokes _ _ _ h
  · exact h

theorem State.lost_healOne (g k : Nat) : (s.healOne g).lost.contains k = (s.lost.contains k && k != g) := by
  unfold State.healOne
  split
  · rw [Bool.eq_iff_iff]; simp [List.mem_filter]
  · next h =>
    by_cases hk : k = g
    · subst hk; simpa using h
    · simp [hk]

/-- A granule that is healed holds the all-ones that it read as. -/
theorem State.byte_healOne (g x : Nat) : (s.healOne g).byte x = s.byte x := by
  obtain ⟨r, hr, hn, e⟩ := s.mem_healOne g
  unfold State.byte
  rw [State.lost_healOne, e]
  by_cases hg : granuleOf x = g
  · subst hg
    by_cases hc : s.lost.contains (granuleOf x) = true
    · have h1 : granuleOf x * 64 ≤ x ∧ x < granuleOf x * 64 + r.length := by rw [hn]; simp only [granuleOf]; omega
      simp only [hc, if_true, bne_self_eq_false, Bool.and_false, Bool.false_eq_true, if_false]
      rw [State.get_pokes, if_pos h1, hr _ (by rw [hn] at h1; omega)]
    · rw [if_neg hc]; simp only [hc, Bool.false_and, Bool.false_eq_true, if_false]
  · have hb : (granuleOf x != g) = true := by simp [hg]
    rw [hb, Bool.and_true]
    split
    · rfl
    · split
      · rw [State.get_pokes, if_neg]
        rw [hn]
        simp only [granuleOf] at hg ⊢
        omega
      · rfl

theorem State.heal_frame (a n : Nat) : s.heal a n = { s with mem := (s.heal a n).mem, lost := (s.heal a n).lost } := by
  rw [State.heal_eq]
  split
  · rfl
  · generalize span _ _ = gs
    induction gs generalizing s with
    | nil => rfl
    | cons g t ih =>
      rw [List.foldl_cons, ih (s.healOne g), State.healOne_frame]

@[simp] theorem State.wf_heal (a n : Nat) (h : Memory.wf s.mem = true) : Memory.wf (s.heal a n).mem = true := by
  rw [State.heal_eq]
  split
  · exact h
  · generalize span _ _ = gs
    induction gs generalizing s with
    | nil => exact h
    | cons g t ih => exact ih _ (s.wf_healOne g h)

theorem State.byte_heal (a n x : Nat) : (s.heal a n).byte x = s.byte x := by
  rw [State.heal_eq]
  split
  · rfl
  · generalize span _ _ = gs
    induction gs generalizing s with
    | nil => rfl
    | cons g t ih => rw [List.foldl_cons, ih, State.byte_healOne]

theorem State.lost_foldl_healOne (gs : List Nat) (k : Nat) :
    (gs.foldl State.healOne s).lost.contains k = (s.lost.contains k && !gs.contains k) := by
  induction gs generalizing s with
  | nil => simp
  | cons g t ih =>
    rw [List.foldl_cons, ih, State.lost_healOne]
    by_cases h : k = g
    · subst h; simp
    · have h' : (k != g) = true := by simp [h]
      rw [h']; simp [h]

theorem mem_span {a b k : Nat} : k ∈ span a b ↔ a ≤ k ∧ k ≤ b := by
  unfold span
  simp only [List.mem_map, List.mem_range]
  constructor
  · rintro ⟨x, hx, rfl⟩; omega
  · rintro ⟨h1, h2⟩; exact ⟨k - a, by omega, by omega⟩

/-- A granule that a write touches is lost no more. -/
theorem State.lost_heal (a n x : Nat) (h1 : a ≤ x) (h2 : x < a + n) : (s.heal a n).lost.contains (granuleOf x) = false := by
  rw [State.heal_eq, if_neg (by omega), State.lost_foldl_healOne]
  have : granuleOf x ∈ span (granuleOf a) (granuleOf (a + n - 1)) := mem_span.2 (by simp only [granuleOf]; omega)
  simp [this]

/-! ### Storing -/

theorem State.store_frame (a : Nat) (bs : List Byte) :
    s.store a bs = { s with mem := (s.store a bs).mem, lost := (s.store a bs).lost } := by
  unfold State.store
  rw [State.pokes_frame, State.heal_frame]

@[simp] theorem State.wf_store (a : Nat) (bs : List Byte) (h : Memory.wf s.mem = true) : Memory.wf (s.store a bs).mem = true :=
  State.wf_pokes _ _ _ (s.wf_heal _ _ h)

/-- A byte after bytes are stored: the byte stored there, or what it read before. -/
theorem State.byte_store (a x : Nat) (bs : List Byte) :
    (s.store a bs).byte x = if a ≤ x ∧ x < a + bs.length then bs.getD (x - a) 0 else s.byte x := by
  have hl : (s.store a bs).lost = (s.heal a bs.length).lost := by
    unfold State.store; rw [State.pokes_frame]
  have hm : SMap.get blankByte (s.store a bs).mem x = _ := State.get_pokes bs (s.heal a bs.length) a x
  by_cases h : a ≤ x ∧ x < a + bs.length
  · rw [if_pos h]
    unfold State.byte
    rw [hl, s.lost_heal a bs.length x h.1 h.2, hm, if_pos h]
    simp
  · rw [if_neg h, ← s.byte_heal a bs.length x]
    unfold State.byte
    rw [hl, hm, if_neg h]

theorem State.byte_store_same (a k : Nat) (bs : List Byte) (h : k < bs.length) : (s.store a bs).byte (a + k) = bs[k] := by
  rw [State.byte_store, if_pos (by omega), Nat.add_sub_cancel_left]
  simp [h]

theorem State.byte_store_other (a x : Nat) (bs : List Byte) (h : x < a ∨ a + bs.length ≤ x) :
    (s.store a bs).byte x = s.byte x := by
  rw [State.byte_store, if_neg (by omega)]

end Sys2Proof.Machine
end

