-- ==== Sys2Proof/Laws/Homes.lean ====
section
/-!
SUPPORT. Reads and writes at the homes (R75 to R78, R222, R223, R234): every one of them keeps memory's canonical form, and those
that store nothing leave memory as it is.
-/

namespace Sys2Proof.Machine

open Sys2Proof

variable (s : State)

/-! ### What leaves memory as it is -/

@[simp] theorem State.mem_addCount (lo : RegName) (i j n : Nat) : (s.addCount lo i j n).mem = s.mem := rfl

theorem State.eachCore_frame (f : Nat → Core → Core) : s.eachCore f = { s with cores := (s.eachCore f).cores } := by
  unfold State.eachCore
  exact foldl_keeps (fun t : State => t = { s with cores := t.cores }) _ (fun b a h => by rw [State.modCore_eq, h]; rfl) _ _ rfl

/-- A cancelled reservation changes nothing but cores (R78). -/
theorem State.cancelResv_frame (a n : Nat) : s.cancelResv a n = { s with cores := (s.cancelResv a n).cores } :=
  s.eachCore_frame _

@[simp] theorem State.mem_cancelResv (a n : Nat) : (s.cancelResv a n).mem = s.mem := by rw [State.cancelResv_frame]

/-- Counting changes counters alone. -/
def OnlyCounts (s t : State) : Prop := t = { s with counts := t.counts }

theorem OnlyCounts.refl : OnlyCounts s s := rfl
theorem OnlyCounts.trans {a b c : State} (h : OnlyCounts a b) (k : OnlyCounts b c) : OnlyCounts a c := by
  unfold OnlyCounts at *; rw [k, h]
theorem State.onlyCounts_addCount (lo : RegName) (i j n : Nat) : OnlyCounts s (s.addCount lo i j n) := rfl

theorem State.onlyCounts_countBridges (x y n : Nat) : OnlyCounts s (s.countBridges x y n) := by
  unfold State.countBridges OnlyCounts; dsimp only; split <;> split <;> rfl
theorem State.onlyCounts_countPath (u : Unit) (d n : Nat) (w : Bool) : OnlyCounts s (s.countPath u d n w) := by
  unfold State.countPath; split <;> exact s.onlyCounts_countBridges _ _ _
theorem State.onlyCounts_countPlaced (p : Placed) (n : Nat) (w : Bool) : OnlyCounts s (s.countPlaced p n w) := by
  unfold State.countPlaced OnlyCounts; dsimp only; split <;> rfl

theorem State.onlyCounts_account (u : Unit) (a n : Nat) (w hit stream fill : Bool) :
    OnlyCounts s (s.account u a n w hit stream fill) := by
  unfold State.account
  split
  · rfl
  · dsimp only
    refine OnlyCounts.trans ?_ (State.onlyCounts_countPath _ _ _ _ _)
    repeat' split
    all_goals
      first
        | rfl
        | exact OnlyCounts.trans (by rfl) (State.onlyCounts_countPlaced _ _ _ _)

theorem State.onlyCounts_countLocal (u : Unit) (l n : Nat) (w : Bool) : OnlyCounts s (s.countLocal u l n w) := by
  unfold State.countLocal
  dsimp only
  split
  · rfl
  · have h := OnlyCounts.trans (s.onlyCounts_addCount .CORE_CNT_LO (s.physOf l) 2 n)
      (State.onlyCounts_countPath _ u (l / 192) n w)
    split
    · exact h
    · exact h.trans (State.onlyCounts_addCount _ _ _ _ _)

@[simp] theorem State.mem_countBridges (x y n : Nat) : (s.countBridges x y n).mem = s.mem := by
  rw [s.onlyCounts_countBridges x y n]
@[simp] theorem State.mem_countPath (u : Unit) (d n : Nat) (w : Bool) : (s.countPath u d n w).mem = s.mem := by
  rw [s.onlyCounts_countPath u d n w]
@[simp] theorem State.mem_countPlaced (p : Placed) (n : Nat) (w : Bool) : (s.countPlaced p n w).mem = s.mem := by
  rw [s.onlyCounts_countPlaced p n w]
@[simp] theorem State.mem_account (u : Unit) (a n : Nat) (w hit stream fill : Bool) :
    (s.account u a n w hit stream fill).mem = s.mem := by rw [s.onlyCounts_account u a n w hit stream fill]
@[simp] theorem State.mem_countLocal (u : Unit) (l n : Nat) (w : Bool) : (s.countLocal u l n w).mem = s.mem := by
  rw [s.onlyCounts_countLocal u l n w]

/-- An access at a Hearth slice changes the slice's tags, and counters where it displaces a dirty line. -/
theorem State.hearthTouch_frame (p : Option Nat) (a : Nat) (w al : Bool) :
    (s.hearthTouch p a w al).2 = { s with hearth := (s.hearthTouch p a w al).2.hearth, counts := (s.hearthTouch p a w al).2.counts } := by
  unfold State.hearthTouch
  dsimp only
  repeat' split
  all_goals first | rfl | (dsimp only; rw [State.onlyCounts_countPlaced])

@[simp] theorem State.mem_hearthTouch (p : Option Nat) (a : Nat) (w al : Bool) : (s.hearthTouch p a w al).2.mem = s.mem := by
  rw [State.hearthTouch_frame]

/-- A read at a home changes tags and counters alone. -/
theorem State.readHome_frame (u : Unit) (a n : Nat) (st : Bool) :
    s.readHome u a n st = { s with hearth := (s.readHome u a n st).hearth, counts := (s.readHome u a n st).counts } := by
  unfold State.readHome
  dsimp only
  rw [State.onlyCounts_account, State.hearthTouch_frame]

@[simp] theorem State.mem_readHome (u : Unit) (a n : Nat) (st : Bool) : (s.readHome u a n st).mem = s.mem := by
  rw [State.readHome_frame]

/-! ### What keeps the canonical form -/

@[simp] theorem State.wf_put (src : W32) (a : Nat) (bs : List Byte) (h : Memory.wf s.mem = true) :
    Memory.wf (s.put src a bs).mem = true := by
  unfold State.put
  refine foldl_keeps (fun t : State => Memory.wf t.mem = true) _ (fun t c ht => ?_) _ _ h
  split
  · rw [State.mem_ashNow]; exact ht
  · exact State.wf_store _ _ _ (by rw [State.mem_cancelResv]; exact ht)

@[simp] theorem State.wf_writeHome (u : Unit) (a : Nat) (bs : List Byte) (h : Memory.wf s.mem = true) :
    Memory.wf (s.writeHome u a bs).mem = true := by
  unfold State.writeHome
  dsimp only
  split
  · exact s.wf_put _ _ _ h
  · refine State.wf_put _ _ _ _ ?_
    rw [State.mem_account]
    repeat' split
    all_goals simp [h]

@[simp] theorem State.wf_writeHomes (u : Unit) (a : Nat) (bs : List Byte) (h : Memory.wf s.mem = true) :
    Memory.wf (s.writeHomes u a bs).mem = true := by
  unfold State.writeHomes
  exact foldl_keeps (fun t : State => Memory.wf t.mem = true) _ (fun t c ht => t.wf_writeHome _ _ _ ht) _ _ h

@[simp] theorem State.wf_writeBack (l : Nat) (c : CLine) (h : Memory.wf s.mem = true) : Memory.wf (s.writeBack l c).mem = true :=
  s.wf_writeHomes _ _ _ h

@[simp] theorem State.wf_snoopRead (l line : Nat) (h : Memory.wf s.mem = true) : Memory.wf (s.snoopRead l line).mem = true := by
  unfold State.snoopRead
  split
  · exact s.wf_writeBack _ _ h
  · split
    · exact h
    · split
      · exact s.wf_writeBack _ _ h
      · exact h
      · exact h
      · exact h

@[simp] theorem State.wf_invalidateAt (l line : Nat) (h : Memory.wf s.mem = true) : Memory.wf (s.invalidateAt l line).mem = true := by
  unfold State.invalidateAt State.dropFrom
  simp only [State.modCore_eq, State.fields_setCore]
  split
  · exact s.wf_writeBack _ _ h
  · split
    · split
      · exact s.wf_writeBack _ _ h
      · exact h
    · exact h

@[simp] theorem State.wf_settle (line : Nat) (h : Memory.wf s.mem = true) : Memory.wf (s.settle line).mem = true := by
  unfold State.settle
  split
  · exact h
  · exact State.wf_writeHomes _ _ _ _ h

@[simp] theorem State.wf_recall (line : Nat) (w : Bool) (h : Memory.wf s.mem = true) : Memory.wf (s.recall line w).mem = true := by
  have h' := s.wf_settle line h
  unfold State.recall
  dsimp only
  split
  · rw [(State.fields_setHolders _ _ _).2.2.2.2.2.2.2.1]
    exact foldl_keeps (fun t : State => Memory.wf t.mem = true) _ (fun t l ht => t.wf_invalidateAt _ _ ht) _ _ h'
  · exact foldl_keeps (fun t : State => Memory.wf t.mem = true) _ (fun t l ht => t.wf_snoopRead _ _ ht) _ _ h'

@[simp] theorem State.wf_readLine (u : Unit) (a n : Nat) (st : Bool) (h : Memory.wf s.mem = true) :
    Memory.wf (s.readLine u a n st).2.mem = true := by
  unfold State.readLine
  simp only [State.mem_readHome]
  exact s.wf_recall _ _ h

@[simp] theorem State.wf_writeLine (u : Unit) (a : Nat) (bs : List Byte) (h : Memory.wf s.mem = true) :
    Memory.wf (s.writeLine u a bs).mem = true := State.wf_writeHome _ _ _ _ (s.wf_recall _ _ h)

@[simp] theorem State.wf_readMem (u : Unit) (a n : Nat) (st : Bool) (h : Memory.wf s.mem = true) :
    Memory.wf (s.readMem u a n st).2.mem = true := by
  unfold State.readMem
  refine foldl_keeps (fun r : List Byte × State => Memory.wf r.2.mem = true) _ (fun r p hr => ?_) _ ([], s) h
  exact r.2.wf_readLine _ _ _ _ hr

@[simp] theorem State.wf_writeMem (u : Unit) (a : Nat) (bs : List Byte) (h : Memory.wf s.mem = true) :
    Memory.wf (s.writeMem u a bs).mem = true := by
  unfold State.writeMem
  exact foldl_keeps (fun t : State => Memory.wf t.mem = true) _ (fun t c ht => t.wf_writeLine _ _ _ ht) _ _ h

@[simp] theorem State.wf_readPieces (u : Unit) (l : List (Nat × Nat)) (st : Bool) (h : Memory.wf s.mem = true) :
    Memory.wf (s.readPieces u l st).2.mem = true := by
  unfold State.readPieces
  refine foldl_keeps (fun r : List Byte × State => Memory.wf r.2.mem = true) _ (fun r p hr => ?_) _ ([], s) h
  exact r.2.wf_readMem _ _ _ _ hr

@[simp] theorem State.wf_writePieces (u : Unit) (l : List (Nat × Nat)) (bs : List Byte) (h : Memory.wf s.mem = true) :
    Memory.wf (s.writePieces u l bs).mem = true := by
  unfold State.writePieces
  exact foldl_keeps (fun r : List Byte × State => Memory.wf r.2.mem = true) _ (fun r p hr => r.2.wf_writeMem _ _ _ hr) _ (bs, s) h

@[simp] theorem State.mem_readLocal (u : Unit) (l off n : Nat) : (s.readLocal u l off n).2.mem = s.mem :=
  s.mem_countLocal _ _ _ _

@[simp] theorem State.wf_writeLocal (u : Unit) (l off : Nat) (bs : List Byte) (h : Memory.wf s.mem = true) :
    Memory.wf (s.writeLocal u l off bs).mem = true := by
  unfold State.writeLocal
  rw [State.mem_countLocal]
  exact s.wf_store _ _ h

/-- Local memory read back after it is written, with no count in the way. -/
theorem State.byte_writeLocal (u : Unit) (l off x : Nat) (bs : List Byte) :
    (s.writeLocal u l off bs).byte x =
      if localAddr l off ≤ x ∧ x < localAddr l off + bs.length then bs.getD (x - localAddr l off) 0 else s.byte x := by
  rw [← State.byte_store]
  unfold State.writeLocal
  rw [State.onlyCounts_countLocal]
  rfl

end Sys2Proof.Machine
end

