-- ==== Sys2Proof/Laws/Canonical.lean ====
section
/-!
SUPPORT. The canonical form of memory (log entry 5) through every operation that several families of commands share: what the
operation stores, it stores through the operations of Laws.Homes. Every theorem here is a simp lemma, so that a command's own
proof is to unfold it and to split its cases.
-/

namespace Sys2Proof.Machine

open Sys2Proof

/-! ### Folds -/

@[simp] theorem wf_foldl {α : Type} (f : State → α → State) (l : List α) (s : State)
    (hf : ∀ t a, Memory.wf t.mem = true → Memory.wf (f t a).mem = true) (h : Memory.wf s.mem = true) :
    Memory.wf (l.foldl f s).mem = true := foldl_keeps (fun t : State => Memory.wf t.mem = true) f hf l s h
@[simp] theorem wf_foldl_snd {α β : Type} (f : β × State → α → β × State) (l : List α) (r : β × State)
    (hf : ∀ t a, Memory.wf t.2.mem = true → Memory.wf (f t a).2.mem = true) (h : Memory.wf r.2.mem = true) :
    Memory.wf (l.foldl f r).2.mem = true := foldl_keeps (fun t : β × State => Memory.wf t.2.mem = true) f hf l r h
@[simp] theorem wf_foldl_fst {α β : Type} (f : State × β → α → State × β) (l : List α) (r : State × β)
    (hf : ∀ t a, Memory.wf t.1.mem = true → Memory.wf (f t a).1.mem = true) (h : Memory.wf r.1.mem = true) :
    Memory.wf (l.foldl f r).1.mem = true := foldl_keeps (fun t : State × β => Memory.wf t.1.mem = true) f hf l r h
theorem wf_ite {c : Prop} [Decidable c] {a b : State} (ha : Memory.wf a.mem = true) (hb : Memory.wf b.mem = true) :
    Memory.wf (if c then a else b).mem = true := by split <;> assumption
@[simp] theorem State.wf_forAll {α : Type} (s : State) (l : List α) (f : State → α → State)
    (hf : ∀ t a, Memory.wf t.mem = true → Memory.wf (f t a).mem = true) (h : Memory.wf s.mem = true) :
    Memory.wf (s.forAll l f).mem = true := wf_foldl f l s hf h
@[simp] theorem State.mem_bumpField (s : State) (n : RegName) (i j hi lo d : Nat) : (s.bumpField n i j hi lo d).mem = s.mem := rfl
@[simp] theorem State.wf_eachCore (s : State) (f : Nat → Core → Core) (h : Memory.wf s.mem = true) :
    Memory.wf (s.eachCore f).mem = true := by
  rw [State.eachCore_frame]; exact h

/-! ### Memory -/

@[simp] theorem State.wf_dropFrom (s : State) (l line : Nat) (h : Memory.wf s.mem = true) :
    Memory.wf (s.dropFrom l line).mem = true := by
  unfold State.dropFrom; simp [h]

/-! ### Flits -/

@[simp] theorem State.wf_sendFlit (s : State) (p : Nat) (f : Flit) (h : Memory.wf s.mem = true) :
    Memory.wf (s.sendFlit p f).mem = true := by
  unfold State.sendFlit; simp [h]
@[simp] theorem State.wf_pumpPort (p : Nat) :
    ∀ (n : Nat) (s : State), Memory.wf s.mem = true → Memory.wf (State.pumpPort p n s).mem = true := by
  intro n
  induction n with
  | zero => intro s h; exact h
  | succ n ih =>
    intro s h
    unfold State.pumpPort
    dsimp only
    split
    · exact h
    · split
      · exact h
      · exact ih _ (State.wf_sendFlit _ _ _ h)
@[simp] theorem State.wf_pump (s : State) (p : Nat) (h : Memory.wf s.mem = true) : Memory.wf (s.pump p).mem = true :=
  State.wf_pumpPort p _ s h
@[simp] theorem State.wf_sendPacket (s : State) (p : Nat) (pk : Packet) (h : Memory.wf s.mem = true) :
    Memory.wf (s.sendPacket p pk).mem = true := by
  unfold State.sendPacket; simp [h]
@[simp] theorem State.wf_freeFlits (s : State) (p v n : Nat) (h : Memory.wf s.mem = true) :
    Memory.wf (s.freeFlits p v n).mem = true := by
  unfold State.freeFlits; simp [h]
@[simp] theorem State.wf_resendFlits (s : State) (p : Nat) (h : Memory.wf s.mem = true) :
    Memory.wf (s.resendFlits p).mem = true := by
  unfold State.resendFlits; simp +contextual [h]

/-! ### Fabric -/

@[simp] theorem State.wf_inject (s : State) (dst op tag addr len seq : Nat) (data : List Byte)
    (h : Memory.wf s.mem = true) :
    Memory.wf (s.inject dst op tag addr len seq data).2.mem = true := by
  unfold State.inject; (repeat' split) <;> simp [h]
@[simp] theorem State.wf_takeTag (s : State) (h : Memory.wf s.mem = true) :
    Memory.wf (s.takeTag).mem = true := by
  unfold State.takeTag; simp [h]
@[simp] theorem State.wf_request (s : State) (u : Unit) (grp : Option Nat) (dst op addr len : Nat)
    (data : List Byte) (h : Memory.wf s.mem = true) :
    Memory.wf (s.request u grp dst op addr len data).2.mem = true := by
  unfold State.request
  dsimp only
  refine State.wf_inject _ _ _ _ _ _ _ _ ?_
  split <;> simp [h]
@[simp] theorem State.wf_ask (s : State) (key dst op tag addr len seq : Nat) (data : List Byte)
    (h : Memory.wf s.mem = true) :
    Memory.wf (s.ask key dst op tag addr len seq data).mem = true := by
  unfold State.ask; simp [h]
@[simp] theorem State.wf_dropRemote (s : State) (tag : Nat) (h : Memory.wf s.mem = true) :
    Memory.wf (s.dropRemote tag).mem = true := by
  unfold State.dropRemote; simp [h]
@[simp] theorem State.wf_remoteRead (s : State) (u : Unit) (grp : Option Nat) (dst addr len : Nat)
    (h : Memory.wf s.mem = true) :
    Memory.wf (s.remoteRead u grp dst addr len).2.mem = true := by
  unfold State.remoteRead
  dsimp only
  (repeat' split) <;> simp +contextual [h]

/-! ### Signals -/

@[simp] theorem State.wf_fireTrigger (s : State) (fn vec : Nat) (h : Memory.wf s.mem = true) :
    Memory.wf (s.fireTrigger fn vec).mem = true := by
  unfold State.fireTrigger; simp [h]
@[simp] theorem State.wf_testTriggerAt (s : State) (fn vec : Nat) (v : W64) (h : Memory.wf s.mem = true) :
    Memory.wf (s.testTriggerAt fn vec v).mem = true := by
  unfold State.testTriggerAt
  dsimp only
  split
  · exact State.wf_fireTrigger _ _ _ h
  · exact h
@[simp] theorem State.wf_testTriggers (s : State) (k : Nat) (v : W64) (h : Memory.wf s.mem = true) :
    Memory.wf (s.testTriggers k v).mem = true := by
  unfold State.testTriggers; simp +contextual [h]
@[simp] theorem State.wf_meetAll (s : State) (k : Nat) (v : W64) (h : Memory.wf s.mem = true) :
    Memory.wf (s.meetAll k v).mem = true := by
  unfold State.meetAll; simp [h]
@[simp] theorem State.wf_bumpCounter (s : State) (k : Nat) (kind : SigKind) (x : W64) (src : W32)
    (h : Memory.wf s.mem = true) :
    Memory.wf (s.bumpCounter k kind x src).mem = true := by
  unfold State.bumpCounter; simp [h]
@[simp] theorem State.wf_signalRefused (s : State) (h' from? why : Nat) (h : Memory.wf s.mem = true) :
    Memory.wf (s.signalRefused h' from? why).mem = true := by
  unfold State.signalRefused; simp [h]
@[simp] theorem State.wf_signalNow (s : State) (src : W32) (k : Nat) (kind : SigKind) (x : W64)
    (h : Memory.wf s.mem = true) :
    Memory.wf (s.signalNow src k kind x).mem = true := by
  unfold State.signalNow
  split
  · simp [h]
  · split
    · split <;> simp [h]
    · simp [h]
@[simp] theorem State.wf_ackStream (s : State) (stream seq : W32) (h : Memory.wf s.mem = true) :
    Memory.wf (s.ackStream stream seq).mem = true := by
  unfold State.ackStream; (repeat' split) <;> simp [h]
@[simp] theorem State.wf_deliver (s : State) (m : SigMsg) (from? : Option Nat) (h : Memory.wf s.mem = true) :
    Memory.wf (s.deliver m from?).mem = true := by
  unfold State.deliver; (repeat' split) <;> simp [h]
@[simp] theorem State.wf_discardRecords (s : State) (m : Option Nat) (stream seq : W32) (h : Memory.wf s.mem = true) :
    Memory.wf (s.discardRecords m stream seq).mem = true := h
@[simp] theorem State.wf_release (s : State) (stream seq : W32) (h : Memory.wf s.mem = true) :
    Memory.wf (s.release stream seq).mem = true := by
  unfold State.release
  dsimp only
  exact wf_foldl _ _ _ (fun t m ht => by simp [ht]) (by simp [h])
@[simp] theorem State.wf_addWaiter (s : State) (w : Wait) (k : Nat) (h : Memory.wf s.mem = true) :
    Memory.wf (s.addWaiter w k).mem = true := by
  unfold State.addWaiter
  dsimp only
  (repeat' split) <;> simp +contextual [h]
@[simp] theorem State.wf_registerOut (s : State) (k owner : Nat) (h : Memory.wf s.mem = true) :
    Memory.wf (s.registerOut k owner).mem = true := by
  unfold State.registerOut
  split
  · exact h
  · simp [h]
@[simp] theorem State.wf_testTrigger (s : State) (fn vec : Nat) (h : Memory.wf s.mem = true) :
    Memory.wf (s.testTrigger fn vec).mem = true := by
  unfold State.testTrigger
  dsimp only
  split
  · simp [h]
  · split <;> simp [h]
@[simp] theorem State.wf_registerWait (s : State) (w : Wait) (k : Nat) (h : Memory.wf s.mem = true) :
    Memory.wf (s.registerWait w k).mem = true := by
  unfold State.registerWait
  split
  · simp [h]
  · split
    · simp [h]
    · split <;> exact h
@[simp] theorem State.wf_ownerChanged (s : State) (k : Nat) (h : Memory.wf s.mem = true) :
    Memory.wf (s.ownerChanged k).mem = true := by
  unfold State.ownerChanged
  dsimp only
  split <;> simp [h]
@[simp] theorem State.wf_dropWaiter (s : State) (w : Waiter) (h : Memory.wf s.mem = true) :
    Memory.wf (s.dropWaiter w).mem = true := by
  unfold State.dropWaiter; simp [h]
@[simp] theorem State.wf_arrive (s : State) (t : Nat) (a : Arrival) (p : W64) (h : Memory.wf s.mem = true) :
    Memory.wf (s.arrive t a p).mem = true := by
  unfold State.arrive
  dsimp only
  (repeat' split) <;> simp +contextual [h]

/-! ### Csr -/

@[simp] theorem State.wf_storeReg (s : State) (r : RegRef) (w : W32) (h : Memory.wf s.mem = true) :
    Memory.wf (s.storeReg r w).mem = true := by
  unfold State.storeReg; (repeat' split) <;> simp [h]
@[simp] theorem State.wf_plainWrite (s : State) (r : RegRef) (v : W32) (h : Memory.wf s.mem = true) :
    Memory.wf (s.plainWrite r v).mem = true := by
  unfold State.plainWrite; simp [h]
@[simp] theorem State.wf_setShadow (s : State) (a : Agent) (r : RegRef) (w : W32) (h : Memory.wf s.mem = true) :
    Memory.wf (s.setShadow a r w).mem = true := by
  unfold State.setShadow; simp [h]
@[simp] theorem State.wf_readReg (s : State) (a : Agent) (r : RegRef) (h : Memory.wf s.mem = true) :
    Memory.wf (s.readReg a r).2.mem = true := by
  unfold State.readReg; (repeat' split) <;> simp [h]

/-! ### CcBase -/

@[simp] theorem State.wf_stepHalt (s : State) (l : Nat) (h : Memory.wf s.mem = true) :
    Memory.wf (s.stepHalt l).mem = true := by
  unfold State.stepHalt; simp [h]
@[simp] theorem State.wf_ccTrap (s : State) (l cause : Nat) (tval : W64) (h : Memory.wf s.mem = true) :
    Memory.wf (s.ccTrap l cause tval).mem = true := by
  unfold State.ccTrap; simp [h]
@[simp] theorem State.wf_ccRetire (s : State) (l : Nat) (rd : Nat) (v : W64) (len : Nat) (h : Memory.wf s.mem = true) :
    Memory.wf (s.ccRetire l rd v len).mem = true := by
  unfold State.ccRetire; simp [h]
@[simp] theorem State.wf_cmdErr (s : State) (e : Nat) (h : Memory.wf s.mem = true) :
    Memory.wf (s.cmdErr e).mem = true := by
  unfold State.cmdErr; simp [h]
@[simp] theorem State.wf_cmdData (s : State) (v : W64) (h : Memory.wf s.mem = true) :
    Memory.wf (s.cmdData v).mem = true := by
  unfold State.cmdData; simp [h]
@[simp] theorem State.wf_setMip (s : State) (l bit : Nat) (b : Bool) (h : Memory.wf s.mem = true) :
    Memory.wf (s.setMip l bit b).mem = true := by
  unfold State.setMip; simp [h]
@[simp] theorem State.wf_placeLine (s : State) (l : Nat) (x : CLine) (h : Memory.wf s.mem = true) :
    Memory.wf (s.placeLine l x).mem = true := by
  unfold State.placeLine; simp [h]
@[simp] theorem State.wf_flushCache (s : State) (l : Nat) (h : Memory.wf s.mem = true) : Memory.wf (s.flushCache l).mem = true := by
  unfold State.flushCache
  exact wf_foldl _ _ _ (fun t c ht => t.wf_writeBack _ _ ht) h

/-! ### Grids -/

@[simp] theorem State.wf_setBlock (s : State) (c r : Nat) (b : Option Block) (h : Memory.wf s.mem = true) :
    Memory.wf (s.setBlock c r b).mem = true := by
  unfold State.setBlock; simp [h]
@[simp] theorem State.wf_modBlock (s : State) (c r : Nat) (f : Block → Block) (h : Memory.wf s.mem = true) :
    Memory.wf (s.modBlock c r f).mem = true := by
  unfold State.modBlock; (repeat' split) <;> simp [h]
@[simp] theorem State.wf_setGroup (s : State) (l g : Nat) (x : Option Group) (h : Memory.wf s.mem = true) :
    Memory.wf (s.setGroup l g x).mem = true := by
  unfold State.setGroup; simp [h]
@[simp] theorem State.wf_modGroup (s : State) (l g : Nat) (f : Group → Group) (h : Memory.wf s.mem = true) :
    Memory.wf (s.modGroup l g f).mem = true := by
  unfold State.modGroup; (repeat' split) <;> simp [h]
@[simp] theorem State.wf_setGrid (s : State) (l k : Nat) (x : Option Grid) (h : Memory.wf s.mem = true) :
    Memory.wf (s.setGrid l k x).mem = true := by
  unfold State.setGrid; simp [h]
@[simp] theorem State.wf_modGrid (s : State) (l k : Nat) (f : Grid → Grid) (h : Memory.wf s.mem = true) :
    Memory.wf (s.modGrid l k f).mem = true := by
  unfold State.modGrid; (repeat' split) <;> simp [h]
@[simp] theorem State.wf_ashOpen (s : State) (src : W32) (part lcore : Nat) (span : W32) (detail : Nat)
    (h : Memory.wf s.mem = true) :
    Memory.wf (s.ashOpen src part lcore span detail).mem = true := by
  unfold State.ashOpen; simp [h]
@[simp] theorem State.wf_recordVeFault (s : State) (l slot group lane code addr : Nat) (span : W32)
    (h : Memory.wf s.mem = true) :
    Memory.wf (s.recordVeFault l slot group lane code addr span).mem = true := by
  unfold State.recordVeFault
  dsimp only
  (repeat' split) <;> simp +contextual [h]
@[simp] theorem State.wf_freeBlock (s : State) (c r : Nat) (b : Block) (h : Memory.wf s.mem = true) :
    Memory.wf (s.freeBlock c r b).mem = true := by
  unfold State.freeBlock; simp [h]
@[simp] theorem State.wf_gridOver (s : State) (l k : Nat) (g : Grid) (h : Memory.wf s.mem = true) :
    Memory.wf (s.gridOver l k g).mem = true := by
  unfold State.gridOver; simp [h]
@[simp] theorem State.wf_reportEnded (s : State) (i : GridId) (h : Memory.wf s.mem = true) :
    Memory.wf (s.reportEnded i).mem = true := by
  unfold State.reportEnded
  dsimp only
  (repeat' split) <;> simp +contextual [h]
@[simp] theorem State.wf_returnSlot (s : State) (l k : Nat) (h : Memory.wf s.mem = true) :
    Memory.wf (s.returnSlot l k).mem = true := by
  unfold State.returnSlot; (repeat' split) <;> simp [h]
@[simp] theorem State.wf_partWrite (s : State) (u : Unit) (p a : Nat) (bs : List Byte) (h : Memory.wf s.mem = true) :
    Memory.wf (s.partWrite u p a bs).mem = true := by
  unfold State.partWrite; (repeat' split) <;> simp [h]
@[simp] theorem State.wf_scramble (s : State) (a n : Nat) (h : Memory.wf s.mem = true) :
    Memory.wf (s.scramble a n).mem = true := by
  unfold State.scramble; simp +contextual [h]
@[simp] theorem State.wf_l1Place (s : State) (l : Nat) (x : L1Line) (h : Memory.wf s.mem = true) :
    Memory.wf (s.l1Place l x).mem = true := by
  unfold State.l1Place
  dsimp only
  (repeat' split) <;> simp +contextual [h]
@[simp] theorem State.wf_wakeMiss (s : State) (l line key : Nat) (bs : List Byte) (h : Memory.wf s.mem = true) :
    Memory.wf (s.wakeMiss l line key bs).mem = true := by
  unfold State.wakeMiss; simp +contextual [h]

/-! ### Flags -/

@[simp] theorem State.wf_setVeFlags (s : State) (l f : Nat) (h : Memory.wf s.mem = true) :
    Memory.wf (s.setVeFlags l f).mem = true := by
  unfold State.setVeFlags; (repeat' split) <;> simp [h]
@[simp] theorem State.wf_setMuFlags (s : State) (l f : Nat) (h : Memory.wf s.mem = true) :
    Memory.wf (s.setMuFlags l f).mem = true := by
  unfold State.setMuFlags; (repeat' split) <;> simp [h]

/-! ### Threads -/

@[simp] theorem State.wf_finish (s : State) (l : Nat) (gi : Nat) (w : TWord) (g : Group) (h : Memory.wf s.mem = true) :
    Memory.wf (s.finish l gi w g).mem = true := by
  unfold State.finish; simp [h]
@[simp] theorem State.wf_compute (s : State) (l gi : Nat) (w : TWord) (g : Group) (wide : Bool)
    (f : Nat → W64) (h : Memory.wf s.mem = true) :
    Memory.wf (s.compute l gi w g wide f).mem = true := by
  unfold State.compute; simp [h]
@[simp] theorem State.wf_computeF (s : State) (l gi : Nat) (w : TWord) (g : Group) (f : Nat → Nat × Nat)
    (h : Memory.wf s.mem = true) :
    Memory.wf (s.computeF l gi w g f).mem = true := by
  unfold State.computeF; simp [h]
@[simp] theorem State.wf_groupFault (s : State) (l gi : Nat) (g : Group) (b : Block) (code lane addr : Nat)
    (h : Memory.wf s.mem = true) :
    Memory.wf (s.groupFault l gi g b code lane addr).mem = true := by
  unfold State.groupFault; simp [h]

/-! ### MemOps -/

@[simp] theorem State.wf_unprotect (s : State) (stream : W32) (h : Memory.wf s.mem = true) :
    Memory.wf (s.unprotect stream).mem = true := by
  unfold State.unprotect
  dsimp only
  (repeat' split) <;> simp +contextual [h]
@[simp] theorem State.wf_recordOp (s : State) (home : Nat) (op : MemOp) (old : W64) (h : Memory.wf s.mem = true) :
    Memory.wf (s.recordOp home op old).mem = true := by
  unfold State.recordOp
  dsimp only
  (repeat' split) <;> simp +contextual [h]
@[simp] theorem State.wf_countOp (s : State) (u : Unit) (a n : Nat) (atHearth : Bool) (h : Memory.wf s.mem = true) :
    Memory.wf (s.countOp u a n atHearth).mem = true := by
  unfold State.countOp
  split
  · exact h
  · dsimp only
    repeat' split
    all_goals simp [h]
@[simp] theorem State.wf_performOp (s : State) (u : Unit) (op : MemOp) (h : Memory.wf s.mem = true) :
    Memory.wf (s.performOp u op).2.mem = true := by
  have h' : ∀ p w al n hit, Memory.wf (((s.recall (op.addr / 256) true).hearthTouch p op.addr w al).2.countOp u op.addr n hit).mem
      = true := fun p w al n hit =>
    State.wf_countOp _ _ _ _ _ (by rw [State.mem_hearthTouch]; exact s.wf_recall _ _ h)
  unfold State.performOp
  dsimp only
  split
  · exact State.wf_put _ _ _ _ (h' _ _ _ _ _)
  · exact h' _ _ _ _ _
@[simp] theorem State.wf_memSide (s : State) (u : Unit) (op : MemOp) (h : Memory.wf s.mem = true) :
    Memory.wf (s.memSide u op).2.mem = true := by
  unfold State.memSide; (repeat' split) <;> simp [h]

/-! ### StreamQueues -/

@[simp] theorem State.wf_setSq (s : State) (l q : Nat) (x : StreamQ) (h : Memory.wf s.mem = true) :
    Memory.wf (s.setSq l q x).mem = true := by
  unfold State.setSq; simp [h]
@[simp] theorem State.wf_setReplayCounts (s : State) (l : Nat) (w : Pusher) (c : List Nat) (h : Memory.wf s.mem = true) :
    Memory.wf (s.setReplayCounts l w c).mem = true := by
  unfold State.setReplayCounts; (repeat' split) <;> simp [h]
@[simp] theorem State.wf_countPush (s : State) (l q : Nat) (w : Pusher) (h : Memory.wf s.mem = true) :
    Memory.wf (s.countPush l q w).mem = true := by
  unfold State.countPush
  dsimp only
  (repeat' split) <;> simp +contextual [h]
@[simp] theorem State.wf_dropPush (s : State) (src : W32) (l q : Nat) (h : Memory.wf s.mem = true) :
    Memory.wf (s.dropPush src l q).mem = true := by
  unfold State.dropPush; simp [h]
@[simp] theorem State.wf_overrun (s : State) (l q : Nat) (h : Memory.wf s.mem = true) :
    Memory.wf (s.overrun l q).mem = true := by
  unfold State.overrun; simp [h]
@[simp] theorem State.wf_releasePacket (s : State) (k l q : Nat) (hdr : W64) (h : Memory.wf s.mem = true) :
    Memory.wf (s.releasePacket k l q hdr).mem = true := by
  unfold State.releasePacket
  dsimp only
  (repeat' split) <;> simp +contextual [h]
@[simp] theorem State.wf_sqCfgWrite (s : State) (k q : Nat) (v : W32) (h : Memory.wf s.mem = true) :
    Memory.wf (s.sqCfgWrite k q v).mem = true := by
  unfold State.sqCfgWrite
  dsimp only
  (repeat' split) <;> simp +contextual [h]
@[simp] theorem State.wf_sqRingWrite (s : State) (k q : Nat) (v : W32) (h : Memory.wf s.mem = true) :
    Memory.wf (s.sqRingWrite k q v).mem = true := by
  unfold State.sqRingWrite; (repeat' split) <;> simp [h]

/-! ### Access -/

@[simp] theorem State.wf_readTarget (s : State) (u : Unit) (t n : Nat) (h : Memory.wf s.mem = true) :
    Memory.wf (s.readTarget u t n).2.mem = true := by
  unfold State.readTarget; (repeat' split) <;> simp [h]
@[simp] theorem State.wf_writeWindow (s : State) (u : Unit) (k off : Nat) (bs : List Byte) (h : Memory.wf s.mem = true) :
    Memory.wf (s.writeWindow u k off bs).mem = true := by
  unfold State.writeWindow
  dsimp only
  split
  · exact s.wf_writeLocal _ _ _ _ h
  · rw [State.mem_countLocal]
    refine wf_foldl _ _ _ (fun t x ht => ?_) (wf_foldl _ _ _ (fun t p ht => ?_) h)
    · split
      · split
        · exact t.wf_store _ _ ht
        · exact ht
      · exact t.wf_store _ _ ht
    · (repeat' split) <;> first | exact t.wf_releasePacket _ _ _ _ ht | exact t.wf_dropPush _ _ _ ht
@[simp] theorem State.wf_writeTarget (s : State) (u : Unit) (t : Nat) (bs : List Byte) (h : Memory.wf s.mem = true) :
    Memory.wf (s.writeTarget u t bs).mem = true := by
  unfold State.writeTarget; (repeat' split) <;> simp [h]
@[simp] theorem State.wf_readTargets (s : State) (u : Unit) (l : List (Nat × Nat)) (h : Memory.wf s.mem = true) :
    Memory.wf (s.readTargets u l).2.mem = true := by
  unfold State.readTargets; simp +contextual [h]
@[simp] theorem State.wf_writeTargets (s : State) (u : Unit) (l : List (Nat × Nat)) (bs : List Byte)
    (h : Memory.wf s.mem = true) :
    Memory.wf (s.writeTargets u l bs).mem = true := by
  unfold State.writeTargets; simp +contextual [h]

/-! ### Observe -/

@[simp] theorem State.wf_writeExport (s : State) (a : Nat) (bs : List Byte) (h : Memory.wf s.mem = true) :
    Memory.wf (s.writeExport a bs).mem = true := by
  unfold State.writeExport
  dsimp only
  (repeat' split) <;> simp +contextual [h]

end Sys2Proof.Machine
end

