-- ==== Sys2Proof/Laws/ControlCore.lean ====
section
/-!
SUPPORT. What a control core's own operations can change, said once: retiring an instruction (R59), taking a trap (R60), and the
frames of both.
-/

namespace Sys2Proof.Machine

open Sys2Proof

variable (s : State)

/-! ### Frames -/

theorem OnlyCore.refl (l : Nat) : OnlyCore s s l := ⟨rfl, fun _ _ => rfl, SameBytes.refl s⟩

theorem onlyCore_setCore (l : Nat) (c : Core) : OnlyCore s (s.setCore l c) l :=
  ⟨rfl, fun _ h => s.core_setCore_other c h, fun _ => rfl⟩

theorem OnlyCore.trans {a b c : State} {l : Nat} (h : OnlyCore a b l) (k : OnlyCore b c l) : OnlyCore a c l := by
  refine ⟨?_, fun j hj => (k.2.1 j hj).trans (h.2.1 j hj), h.2.2.trans k.2.2⟩
  rw [k.1, h.1]

theorem OnlyCC.refl (l : Nat) : OnlyCC s s l := ⟨OnlyCore.refl s l, rfl⟩

theorem onlyCC_modCC (l : Nat) (f : CC → CC) : OnlyCC s (s.modCC l f) l :=
  ⟨onlyCore_setCore s l _, by simp [State.cc]⟩

theorem OnlyCC.trans {a b c : State} {l : Nat} (h : OnlyCC a b l) (k : OnlyCC b c l) : OnlyCC a c l := by
  refine ⟨h.1.trans k.1, ?_⟩
  rw [k.2, h.2]

@[simp] theorem State.cc_modCC_same (l : Nat) (f : CC → CC) : (s.modCC l f).cc l = f (s.cc l) := by simp [State.cc]

theorem OnlyCC.sameRegs {s t : State} {l : Nat} (h : OnlyCC s t l) : SameRegs s t := fun n i j => by rw [h.1.1]; rfl

theorem State.onlyCC_stepHalt (l : Nat) : OnlyCC s (s.stepHalt l) l := onlyCC_modCC s l _
theorem State.onlyCC_ccRetire (l rd : Nat) (v : W64) (len : Nat) : OnlyCC s (s.ccRetire l rd v len) l :=
  (onlyCC_modCC s l _).trans (State.onlyCC_stepHalt _ l)
theorem State.onlyCC_ccTrap (l cause : Nat) (tval : W64) : OnlyCC s (s.ccTrap l cause tval) l :=
  (onlyCC_modCC s l _).trans (State.onlyCC_stepHalt _ l)

/-! ### The halt after a single step (R384) -/

/-- What a control core is after the halt that single-stepping asks for. -/
def CC.stepped (c : CC) (t : W64) : CC := if (c.csr csrDcsr).getLsbD 2 then c.inDebug 4 t else c

theorem State.cc_stepHalt (l : Nat) : (s.stepHalt l).cc l = (s.cc l).stepped (s.gtb (l / 192)) := s.cc_modCC_same _ _

theorem CC.xr_stepped (c : CC) (t : W64) (r : Nat) : (c.stepped t).xr r = c.xr r := by unfold CC.stepped; split <;> rfl
theorem CC.csr_stepped (c : CC) (t : W64) {n : Nat} (h : n ≠ csrDcsr) : (c.stepped t).csr n = c.csr n := by
  unfold CC.stepped
  split
  · exact CC.csr_setCsr_other c _ h
  · rfl
theorem CC.halted_stepped (c : CC) (t : W64) : (c.stepped t).halted = (c.halted || (c.csr csrDcsr).getLsbD 2) := by
  unfold CC.stepped
  split
  · next h => rw [h, Bool.or_true]; rfl
  · next h =>
    have h' : (c.csr csrDcsr).getLsbD 2 = false := by simpa using h
    rw [h', Bool.or_false]
theorem CC.stepped_frame (c : CC) (t : W64) :
    c.stepped t = { c with csrs := (c.stepped t).csrs, halted := (c.stepped t).halted, haltAt := (c.stepped t).haltAt } := by
  unfold CC.stepped; split <;> rfl

/-! ### Retiring -/

theorem CC.countInstr_frame (c : CC) : c.countInstr = { c with csrs := c.countInstr.csrs } := by
  unfold CC.countInstr; split <;> rfl
theorem CC.csr_countInstr (c : CC) {n : Nat} (h : n ≠ 0xB02) : c.countInstr.csr n = c.csr n := by
  unfold CC.countInstr
  split
  · rfl
  · exact CC.csr_setCsr_other c _ h
theorem CC.setX_frame (c : CC) (r : Nat) (v : W64) : c.setX r v = { c with x := (c.setX r v).x } := by
  unfold CC.setX; split <;> rfl

theorem CC.xr_retire (c : CC) (rd r : Nat) (v : W64) (len : Nat) :
    (c.retire rd v len).xr r = if r = 0 then 0 else if r = rd then v else c.xr r := by
  have : (c.retire rd v len).xr r = (c.countInstr.setX rd v).xr r := rfl
  rw [this, CC.xr_setX]
  have : c.countInstr.xr r = c.xr r := by rw [CC.countInstr_frame]; rfl
  rw [this]
theorem CC.csr_retire (c : CC) (rd n : Nat) (v : W64) (len : Nat) : (c.retire rd v len).csr n = c.countInstr.csr n :=
  CC.csr_setX _ _ _ _
theorem CC.retire_frame (c : CC) (rd : Nat) (v : W64) (len : Nat) :
    c.retire rd v len = { c with x := (c.retire rd v len).x, pc := c.pc + BitVec.ofNat 64 len,
                                 csrs := (c.retire rd v len).csrs, stall := none } := by
  unfold CC.retire
  rw [CC.setX_frame, CC.countInstr_frame]

/-- The whole effect of retiring an instruction. -/
theorem State.ccRetired_ccRetire (l : Nat) (rd : XReg) (v : W64) (len : Nat) :
    CcRetired (s.cc l) ((s.ccRetire l rd v len).cc l) rd v ((s.cc l).pc + BitVec.ofNat 64 len) := by
  unfold State.ccRetire
  rw [State.cc_stepHalt, State.cc_modCC_same]
  have hd : csrDcsr ≠ 0xB02 := by decide
  generalize s.cc l = c
  generalize (s.modCC l fun c => c.retire rd v len).gtb (l / 192) = t
  refine ⟨?_, ?_, fun r => ?_, fun n h1 h2 => ?_, ?_, ?_, fun h => ?_, ?_⟩
  · rw [CC.stepped_frame]; rfl
  · rw [CC.stepped_frame]; rfl
  · rw [CC.xr_stepped, CC.xr_retire]
    by_cases h : r = rd
    · simp [h]
    · have : r.val ≠ rd.val := fun e => h (Fin.ext e)
      simp [h, this]
  · rw [CC.csr_stepped _ _ h2, CC.csr_retire, CC.csr_countInstr _ h1]
  · rw [CC.csr_stepped _ _ hd.symm, CC.csr_retire]
    unfold CC.countInstr
    split
    · rfl
    · exact CC.csr_setCsr_same _ _ _
  · rw [CC.halted_stepped, CC.csr_retire, CC.csr_countInstr _ hd, CC.retire_frame]
  · have e : (c.retire rd v len).csr csrDcsr = c.csr csrDcsr := by rw [CC.csr_retire, CC.csr_countInstr _ hd]
    unfold CC.stepped
    rw [e, h, if_neg (by simp), e]
  · rw [CC.stepped_frame, CC.retire_frame]

/-! ### Taking a trap -/

theorem getLsbD_putBit (w : W64) (i j : Nat) (b : Bool) (hi : i < 64) (hj : j < 64) :
    (putBit w i b).getLsbD j = if j = i then b else w.getLsbD j := by
  unfold putBit
  split
  · next h =>
    subst h
    by_cases e : j = i
    · subst e; simp [hj]
    · have e' : i ≠ j := fun x => e x.symm
      simp [e, e']
  · next h =>
    have hb : b = false := by simpa using h
    subst hb
    by_cases e : j = i
    · subst e; simp [hj]
    · simp [e, hj]

/-- The CSRs after a trap. -/
theorem CC.csr_trap (c : CC) (i : Bool) (cause n : Nat) (tval : W64) :
    (c.trap i cause tval).csr n =
      if n = csrMstatus then
        putBit (putBit (putBit (putBit (c.csr csrMstatus) 7 ((c.csr csrMstatus).getLsbD 3)) 3 false) 11 true) 12 true
      else if n = csrMtval then tval
      else if n = csrMcause then putBit (BitVec.ofNat 64 cause) 63 i
      else if n = csrMepc then c.pc
      else c.csr n := by
  have set (c : CC) (m : Nat) (v : W64) : (c.setCsr m v).csr n = if n = m then v else c.csr n := by
    split
    · next h => subst h; exact CC.csr_setCsr_same _ _ _
    · next h => exact CC.csr_setCsr_other _ _ h
  show ((((c.setCsr _ _).setCsr _ _).setCsr _ _).setCsr _ _).csr n = _
  rw [set, set, set, set]

theorem CC.trap_frame (c : CC) (i : Bool) (cause : Nat) (tval : W64) :
    c.trap i cause tval = { c with pc := (c.trap i cause tval).pc, csrs := (c.trap i cause tval).csrs, stall := none } := rfl

theorem CC.pc_trap (c : CC) (i : Bool) (cause : Nat) (tval : W64) :
    (c.trap i cause tval).pc = (c.csr csrMtvec &&& ~~~(3 : W64)) +
      (if i && (c.csr csrMtvec).getLsbD 0 then BitVec.ofNat 64 (4 * cause) else 0) := by
  show (if _ then _ else _) = _
  split <;> simp

theorem CC.trapped_stepped (c : CC) (i : Bool) (cause : Nat) (tval t : W64) :
    CcTrapped c ((c.trap i cause tval).stepped t) i cause tval := by
  have h1 : csrMepc ≠ csrDcsr := by decide
  have h2 : csrMcause ≠ csrDcsr := by decide
  have h3 : csrMtval ≠ csrDcsr := by decide
  have h4 : csrMstatus ≠ csrDcsr := by decide
  refine ⟨?_, ?_, ?_, ?_, ?_, ?_, ?_, ?_, ?_, fun r => ?_, ?_⟩
  · rw [CC.csr_stepped _ _ h1, CC.csr_trap]; rfl
  · rw [CC.csr_stepped _ _ h2, CC.csr_trap]; rfl
  · rw [CC.csr_stepped _ _ h3, CC.csr_trap]; rfl
  all_goals first
    | (rw [CC.csr_stepped _ _ h4, CC.csr_trap, if_pos rfl]; simp (disch := decide) only [getLsbD_putBit]; simp)
    | (rw [CC.stepped_frame]; exact CC.pc_trap c i cause tval)
    | (rw [CC.stepped_frame]; rfl)

/-- The whole effect of taking an exception. -/
theorem State.ccTrapped_ccTrap (l cause : Nat) (tval : W64) :
    CcTrapped (s.cc l) ((s.ccTrap l cause tval).cc l) false cause tval := by
  unfold State.ccTrap
  rw [State.cc_stepHalt, State.cc_modCC_same]
  exact CC.trapped_stepped _ _ _ _ _

end Sys2Proof.Machine
end

