-- ==== Sys2Proof/Laws/Domains.lean ====
section
/-!
SUPPORT. What stalls at a power domain that is not ON (R366): units of a region without clocks, homes, and the accesses of the
host that wait.
-/

namespace Sys2Proof.Machine

open Sys2Proof

variable (s : State)

theorem State.fenced_of_unplaced (l : Nat) (h : s.unplaced l = true) : s.fenced l = true := by
  unfold State.fenced; rw [h]; rfl

theorem State.fenced_of_asleep (l : Nat) (h : s.regionRuns (l / 48) = false) : s.fenced l = true := by
  unfold State.fenced; rw [h]; simp

theorem State.fenced_eq_false (l : Nat) : s.fenced l = false ↔ s.unplaced l = false ∧ s.regionRuns (l / 48) = true := by
  unfold State.fenced; simp

/-- A core in a region without clocks issues nothing. -/
theorem State.ccRuns_asleep (l : Nat) (h : s.regionRuns (l / 48) = false) : s.ccRuns l = false := by
  unfold State.ccRuns; rw [s.fenced_of_asleep l h]; simp

/-- A range of no bytes needs no domain. -/
theorem State.homesAsleep_zero (a : Nat) : s.homesAsleep a 0 = false := rfl

/-- A range whose domains are ON reaches no home that is asleep. -/
theorem State.homesAsleep_line (a n k : Nat) (h : s.homesAsleep a n = false) (hn : n ≠ 0) (hk : a / 128 ≤ k)
    (hk' : k ≤ (a + n - 1) / 128) : s.homeAsleep (k * 128) = false := by
  unfold State.homesAsleep at h
  rw [decide_eq_true hn, Bool.true_and, List.any_eq_false] at h
  refine Bool.eq_false_iff.2 (h k ?_)
  unfold span
  rw [List.mem_map]
  exact ⟨k - a / 128, List.mem_range.2 (by omega), by omega⟩

/-- With no access of the host waiting, nothing completes. -/
theorem State.hostDrain_none (h : s.hostLink.held = []) : s.hostDrain = s := by
  unfold State.hostDrain State.hostTurn
  rw [h]
  simp only [List.foldl_nil]
  rw [← h]

theorem State.pwrPostOn_none (d ev : Nat) (h : (s.pwrPost d ev).hostLink.held = []) : s.pwrPostOn d ev = s.pwrPost d ev := by
  unfold State.pwrPostOn; exact State.hostDrain_none _ h

end Sys2Proof.Machine
end

