-- ==== Sys2Proof/Laws/Errors.lean ====
section
/-!
SUPPORT. What an error that is corrected or contained can change (R14, R226, R330, R345): the counts of its row and the log; no
byte of memory and no unit.
-/

namespace Sys2Proof.Machine

open Sys2Proof

variable (s : State)

/-- The states differ in the errors noted, the registers that count them, the log and what has gone to the host at most. -/
def OnlyErrors (s t : State) : Prop :=
  t = { s with corrected := t.corrected, erred := t.erred, spared := t.spared, regs := t.regs, sto := t.sto, msixPend := t.msixPend,
               hostLink := t.hostLink, out := t.out }

theorem OnlyErrors.trans {a b c : State} (h : OnlyErrors a b) (k : OnlyErrors b c) : OnlyErrors a c := by
  unfold OnlyErrors at *; rw [k, h]
theorem OnlyErrors.sameBytes {a b : State} (h : OnlyErrors a b) : SameBytes a b := sameBytes_of_eq (by rw [h]) (by rw [h])

theorem State.onlyErrors_spareRow (u : CeUnit) : OnlyErrors s (s.spareRow u) := by
  unfold OnlyErrors State.spareRow
  rw [State.ashNow_frame]
  simp only
  split <;> rfl

theorem State.onlyErrors_errorIn (u : CeUnit) : OnlyErrors s (s.errorIn u) := by
  unfold State.errorIn
  split
  · rfl
  · split
    · exact s.onlyErrors_spareRow u
    · rfl

theorem State.onlyErrors_correctError (u : CeUnit) : OnlyErrors s (s.correctError u) := by
  unfold State.correctError
  refine OnlyErrors.trans ?_ (State.onlyErrors_errorIn _ u)
  split <;> rfl

/-- A row is spared once its errors recur: the second error met in it does so (log entry 67). -/
theorem State.errorIn_second (u : CeUnit) (h : u.hasRows = true) (k : s.erred.contains u = true) : s.errorIn u = s.spareRow u := by
  unfold State.errorIn; rw [h, k]; rfl

end Sys2Proof.Machine
end

