-- ==== Sys2Proof/Laws/Groups.lean ====
section
/-!
SUPPORT. What the shared operations of thread instructions can change, said once: the destination in the acting lanes (R130 to
R133), the predicates, and a group's place in its core.
-/

namespace Sys2Proof.Machine

open Sys2Proof

variable (s : State)

/-! ### Frames -/

theorem onlyGroup_setGroup (l gi : Nat) (x : Option Group) : OnlyGroup s (s.setGroup l gi x) l gi := by
  refine ⟨⟨rfl, fun k h => ?_, fun _ => rfl⟩, ?_, fun k h => s.group_setGroup_other l x h⟩
  · exact s.core_setCore_other _ h
  · show (s.setCore l _).core l = _
    rw [State.core_setCore_same]
    simp [State.setGroup]

theorem State.finish_group (l gi : Nat) (w : TWord) (g : Group) : (s.finish l gi w g).group l gi = some (g.advance w) :=
  s.group_setGroup_same _ _ _
theorem State.onlyGroup_finish (l gi : Nat) (w : TWord) (g : Group) : OnlyGroup s (s.finish l gi w g) l gi :=
  onlyGroup_setGroup s _ _ _

/-- A word that runs reaches its instruction's effect, with its issue counted (R346). -/
theorem State.threadIssue_runs {op : Nat} {l : CoreId} {gi : GroupId} {w : TWord} {g : Group} {b : Block}
    (k : State → Group → Block → Res) (h : Runs s op l gi w g b) : s.threadIssue op l gi w k = k (s.countIssue l g) g b := by
  obtain ⟨hg, hb, hr, ha, hw⟩ := h
  unfold State.threadIssue
  rw [hg]; dsimp only; rw [hb]; dsimp only
  rw [hr, ha, hw]; rfl

/-- The count of an issue changes nothing else. -/
theorem State.countIssue_frame (l : Nat) (g : Group) :
    s.countIssue l g = { s with cores := (s.countIssue l g).cores } ∧ (∀ k, k ≠ l → (s.countIssue l g).core k = s.core k) ∧
    (s.countIssue l g).core l = { s.core l with nominal := ((s.countIssue l g).core l).nominal } := by
  unfold State.countIssue
  split
  · refine ⟨rfl, fun k h => ?_, ?_⟩
    · exact s.core_setCore_other _ h
    · unfold State.addNominal
      rw [State.modCore_eq, State.core_setCore_same]
  · exact ⟨rfl, fun _ _ => rfl, rfl⟩

/-- A frame of a group's instruction holds from before its issue is counted. -/
theorem OnlyGroup.ofIssue {s t : State} {l gi : Nat} {g : Group} (h : OnlyGroup (s.countIssue l g) t l gi) : OnlyGroup s t l gi := by
  obtain ⟨e1, e2, e3⟩ := s.countIssue_frame l g
  obtain ⟨⟨h1, h2, h3⟩, h4, h5⟩ := h
  have hve : ((s.countIssue l g).core l).ve = (s.core l).ve := by rw [e3]
  refine ⟨⟨?_, fun k hk => (h2 k hk).trans (e2 k hk), fun a => (h3 a).trans ?_⟩, ?_, fun k hk => (h5 k hk).trans ?_⟩
  · rw [h1, e1]
  · rw [e1]; rfl
  · rw [h4, e3]
  · unfold State.group; rw [hve]

/-! ### Lanes -/

theorem mem_lanesOf {m : W32} {k : Nat} : k ∈ lanesOf m ↔ k < 32 ∧ m.getLsbD k = true := by simp [lanesOf]
theorem acting_lt {w : TWord} {g : Group} {k : Nat} (h : k ∈ w.acting g) : k < 32 := by
  unfold TWord.acting at h
  exact (mem_lanesOf.1 (List.mem_filter.1 h).1).1

/-! ### Vector registers -/

theorem Group.vreg_putV (g : Group) (r lane r' lane' : Nat) (x : W32) (hr : r' < 255) (h : lane < 32) (h' : lane' < 32) :
    (g.putV r lane x).vreg r' lane' = if r' = r ∧ lane' = lane then x else g.vreg r' lane' := by
  have h255 : ¬ r' = 255 := by omega
  unfold Group.putV Group.vreg
  simp only [h255, if_false]
  by_cases e : r = 255
  · rw [if_pos e, if_neg (by omega)]
  · rw [if_neg e]
    by_cases k : r' = r ∧ lane' = lane
    · obtain ⟨rfl, rfl⟩ := k
      rw [if_pos ⟨rfl, rfl⟩]
      exact SMap.get_set_same _ _ _ _
    · rw [if_neg k]
      exact SMap.get_set_other _ _ _ (by omega)

theorem Group.putV_frame (g : Group) (r lane : Nat) (x : W32) : g.putV r lane x = { g with v := (g.putV r lane x).v } := by
  unfold Group.putV; split <;> rfl

theorem TWord.putD_frame (w : TWord) (wide : Bool) (lane : Nat) (x : W64) (g : Group) :
    w.putD wide lane x g = { g with v := (w.putD wide lane x g).v } := by
  unfold TWord.putD
  split
  · unfold Group.putVLong
    split
    · rfl
    · rw [Group.putV_frame, Group.putV_frame]
  · exact Group.putV_frame _ _ _ _

/-- One lane's destination: one register, or for 64 bits a pair. -/
theorem TWord.vreg_putD (w : TWord) (wide : Bool) (lane r k : Nat) (x : W64) (g : Group) (hr : r < 255) (h : lane < 32)
    (hk : k < 32) :
    (w.putD wide lane x g).vreg r k =
      if k = lane ∧ r = w.dst.toNat then x.setWidth 32
      else if wide = true ∧ k = lane ∧ w.dst.toNat ≠ 255 ∧ r = w.dst.toNat + 1 then x.extractLsb' 32 32
      else g.vreg r k := by
  unfold TWord.putD
  cases wide
  · simp only [Bool.false_eq_true, if_false, false_and]
    rw [Group.vreg_putV _ _ _ _ _ _ hr h hk]
    simp only [and_comm]
  · simp only [if_true, true_and]
    unfold Group.putVLong
    by_cases e : w.dst.toNat = 255
    · rw [if_pos e, if_neg (by omega), if_neg (by omega)]
    · rw [if_neg e, Group.vreg_putV _ _ _ _ _ _ hr h hk, Group.vreg_putV _ _ _ _ _ _ hr h hk]
      by_cases h1 : k = lane ∧ r = w.dst.toNat
      · rw [if_pos h1, if_neg (by omega), if_pos (by omega)]
      · rw [if_neg h1]
        by_cases h2 : k = lane ∧ w.dst.toNat ≠ 255 ∧ r = w.dst.toNat + 1
        · rw [if_pos h2, if_pos (by omega)]
        · rw [if_neg h2, if_neg (by omega), if_neg (by omega)]

theorem TWord.vreg_foldl_putD (w : TWord) (wide : Bool) (f : Nat → W64) (r k : Nat) (hr : r < 255) (hk : k < 32) :
    ∀ (lanes : List Nat) (g : Group), (∀ x ∈ lanes, x < 32) →
      (lanes.foldl (fun g' lane => w.putD wide lane (f lane) g') g).vreg r k =
        if k ∈ lanes ∧ r = w.dst.toNat then (f k).setWidth 32
        else if wide = true ∧ k ∈ lanes ∧ w.dst.toNat ≠ 255 ∧ r = w.dst.toNat + 1 then (f k).extractLsb' 32 32
        else g.vreg r k := by
  intro lanes
  induction lanes with
  | nil => intro g _; simp
  | cons a t ih =>
    intro g hl
    rw [List.foldl_cons, ih _ fun x hx => hl x (List.mem_cons_of_mem _ hx), TWord.vreg_putD _ _ _ _ _ _ _ hr (hl a (by simp)) hk]
    by_cases hm : k ∈ t
    · simp only [hm, true_and, List.mem_cons, or_true]
      by_cases h1 : r = w.dst.toNat
      · rw [if_pos h1, if_pos h1]
      · rw [if_neg h1, if_neg h1]
        by_cases h2 : wide = true ∧ w.dst.toNat ≠ 255 ∧ r = w.dst.toNat + 1
        · rw [if_pos h2, if_pos h2]
        · rw [if_neg h2, if_neg h2, if_neg (fun e => h1 e.2), if_neg (fun e => h2 ⟨e.1, e.2.2⟩)]
    · by_cases ha : k = a
      · subst ha; simp [hm]
      · simp [hm, ha]

theorem TWord.foldl_putD_frame (w : TWord) (wide : Bool) (f : Nat → W64) (lanes : List Nat) (g : Group) :
    lanes.foldl (fun g' lane => w.putD wide lane (f lane) g') g =
      { g with v := (lanes.foldl (fun g' lane => w.putD wide lane (f lane) g') g).v } :=
  foldl_keeps (fun h : Group => h = { g with v := h.v }) _ (fun b a e => by
    show w.putD wide a (f a) b = { g with v := (w.putD wide a (f a) b).v }
    rw [TWord.putD_frame, e]) _ _ rfl

/-! ### Destinations -/

theorem Group.ureg_putU (g : Group) (r k : Nat) (x : W64) (h : k < 255) :
    (g.putU r x).ureg k = if k = r then x else g.ureg k := by
  have h255 : ¬ k = 255 := by omega
  unfold Group.putU Group.ureg
  simp only [h255, if_false]
  by_cases e : r = 255
  · rw [if_pos e, if_neg (by omega)]
  · rw [if_neg e]
    by_cases k' : k = r
    · subst k'
      rw [if_pos rfl]
      exact SMap.get_set_same _ _ _ _
    · rw [if_neg k']
      exact SMap.get_set_other _ _ _ k'

/-- The destination of an instruction that gives each acting lane a value, and the group's advance after it. -/
theorem wrote_writeD (w : TWord) (g : Group) (wide : Bool) (f : Nat → W64) :
    Wrote w g ((w.writeD wide (w.acting g) f g).advance w) wide f := by
  unfold Wrote TWord.writeD Group.advance
  refine ⟨?_, fun hu => ?_, fun hu => ?_⟩
  · split
    · split
      · rfl
      · unfold Group.putU; split <;> rfl
    · rw [TWord.foldl_putD_frame]
  · rw [if_neg (by simp [hu])]
    refine ⟨by rw [TWord.foldl_putD_frame], fun r lane hr hl => ?_⟩
    exact TWord.vreg_foldl_putD w wide f r lane hr hl _ g fun x hx => acting_lt hx
  · rw [if_pos hu]
    refine ⟨?_, fun r hr => ?_⟩
    · split
      · rfl
      · unfold Group.putU; split <;> rfl
    · generalize w.acting g = lanes
      cases lanes with
      | nil => rfl
      | cons a t => exact Group.ureg_putU _ _ _ _ hr

/-- The whole effect of an instruction that computes a value for each acting lane. -/
theorem State.compute_wrote (l gi : Nat) (w : TWord) (g : Group) (wide : Bool) (f : Nat → W64) :
    ∃ h, (s.compute l gi w g wide f).group l gi = some h ∧ Wrote w g h wide f ∧ OnlyGroup s (s.compute l gi w g wide f) l gi :=
  ⟨_, s.finish_group _ _ _ _, wrote_writeD w g wide f, s.onlyGroup_finish _ _ _ _⟩

/-! ### Predicates -/

theorem getLsbD_laneMask (lanes : List Nat) (k : Nat) (hk : k < 32) : (laneMask lanes).getLsbD k = decide (k ∈ lanes) := by
  have gen : ∀ (lanes : List Nat) (m : W32),
      (lanes.foldl (fun m k => m ||| BitVec.twoPow 32 k) m).getLsbD k = (m.getLsbD k || decide (k ∈ lanes)) := by
    intro lanes
    induction lanes with
    | nil => intro m; simp
    | cons a t ih =>
      intro m
      rw [List.foldl_cons, ih, BitVec.getLsbD_or, BitVec.getLsbD_twoPow]
      by_cases e : a = k
      · subst e; simp [hk]
      · have e' : k ≠ a := fun x => e x.symm
        simp [e, e']
  unfold laneMask
  rw [gen]; simp

/-- A predicate written in the lanes listed; p7 takes nothing (R132). -/
theorem Group.pred_putPred (g : Group) (i : Nat) (lanes : List Nat) (f : Nat → Bool) (j lane : Nat) (hl : lane < 32) :
    (g.putPred i lanes f).pred j lane = if j = i ∧ j ≠ 7 ∧ lane ∈ lanes then f lane else g.pred j lane := by
  unfold Group.putPred Group.pred
  by_cases hj : j = 7
  · subst hj; simp
  · simp only [hj, if_false, ne_eq, not_false_eq_true, true_and]
    by_cases hi : i = 7
    · subst hi; simp [hj]
    · rw [if_neg hi]
      by_cases e : j = i
      · subst e
        simp only [SMap.get_set_same, true_and]
        rw [BitVec.getLsbD_or, BitVec.getLsbD_and, BitVec.getLsbD_not, getLsbD_laneMask _ _ hl, getLsbD_laneMask _ _ hl]
        by_cases hm : lane ∈ lanes
        · simp [hm]
        · simp [hm, hl]
      · simp only [e, false_and, if_false]
        rw [SMap.get_set_other _ _ _ e]

theorem wrotePred_putPred (w : TWord) (g : Group) (i : Nat) (lanes : List Nat) (f : Nat → Bool) :
    WrotePred w g ((g.putPred i lanes f).advance w) i lanes f := by
  refine ⟨?_, fun j lane _ hl => ?_⟩
  · unfold Group.putPred Group.advance; split <;> rfl
  · exact Group.pred_putPred g i lanes f j lane hl

end Sys2Proof.Machine
end

