-- ==== Sys2Proof/Tests/Slice0.lean ====
section
/-!
SUPPORT. Tests: for every statement with hypotheses a state and operands that meet them, small states to build those from, words
of the thread instruction set written out from its tables, and terms that are not well formed.
-/

set_option Elab.async false

namespace Sys2Proof.Tests

open Sys2Proof Machine

/-! ### States -/

/-- Partition 3 with cluster 0. -/
def testPart : PartCfg :=
  { clusters := 1, vf := true, s2root := 0, s2count := 1, modBase := 0, modCount := 64, rgnBase := 0, rgnCount := 16,
    sysBase := 0, sysCount := 16, barBase := 0, barCount := 8 }

def testCfg : Cfg :=
  { parts := [(3, some testPart)]
    interleave := [{ base := 0, len := nearEnd, offset := 0, mode := 1, set := 0, granule := 12 }] }

/-- Every power domain is ON. -/
def awake : SMap W32 := (List.range 49).map fun d => (({ name := .MOD_PWR_STATE, i := d } : RegRef).key, 2)

/-- Core 5 runs at the start of its IMEM; partition 3 has an image loaded; every power domain is ON. -/
def ccTest : State :=
  { State.reset with
    regs := awake
    parts := [(3, { image := some 1 })]
    cores := [(5, { cc := { x := [(3, 2), (4, 17), (6, 0x40000010000), (8, 0x7FFFFF), (9, BitVec.ofNat 64 counterBase)] } })]
    cfg := testCfg }

/-- The same with an instruction at the pc. -/
def ccFetch (w : W32) : State := ccTest.modCore 5 fun c => c.privStore 0 (leBytes 4 w.toNat)

def ccStalled (x : Stall) : State := ccTest.modCC 5 fun c => { c with stall := some x }

/-- A NOP in DMEM that admission accepts. -/
def ccStalledGood : State :=
  ((ccStalled (.qpush 7 (privBase + 0x10000) 2)).modCore 5 fun c =>
    { c with priv := [(0x10001, 3)], spanCache := [(0, 0, 0)] }).setReg .CORE_SPAN_COUNT 5 0 1

/-- Page 0x1000 of partition 3 lies at 0x2000. -/
def pinnedTest : State :=
  (ccTest.modPart 3 fun x => { x with pinned := [{ start := 0x1000, len := 0x1000, target := 0x2000 }] }).modCC 5 fun c =>
    { c with x := [(3, 0x1000), (4, 17)] }

def atFetch (w : W32) : State := pinnedTest.modCore 5 fun c => c.privStore 0 (leBytes 4 w.toNat)

def irqTest : State :=
  ccTest.modCC 5 fun c => { c with csrs := [(csrMstatus, 8), (csrMie, 128), (csrMip, 128)], mtimecmp := 0 }

/-- A store waits on an owned line, and another line waits in the eviction buffer. -/
def cacheTest : State :=
  ccTest.modCore 5 fun c =>
    { c with cc := { c.cc with stores := [{ addr := 0x2008, width := 8, data := 9 }] }
             cache := [{ line := 0x20, st := CState.D, data := 1 }], evict := [{ line := 0x30, st := .W, data := 2 }] }

def nopEntry (st : QState) : QEntry := { acc := 4, desc := 0x300, st := st }
def queueTest (e : QEntry) : State := ccTest.modCore 5 fun c => { c with queues := [(2, { accepted := 4, entries := [e] })] }

/-- A LAUNCH body: two blocks of one group with 16 registers, depth 16 and 512 bytes of local memory, published in ring 2. -/
def testBody : BitVec 448 :=
  BitVec.ofNat 448 (0x1000 + 0x80 <<< 64 + 2 <<< 96 + 1 <<< 128 + 1 <<< 160 + 1 <<< 192 + 16 <<< 200 + 16 <<< 208 + 0x82 <<< 216 +
    512 <<< 224)

def launchEntry : QEntry := { acc := 4, desc := BitVec.ofNat 1024 (0x101 + testBody.toNat <<< 576) }
def launchTest : State := ccTest.modCore 5 fun c => { c with queues := [(0, { accepted := 4, entries := [launchEntry] })] }

/-- Launch ring 2 of cluster 0 at 0x3000, empty, with four entries. -/
def ringGrid : Grid := { acc := 4, publisher := 5, pslot := 1, ring := some 2, body := testBody, span := 0, total := 2 }
def ringTest : State :=
  (({ ccTest with mem := [(0x300C, 4)] }.modPart 3 fun x =>
    { x with pinned := [{ start := 0x3000, len := 0x1000, target := 0x3000 }] }).setPair .CLU_DIST_RING_LO .CLU_DIST_RING_HI 0 2
    0x3000).setGrid 5 1 (some ringGrid)

def distTest : State := { ringTest.setReg .CLU_DIST_CFG 0 0 4 with mem := [(0x3008, 1), (0x300C, 4)] }
def localTest : State := ccTest.setGrid 5 0 (some { ringGrid with pslot := 0, ring := none })

def pulledBlock : Block :=
  { core := 0, slot := 0, st := .pulled, index := 0, publisher := 5, pslot := 1, gen := 0, lmSize := 512, body := testBody, span := 0, ring := some 2, grid := 4 }
def pulledTest : State :=
  ((ringTest.setGrid 5 1 (some { ringGrid with entry := some 4 })).modCluster 0 fun x =>
      { x with blocks := [(0, some pulledBlock)], pulled := [0] }).modVE 0 fun v =>
    { v with distTurn := true }

def blockTest : Block :=
  { pulledBlock with core := 5, st := .resident, groups := [7] }

/-- Group 7 of core 5: uniform registers 8 to 10 hold a partition address, a window address and a counter; p1 is mixed, p2 is true
in lane 3 alone. -/
def groupTest : Group :=
  { block := 0, gi := 0, u := [(8, 0x1000), (9, BitVec.ofNat 64 (localAddr 5 0)), (10, 17)], p := [(1, 0xFFFF), (2, 8)]
    stack := [{ joinPc := 8, elsePc := 0x20, pending := 1, saved := 0xFF }], pc := 8 }
def threadTest : State :=
  ((ccTest.setGroup 5 7 (some groupTest)).modCluster 0 fun x => { x with blocks := [(0, some blockTest)] }).modPart 3 fun x =>
    { x with pinned := [{ start := 0x1000, len := 0x1000, target := 0x2000 }] }

/-- The instruction at the group's place in its kernel. -/
def wordAt (s : State) (op : Nat) (w : TWord) : State :=
  s.store 0x2008 ((TWord.words (BitVec.ofNat 10 op) w).flatMap fun x => leBytes 8 x.toNat)
def kernelTest (op : Nat) (w : TWord) : State := wordAt threadTest op w

def missTest : State :=
  ((threadTest.modPart 3 fun x => { x with pinned := [{ start := 0x1000, len := 0x1000, target := 0x1000 }] }).modVE 5 fun v =>
    { v with misses := [0x20] }).setGroup 5 7 (some { groupTest with status := .missed 0x20 })

/-- Page 0x1000 of partition 3 lies at 0x2000, in an arena that the span of the block may read and write. -/
def globalTest : State :=
  ((threadTest.modPart 3 fun x => { x with pinned := [{ start := 0x1000, len := 0x1000, target := 0x2000 }] }).modCore 5 fun c =>
    { c with arenas := [{ base := 0x1000, len := 0x1000, virt := false, ctx := 255 }], spanCache := [(0, 1, 1)] }).setReg
    .CORE_SPAN_COUNT 5 0 1

/-- A descriptor with values at byte offsets. -/
def testDesc (l : List (Nat × Nat)) : Desc := BitVec.ofNat 1024 (l.foldl (fun n x => n + x.2 <<< (8 * x.1)) 0)

/-- An MMA of one element and 256 products with its D at 0x1000. -/
def mmaEntry : QEntry := { acc := 4, desc := testDesc [(0, 0x201), (88, 0x1000), (116, 1), (118, 0xFF <<< 28)] }
def mmaRun : MuRun := { acc := 4, broadcast := false, arr := 0, q := 1, mp := 8, nc := 8, rowChunks := 1, colChunks := 1, spans := 1 }
def mmaTest (rs : List MuRun) : State :=
  globalTest.modCore 5 fun c =>
    { c with queues := [(1, { accepted := 4, entries := [mmaEntry] })], mu := { c.mu with runs := rs } }

/-- A bank of that MMA, and both banks in use. -/
def mmaBank (gen pass : Nat) : MuBank := { gen := gen, acc := 4, pass := pass, arr := 0, q := 1 }
def mmaBanks (s : State) : State := s.modMU 5 fun u => { u with bankA := some (mmaBank 0 1), bankB := some (mmaBank 7 0) }

/-- An ATTEND of one sequence of one page, one head of 16 elements; the page table of stack 2 is at 0x1C00. -/
def attendEntry : QEntry := { acc := 4, desc := testDesc [(0, 0x401), (72, 0x1000), (80, 1), (82, 1), (83, 1)] }
def attendSeq (ok : Bool) : GSeq :=
  { q := 0x1800, pages := [(0, 0)], npage := 1, len := 16, causal := 0, id := 0, dst := 0x1400, ok := ok, outOk := true }
def attendCmd (ok : Bool) : GCmd := { core := 5, acc := 4, seqs := [attendSeq ok] }
def attendItem : GItem := { core := 5, acc := 4, seq := 0, span := 0, ents := [(0, 0, 0, 0, 0)] }
def attendTest (cmds : List GCmd) : State :=
  { (((globalTest.modCore 5 fun c =>
      { c with queues := [(6, { accepted := 4, entries := [attendEntry] })], spanCache := [(0, 3, 3)]
               arenas := c.arenas ++ [{ base := 0x2000, len := 0x1000, virt := false, ctx := 255 }] }).modStack 2 fun x =>
      { x with active := cmds }).setPair .GRT_PT_BASE_LO .GRT_PT_BASE_HI 2 3 0x1C00).setReg .GRT_PT_COUNT 2 3 1 |>.setReg
      .GRT_PT_CFG 2 3 4 with
    mem := [(0x2C00, 9)]
    cfg := { testCfg with pool := [(3, some { table := 0, entries := 1, page := 0, nearBase := 0x2000, nearLen := 0x1000
                                              farBase := 0, farLen := 0 })] } }

/-- A running DMA instruction of one row, element or record in the window of core 5. -/
def dmaEntry (op : Nat) : QEntry :=
  let w := localAddr 5 0
  let d : List (Nat × Nat) :=
    match op with
    | 1 => [(0, 0x301), (72, w), (80, w + 0x100), (88, 16), (92, 0xFF), (93, 0xFF), (94, 1)]
    | 4 => [(0, 0x304), (72, w), (80, w + 0x200), (88, w + 0x100), (96, 1), (100, 1), (102, 4), (103, 0xFF), (104, 0xFF), (105, 0xFF)]
    | 5 => [(0, 0x305), (72, w), (80, 0x0102030405060708), (88, 16), (92, 1), (104, 0xFF)]
    | _ =>
      [(0, 0x300 + op), (72, w), (80, w + 0x200), (88, w + 0x100), (96, 1), (100, if op = 6 then 4 else 16), (112, 0xFF), (113, 0xFF),
       (114, 0xFF), (115, if op = 6 then 4 else 0), (116, if op = 6 then 2 else 0)]
  { acc := 4, desc := testDesc d, st := .running }
def dmaTest (op : Nat) : State :=
  (globalTest.modCore 5 fun c =>
    { c with queues := [(2, { accepted := 4, entries := [dmaEntry op] })]
             arenas := [{ base := localAddr 5 0, len := 0x1000, virt := false, ctx := 255 }] }).setField .CORE_VE_CFG 5 0 7 4 8

theorem dmaReaches (op a n : Nat) (h1 : (dmaTest op).remoteOf a = none) (h2 : (dmaTest op).targetStalls a n = false)
    (h3 : (dmaTest op).targetHere a n = true)
    (h4 : (windowOf a).all (fun x => decide (x.2 + n ≤ (dmaTest op).blockLm x.1)) = true)
    (h5 : ((dmaTest op).core 5).l1x.length ≤ 32) (h6 : isDirect a = true)
    (h7 : ((dmaTest op).directLen 3 a).any (fun m => decide (n ≤ m)) = true) : DeReaches (dmaTest op) 5 3 255 a n a := by
  refine ⟨h1, h2, h3, ?_, h5, ?_⟩
  · intro k off h
    simpa [h] using h4
  · rw [if_pos ⟨rfl, h6⟩]
    cases hm : (dmaTest op).directLen 3 a with
    | none => simp [hm] at h7
    | some m => exact ⟨rfl, m, rfl, by simpa [hm] using h7⟩

/-- The COPY is paused on fault 1. -/
def faultTest : State :=
  (dmaTest 1).modEntry 5 2 4 fun e =>
    { e with fault := some { fid := 1, kind := 2, at_ := { field := 72, ctx := 255, addr := 0x1000 }, progress := 0, paddr := 0, time := 0, src := 0 } }

/-- A swap to one range, 0x1000 at 0x4000, whose table is at 0x2000. -/
def swapTest : State :=
  { (ccTest.modPart 3 fun x => { x with swap := some (0x2000, 1, 0x2800, 0) }) with
    mem := [(0x2001, 0x10), (0x2009, 0x10), (0x2011, 0x40)] }

/-- A proof that nothing is traced: no mode is applied, and no queue holds an entry. -/
theorem untraced_plain (s : State) (h : s.modes = []) (hq : s.cores.all (fun x => x.2.queues.isEmpty) = true) : Untraced s := by
  refine ⟨fun u => by simp [State.mode, h, SMap.get, traceBit], fun l q e he => ?_⟩
  have hc : ∀ (m : SMap Core) (k : Nat), m.all (fun x => x.2.queues.isEmpty) = true → (SMap.get {} m k).queues = [] := by
    intro m
    induction m with
    | nil => intro k _; rfl
    | cons a t ih =>
      intro k hk
      simp only [List.all_cons, Bool.and_eq_true] at hk
      unfold SMap.get
      split
      · exact List.isEmpty_iff.mp hk.1
      · exact ih k hk.2
  have hl := hc s.cores l hq
  have he' : e ∈ (SMap.get ({} : Queue) (s.core l).queues q).entries := he
  rw [show (s.core l).queues = [] from hl] at he'
  simp [SMap.get] at he'

theorem untraced_queue (e : QEntry) (h : traceBit e.mode.2 = false) : Untraced (queueTest e) := by
  refine ⟨fun u => by simp [queueTest, State.mode, ccTest, State.modCore, State.setCore, State.reset, SMap.get, traceBit], fun l q x hx => ?_⟩
  have hc : ((queueTest e).core l).queues = if l = 5 then [(2, { accepted := 4, entries := [e] })] else [] := by
    by_cases hl : l = 5
    · subst hl
      rw [queueTest, State.modCore_eq, State.core_setCore_same]
      rfl
    · rw [if_neg hl]
      rw [queueTest, State.modCore_eq, State.core_setCore_other _ _ hl]
      simp [ccTest, State.core, SMap.get, Ne.symm hl]
  have hx' : x ∈ (SMap.get ({} : Queue) ((queueTest e).core l).queues q).entries := hx
  rw [hc] at hx'
  by_cases hl : l = 5
  · by_cases hq : 2 = q
    · simp only [hl, hq, SMap.get, if_true] at hx'
      rw [List.mem_singleton.mp hx']
      exact h
    · simp [hl, hq, SMap.get] at hx'
  · simp [hl, SMap.get] at hx'

/-- An ADD of 5 to module counter 7 waits in the stream of core 5's control core. -/
def testSignal : Sig :=
  { home := 0, msg := { ctr := 0x60007, kind := .add, stream := some (ccStream 5), seq := 1, src := 0, operand := 5 } }
def signalTest : State := ccTest.setStream (ccStream 5).toNat { unsent := [testSignal] }

/-- Slot 3 waits for core 5 alone, and raises module counter 7. -/
def slotTest : State :=
  ((ccTest.setReg .FCH_SLOT_CFG 3 0 0x80000000).setReg .FCH_SLOT_MASK 3 0 0x20).setReg .FCH_SLOT_COMP 3 0 0x800007

/-- A golden copy of page 0x2000 of partition 3, with its status word. -/
def testGolden : Golden := { near := 0x2000, ring := ringBase, len := 0x1000 }
def goldTest (st : W32) : State :=
  { ccTest with cfg := { testCfg with golden := [(3, [testGolden])] } }.setReg .MOD_GOLD_STATUS 3 0 st

/-- The scratchpad's first group is one. -/
def scratchTest : State := { ccTest with cfg := { testCfg with hearth := [(0, { scratch := true, owner := 3 })] } }

/-- Stream queue 2 of core 5: enabled, 16 slots, consumed by core 6. -/
def sqTest (x : StreamQ) : State :=
  (ccTest.setReg .CORE_SQ_CFG 5 2 0x80640200).modCore 5 fun c => { c with sq := [(2, x)] }

/-- Exports of 0x2000 on, one a millisecond, with no budget yet. -/
def obsTest : State :=
  (ccTest.setPair .MOD_OBS_EXP_LO .MOD_OBS_EXP_HI 0 0 0x2000).setReg .MOD_OBS_CFG 0 0 0x10001

/-- Port 4 in a training state, on wavelengths 0 to 7. -/
def linkTest (st : Nat) : State :=
  (ccTest.setField .FLP_STATUS 4 0 31 28 st).setPort 4 { mapped := 0xFF, deadline := some 9 }

/-- Packets of module 3 through port 4: entry 0 of the remote access table admits them at 0x2000, and port 4 leads back. -/
def packetTest : State :=
  { (((linkTest 5).setReg .RMT_LEN 0 0 16).setReg .RMT_SRC 0 0 0xC0000000) with
    cfg := { testCfg with memberRoutes := [(3, 0x10404)] }, time := { gtb := [(0, 100000)] } }
def testPacket (op : BitVec 6) : Packet :=
  { dst := 0, op := op, src := 3, tag := 7, born := 100000, addr := 0x2000, len := 8, seq := 1, vc := 1, data := leBytes 8 1 }
def testRemote (op : BitVec 6) (u : Sys2Proof.Unit) : Remote :=
  { pk := { testPacket op with dst := 3, src := 0 }, sent := 0, tries := 0, unit := some u }
def askedTest (op : BitVec 6) (u : Sys2Proof.Unit) : State := { packetTest with remotes := [(7, some (testRemote op u))] }
def ownerTest (m : W32) : State := packetTest.setReg .FCH_SYSDIR 5 0 (0x80000000 ||| m)


/-- Core 5 is halted at an addi, which the program buffer holds too. -/
def haltedTest : State :=
  let w := encI 5 3 0 7 0x13
  { (ccTest.modCore 5 fun c =>
      { c.privStore 0 (leBytes 4 w.toNat) with cc := { c.cc with halted := true, csrs := [(csrDcsr, 0x8000)] } }) with
    dm := [(0x20, w), (0x21, 0x00100073)] }

/-- Port 34 carries the host link. -/
def hostLinkTest : State := (ccTest.setField .FLP_STATUS 34 0 22 21 1).setField .FLP_STATUS 34 0 31 28 5

def hostTest : State := hostLinkTest.setReg .DB_CFG 3 2 0x800007

/-- Core 5 of region 0 is half as fast as its neighbours; one lag sample is a window of 1 ms. -/
def lagTest : State :=
  { ccTest with cores := [(3, { busy := [(1, 20000)], nominal := [(1, 20000)] }), (4, { busy := [(1, 20000)], nominal := [(1, 20000)] }),
      (5, { busy := [(1, 20000)], nominal := [(1, 10000)] })] }.setReg .RGN_LAG_CFG 0 0 0x80000114

/-- Region 0 runs at point 1 of three. -/
def pointTest : State :=
  { ccTest with cfg := { testCfg with dvfs := [(0, [⟨800, 650, 20⟩, ⟨1000, 700, 30⟩, ⟨1200, 750, 40⟩])] } }.setField
    .RGN_DVFS_STATUS 0 0 31 28 1

/-- Partition 3 changes to epoch 1. -/
def modeTest : State :=
  ((ccTest.setReg .MOD_MODE_CTRL 3 0 0x40800011).setReg .MOD_MODE_EPOCH 3 0 1).modPart 3 fun x => { x with modeHandle := 0x800011 }

def damperTest (st : Nat) : State :=
  ((ccTest.setField .MOD_DAMP_STATUS 0 0 31 29 st).setPair .MOD_DAMP_TIME_LO .MOD_DAMP_TIME_HI 0 0 5000).setPair .MOD_DAMP_BUF_LO
    .MOD_DAMP_BUF_HI 0 0 0x1000

/-- A submission to the module's mailbox, and a FOLD record of partition 3. -/
def testSub : Submission := { mailbox := 16, time := 0, addr := 0x2000, len := 8 }
def ksTest : State := { ccTest with sto := { subs := [testSub] } }
def testFold : Rec := { type := 0x0E, kind := 3, index := 3, body := leBytes 8 0, pos := 1 }
def ksVerified : State := { ccTest with sto := { verified := some (testSub, [testFold], 7, 0) } }.setReg .MOD_MODE_CUR 3 0 1

/-- An image with one program of one NOP for core 5. -/
def testImage : Image :=
  { digestOk := true, claoc2 := true, digest := 1, programs := [{ core := 5, words := [0x13] }], noImemStore := true
    templatesOk := true, templates := [], fixedFieldsOk := true, certs := [], spanBase := 0x1000, arenas := [], spans := [], kernels := []
    pinnedRanges := [], rings := [], needClusters := 1, needModCounters := 1, needRgnCounters := 1, needSysCounters := 0
    needBarriers := 0 }
def imageTest : State := pinnedTest.setReg .MOD_MODE_CUR 3 0 1

/-- The Stoker runs image A with the module off, and in a boot phase. -/
def standbyTest (phase : Nat) : State :=
  { State.reset with sto := { standby := true } }.setField .STO_BOOT_STATUS 0 0 31 28 phase
def bootTest (phase : Nat) : State :=
  { standbyTest phase with sto := { standby := true, pg48 := true } }

/-! ### Witnesses of the statements' hypotheses -/

theorem witness_MemoryStaysCanonical_1 :
    let s : State := 
      { State.reset with mem := [(4, 7)] }; Memory.wf s.mem = true ∧ step s = .next s.tick := ⟨by decide +kernel, rfl⟩

theorem witness_ThreadWordsRoundTrip_1 :
    ({ bcls := 3, lit := 0xFFFFFFFFFFFFFFFF, opx := 0x7FF, gneg := true } : TWord).literalOk = true ∧
    ({} : TWord).literalOk = true := by decide +kernel

theorem witness_XclqReadsWaitsAndSignals_1 :
    CcAt (ccFetch (xclqEnc 0 0 0 4 7)) 5 (xclqEnc 0 0 0 4 7) 4 := by unfold CcAt CcIssues; decide +kernel
theorem witness_XclqReadsWaitsAndSignals_2 : let s := ccFetch (xclqEnc 0 0 3 1 7); CcAt s 5 (xclqEnc 0 0 3 1 7) 4 ∧
    ((s.cc 5).xr 3).toNat = 2 ∧ isQueue 2 = true := by unfold CcAt CcIssues; decide +kernel
theorem witness_XclqReadsWaitsAndSignals_3 : let s := ccFetch (xclqEnc 0 0 4 2 7); CcAt s 5 (xclqEnc 0 0 4 2 7) 4 ∧
    ((s.cc 5).xr 4).toNat % 2 ^ 24 = 17 ∧ s.coreHandle 5 17 = true ∧
    s.waitMet (.cc 5) (counterOf 5 17) ((s.cc 5).xr 0) = true ∧
    traceBit (s.mode 0 (.cc 5)).2 = false := by unfold CcAt CcIssues; decide +kernel
theorem witness_XclqReadsWaitsAndSignals_4 : let s := ccFetch (xclqEnc 0 3 4 2 7); CcAt s 5 (xclqEnc 0 3 4 2 7) 4 ∧
    s.coreHandle 5 17 = true ∧ s.waitMet (.cc 5) (counterOf 5 17) ((s.cc 5).xr 3) = false ∧
    s.ownerElsewhere (counterOf 5 17) = none ∧
    s.waitsAt (counterHome (counterOf 5 17)) < waitDepth := by unfold CcAt CcIssues; decide +kernel
theorem witness_XclqReadsWaitsAndSignals_5 : let s := ccFetch (xclqEnc 1 3 4 3 7); CcAt s 5 (xclqEnc 1 3 4 3 7) 4 ∧
    s.partOf 5 = some (3 : PartId).val ∧
    s.targetOk (3 : PartId) 1 (((s.cc 5).xr 4).toNat % 2 ^ 24) = true := by unfold CcAt CcIssues; decide +kernel
theorem witness_XclqReadsWaitsAndSignals_6 : let s := ccStalled (.csig 7 17 1 9);
    (s.csigReady 5).any (fun r => decide (r.1 = 7) && decide (homeModule r.2.home = none) && s.sourceReady (ccStream 5) r.2.msg.seq r.2.msg.system && s.mayFollow (s.stream (ccStream 5).toNat) r.2 && !(s.stream (ccStream 5).toNat).sent.contains r.2) = true ∧
    (s.stream (ccStream 5).toNat).unsent = [] := by decide +kernel

theorem witness_QpushIsAdmittedOrFaults_1 : let s := ccFetch (xclqEnc 0 3 6 0 7); CcAt s 5 (xclqEnc 0 3 6 0 7) 4 ∧
    ((s.cc 5).xr 6).toNat = privBase + 0x10000 ∧
    isQueue ((s.cc 5).xr 3).toNat = true := by unfold CcAt CcIssues; decide +kernel
theorem witness_QpushIsAdmittedOrFaults_2 : let s := ccStalled (.qpush 7 (privBase + 0x10000) 2);
    (s.cc 5).stall = some (.qpush 7 (privBase + 0x10000) 2) ∧ (s.cc 5).halted = false ∧ (s.cc 5).stopped = false ∧
    s.fenced 5 = false ∧ s.quiesced 5 = false ∧ (s.cc 5).stores = [] ∧ s.canAccept 5 2 = true ∧
    (firstFail (((s.countStall 5).endAsk 5).admissionFails 5 ((s.partOf 5).getD 16) 2 (descOf ((s.core 5).privBytes 0x10000 128))).1).isSome = true := by decide +kernel
theorem witness_QpushIsAdmittedOrFaults_3 : let s := ccStalledGood;
    (s.cc 5).stall = some (.qpush 7 (privBase + 0x10000) 2) ∧ (s.cc 5).halted = false ∧ (s.cc 5).stopped = false ∧
    s.fenced 5 = false ∧ s.quiesced 5 = false ∧ (s.cc 5).stores = [] ∧ s.canAccept 5 2 = true ∧
    firstFail (((s.countStall 5).endAsk 5).admissionFails 5 ((s.partOf 5).getD 16) 2 (descOf ((s.core 5).privBytes 0x10000 128))).1 = none := by decide +kernel

theorem witness_ReservedXclqAndFaultsTrap_1 : let s := ccFetch (xclqEnc 1 3 4 0 7);
    CcAt s 5 (xclqEnc 1 3 4 0 7) 4 := by unfold CcAt CcIssues; decide +kernel
theorem witness_ReservedXclqAndFaultsTrap_2 : let s := ccFetch (xclqEnc 1 0 4 1 7);
    CcAt s 5 (xclqEnc 1 0 4 1 7) 4 := by unfold CcAt CcIssues; decide +kernel
theorem witness_ReservedXclqAndFaultsTrap_3 : let s := ccFetch (xclqEnc 127 3 4 2 7);
    CcAt s 5 (xclqEnc 127 3 4 2 7) 4 := by unfold CcAt CcIssues; decide +kernel
theorem witness_ReservedXclqAndFaultsTrap_4 : let s := ccFetch (xclqEnc 1 0 0 4 7);
    CcAt s 5 (xclqEnc 1 0 0 4 7) 4 := by unfold CcAt CcIssues; decide +kernel
theorem witness_ReservedXclqAndFaultsTrap_5 : let s := ccFetch (xclqEnc 3 3 4 3 7);
    CcAt s 5 (xclqEnc 3 3 4 3 7) 4 := by unfold CcAt CcIssues; decide +kernel
theorem witness_ReservedXclqAndFaultsTrap_6 : let s := ccFetch (loadWord 7 3 5 7);
    CcAt s 5 (loadWord 7 3 5 7) 4 := by unfold CcAt CcIssues; decide +kernel
theorem witness_ReservedXclqAndFaultsTrap_7 : let s := ccFetch (storeWord 3 4 5 4);
    CcAt s 5 (storeWord 3 4 5 4) 4 := by unfold CcAt CcIssues; decide +kernel
theorem witness_ReservedXclqAndFaultsTrap_8 : let s := ccFetch (xclqEnc 0 3 3 0 7); CcAt s 5 (xclqEnc 0 3 3 0 7) 4 ∧
    isQueue ((s.cc 5).xr 3).toNat = true ∧ ((s.cc 5).xr 3).toNat % 128 ≠ 0 := by unfold CcAt CcIssues; decide +kernel
theorem witness_ReservedXclqAndFaultsTrap_9 : let s := ccFetch (xclqEnc 0 3 0 0 7); CcAt s 5 (xclqEnc 0 3 0 0 7) 4 ∧
    ((s.cc 5).xr 0).toNat % 128 = 0 ∧ ((s.cc 5).xr 0).toNat < privBase + 0x10000 := by unfold CcAt CcIssues; decide +kernel
theorem witness_ReservedXclqAndFaultsTrap_10 : let s := ccFetch (xclqEnc 0 3 8 2 7); CcAt s 5 (xclqEnc 0 3 8 2 7) 4 ∧
    s.coreHandle 5 (((s.cc 5).xr 8).toNat % 2 ^ 24) = false := by unfold CcAt CcIssues; decide +kernel
theorem witness_ReservedXclqAndFaultsTrap_11 : let s := ccFetch (xclqEnc 1 3 8 3 7); CcAt s 5 (xclqEnc 1 3 8 3 7) 4 ∧
    s.coreHandle 5 (((s.cc 5).xr 8).toNat % 2 ^ 24) = false := by unfold CcAt CcIssues; decide +kernel
theorem witness_ReservedXclqAndFaultsTrap_12 : let s := ccFetch (storeWord 9 4 0 3); CcAt s 5 (storeWord 9 4 0 3) 4 ∧
    ((s.cc 5).xr 9 + (0 : BitVec 12).signExtend 64).toNat = counterBase ∧
    counterBase % 2 ^ 3 = 0 := by unfold CcAt CcIssues; decide +kernel
theorem witness_ReservedXclqAndFaultsTrap_13 : let s := ccTest.modCC 5 (fun c => { c with pc := 0x40000008000 });
    s.ccRuns 5 = true ∧ privBase + imemBytes ≤ (s.cc 5).pc.toNat := by decide +kernel

theorem witness_ControlCoreInstructionsComplete_1 : let w := encI 5 3 0 7 0x13; CcIssues (ccFetch w) 5 ∧
    (ccFetch w).fetchesRaw 5 w = some 4 ∧ bitsOf w 6 0 = 0x13 ∧ f3Of w = 0 := by unfold CcIssues; decide +kernel
theorem witness_ControlCoreInstructionsComplete_2 : let w := encR 32 3 4 0 7 0x33; CcIssues (ccFetch w) 5 ∧
    (ccFetch w).fetchesRaw 5 w = some 4 ∧ bitsOf w 6 0 = 0x33 ∧ f3Of w = 0 ∧
    f7Of w = 32 := by unfold CcIssues; decide +kernel
theorem witness_ControlCoreInstructionsComplete_3 : let w := encJ 8 1; CcIssues (ccFetch w) 5 ∧
    (ccFetch w).fetchesRaw 5 w = some 4 ∧ bitsOf w 6 0 = 0x6F := by unfold CcIssues; decide +kernel
theorem witness_ControlCoreInstructionsComplete_4 : let w := encB 8 0 0 0; CcIssues (ccFetch w) 5 ∧
    (ccFetch w).fetchesRaw 5 w = some 4 ∧ bitsOf w 6 0 = 0x63 ∧ f3Of w = 0 := by unfold CcIssues; decide +kernel
theorem witness_ControlCoreInstructionsComplete_5 : CcIssues (ccFetch 0x73) 5 ∧
    (ccFetch 0x73).fetchesRaw 5 0x73 = some 4 := by unfold CcIssues; decide +kernel
theorem witness_ControlCoreInstructionsComplete_6 : CcIssues (ccFetch 0x30200073) 5 ∧
    (ccFetch 0x30200073).fetchesRaw 5 0x30200073 = some 4 := by unfold CcIssues; decide +kernel
theorem witness_ControlCoreInstructionsComplete_7 : let w := fenceWord false 0 0 0xFF; CcIssues (ccFetch w) 5 ∧
    (ccFetch w).fetches 5 w = some 4 ∧ ((ccFetch w).cc 5).stores = [] := by unfold CcIssues; decide +kernel
theorem witness_ControlCoreInstructionsComplete_8 : let w := encI 0x7C0 31 7 3 0x73; CcIssues (ccFetch w) 5 ∧
    (ccFetch w).fetches 5 w = some 4 := by unfold CcIssues; decide +kernel

theorem witness_PrivateLoadsAndStores_1 : let s := ccFetch (loadWord 7 6 8 3); CcAt s 5 (loadWord 7 6 8 3) 4 ∧
    (s.cc 5).xr 6 + (8 : BitVec 12).signExtend 64 = 0x40000010008 ∧ privOff 0x40000010008 = some 0x10008 ∧
    s.privOk 5 0x10008 8 = true := by unfold CcAt CcIssues; decide +kernel
theorem witness_PrivateLoadsAndStores_2 : let s := ccFetch (storeWord 6 4 8 3); CcAt s 5 (storeWord 6 4 8 3) 4 ∧
    s.privOk 5 0x10008 8 = true := by unfold CcAt CcIssues; decide +kernel

theorem witness_AtomicsActAtTheHome_1 : let s := atFetch (amoWord 0 true true true 4 3 7);
    CcAt s 5 (amoWord 0 true true true 4 3 7) 4 ∧ ((s.cc 5).xr 3).toNat % 8 = 0 ∧
    s.ccPlace 5 ((s.cc 5).xr 3).toNat 8 = .cached 0x2000 ∧ s.homeAsleep 0x2000 = false ∧ (s.cc 5).stores = [] ∧
    s.presence = [] ∧ s.inFlight = [] ∧ s.lost = [] ∧
    amoValue 0 8 (s.load 0x2000 8) ((s.cc 5).xr 4) = some 17 := by unfold CcAt CcIssues; decide +kernel
theorem witness_AtomicsActAtTheHome_2 :
    CcAt (atFetch (amoWord 2 false false true 0 3 7)) 5 (amoWord 2 false false true 0 3 7) 4 := by unfold CcAt CcIssues; decide +kernel
theorem witness_AtomicsActAtTheHome_3 :
    CcAt (atFetch (amoWord 3 false true false 4 3 7)) 5 (amoWord 3 false true false 4 3 7) 4 := by unfold CcAt CcIssues; decide +kernel

theorem witness_ControlCoreInterrupts_1 : let s := irqTest; s.imaged 5 = true ∧ (s.cc 5).halted = false ∧
    (s.cc 5).stopped = false ∧ s.fenced 5 = false ∧ s.quiesced 5 = false ∧ (s.cc 5).stall = none ∧
    (s.cc 5).canTake (irqBit .timer) = true := by decide +kernel
theorem witness_ControlCoreInterrupts_2 : let s := irqTest; (s.cc 5).mtimecmp.toNat ≤ (s.gtb 0).toNat := by decide +kernel

theorem witness_ControlCacheTransitions_1 : let s := { ccStalled (.load 7 0x2008 3 4) with presence := [] };
    (s.cc 5).stores = [] ∧ (s.cc 5).stall = some (.load 7 0x2008 3 4) ∧ s.ccHolds 5 0x20 = false ∧
    (s.rivals 5 0x20).1.length < (s.rivals 5 0x20).2 ∧ s.holders 0x20 = [] ∧ SMap.get none s.inFlight 0x20 = none ∧
    s.homesAsleep 0x2000 256 = false := by decide +kernel
theorem witness_ControlCacheTransitions_2 : let s := cacheTest;
    (s.cc 5).stores = [{ addr := 0x2008, width := 8, data := 9 }] ∧ (s.core 5).evictAt 0x20 = none ∧
    (s.core 5).lineAt 0x20 = some { line := 0x20, st := CState.D, data := 1 } ∧
    (s.core 5).evict = [{ line := 0x30, st := .W, data := 2 }] ∧ (s.core 5).supplied 0x20 = some 1 ∧
    s.homesAsleep (0x30 * 256) 256 = false := by decide +kernel
theorem witness_ControlCacheTransitions_3 :
    ∀ a ∈ [0, 0x2000, 0xBFFFFFFFFF], State.reset.armedAt a = none := by decide +kernel

theorem witness_HomesServeReadsAndWrites_1 : let s := pinnedTest; s.isMemoryRange 0x2FFE 4 = true ∧ s.presence = [] ∧
    s.inFlight = [] ∧ s.homesAsleep 0x2FFE 4 = false := by decide +kernel
theorem witness_HomesServeReadsAndWrites_2 : let s := pinnedTest.setReg .MOD_PWR_STATE 22 0 4;
    s.isMemoryRange 0x2FFE 4 = true ∧ s.homesAsleep 0x2FFE 4 = true := by decide +kernel
theorem witness_HomesServeReadsAndWrites_3 : ∀ x, pinnedTest.armedAt x = none := fun _ => rfl
theorem witness_HomesServeReadsAndWrites_4 : State.reset.isMemoryRange 0 1 = false := by decide +kernel

theorem witness_ControlCoreRegistersTakeEffect_1 : ccTest.logicalOf 5 = some 5 ∧
    ccTest.mayWrite .stoker { name := .CORE_CC_CFG, i := 5 } = true ∧
    lockedOk (RegName.written .CORE_CC_CFG (ccTest.reg .CORE_CC_CFG 5) 0x20) = true ∧
    RegName.written .CORE_CC_CFG (ccTest.reg .CORE_CC_CFG 5) 0x20 ≠ ccTest.reg .CORE_CC_CFG 5 := by decide +kernel
theorem witness_ControlCoreRegistersTakeEffect_2 :
    lockedOk (RegName.written .CORE_CC_CFG (ccTest.reg .CORE_CC_CFG 5) 0x3E) = false ∧
    lockedOk (RegName.written .CORE_CC_CFG (ccTest.reg .CORE_CC_CFG 5) 0x13) = false := by decide +kernel
theorem witness_ControlCoreRegistersTakeEffect_3 : ccTest.mayWrite .stoker { name := .CORE_SPAN_BASE_LO, i := 5 } = true ∧
    ccTest.mayWrite .stoker { name := .CORE_SPAN_COUNT, i := 5 } = true := by decide +kernel

theorem witness_InstructionsStartCompleteAndCommit_1 :
    let e : QEntry := 
      nopEntry .pending; let s := queueTest e; (Untraced s ∧ (s.queue 5 2).entries = [e]) ∧ e.void = false ∧ (s.queue 5 2).oldestPending = some e ∧ s.waitsMet 5 2 e = true ∧ s.engineStopped 5 2 = false ∧ s.fenced 5 = false ∧ e.desc.opcode = 0 ∧ (s.queue 5 2).running = [] := ⟨⟨untraced_queue _ rfl, rfl⟩, by decide +kernel⟩
theorem witness_InstructionsStartCompleteAndCommit_2 : let e : QEntry := { nopEntry .pending with desc := 0x301 };
    let s := queueTest e; s.modes = [] ∧ e.mode = (0, 0) ∧ (s.queue 5 2).entries = [e] ∧
    (s.queue 5 2).oldestPending = some e ∧ s.waitsMet 5 2 e = true ∧ e.desc.opcode ≠ 0 ∧
    (s.queue 5 2).running = [] := by decide +kernel
theorem witness_InstructionsStartCompleteAndCommit_3 : let e : QEntry := { nopEntry .running with done := true };
    let s := queueTest e; (s.queue 5 2).entries = [e] ∧ e.paused = false ∧ e.remoteWrites = 0 := by decide +kernel
theorem witness_InstructionsStartCompleteAndCommit_4 : let e : QEntry := nopEntry .complete; let s := queueTest e;
    (s.queue 5 2).entries = [e] ∧ e.unacked = [] ∧ e.remoteWrites = 0 ∧ e.slot = none ∧
    (s.stream (queueStream 5 2).toNat).away = [] := by decide +kernel

theorem witness_TraceRecordsFollowTheMode_1 : traceBit 0x800 = true ∧ State.reset.obsBudget < 32 := by decide +kernel
theorem witness_TraceRecordsFollowTheMode_2 : traceBit 0x7FF = false := by decide +kernel

theorem witness_GridsStartAndAppendEntries_1 : let s := launchTest; (s.queue 5 0).oldestPending = some launchEntry ∧
    s.entry 5 0 launchEntry.acc = some launchEntry ∧ launchEntry.desc.opcode = 1 ∧ s.waitsMet 5 0 launchEntry = true ∧
    s.engineStopped 5 0 = false ∧ s.fenced 5 = false ∧ s.freeSlot 5 = some 0 ∧
    traceBit (s.mode 0 (.ve 5)).2 = false := by decide +kernel
theorem witness_GridsStartAndAppendEntries_2 : let s := ringTest; s.grid 5 1 = some ringGrid ∧ s.partOf 5 = some 3 ∧
    ringGrid.ring = some 2 ∧ s.pinnedLocal 3 (s.ringAddr 0 2) 16 = some [(0x3000, 16)] ∧ s.isMemoryRange 0x3000 16 = true ∧
    s.load 0x300C 4 = 4 ∧ s.entryHeld 3 2 ((s.load 0x3008 4 + 2 ^ 32 - s.load 0x300C 4) % 2 ^ 32) = false ∧
    s.pinnedLocal 3 (ringEntry (s.ringAddr 0 2) 4 (s.load 0x3008 4)) 64 = some [(0x3080, 64)] ∧
    s.pinnedLocal 3 (s.ringAddr 0 2 + 8) 4 = some [(0x3008, 4)] ∧ s.isMemoryRange 0x3080 64 = true := by decide +kernel
theorem witness_GridsStartAndAppendEntries_3 :
    let s := { ringTest with cores := [(5, { (ringTest.core 5) with ve := { grids := [(1, some { ringGrid with ring := none })] } })] };
    s.logicalOf 5 = some 5 ∧ s.mayWrite .stoker { name := .CORE_VE_KILL, i := 5 } = true ∧ s.partOf 5 = some 3 ∧
    s.grid 5 1 = some { ringGrid with ring := none } ∧ s.clusters = [] := by decide +kernel

theorem witness_BlocksStartAndLinesArrive_1 : let s := distTest; s.partOfCluster 0 = some 3 ∧ s.freeBlockRecord 0 = some 0 ∧
    s.ringTurns 0 = [2] ∧ (s.cluster 0).stopped = false ∧ (s.cluster 0).pulled.length < 8 * (s.activeCores 0).length ∧
    (match s.partRead (.dist 0) 3 (s.ringAddr 0 2) 16 with | some (h, s1) => decide (fieldLe h 4 4 ≠ fieldLe h 8 4 ∧ fieldLe h 12 4 ≠ 0) && (match s1.partRead (.dist 0) 3 (ringEntry (s.ringAddr 0 2) (fieldLe h 12 4) (fieldLe h 4 4)) 64 with | some (g, _) => decide (fieldLe g 59 1 ≠ 1) | none => false) | none => false) = true := by decide +kernel
theorem witness_BlocksStartAndLinesArrive_2 : let s := localTest; (s.localReady 5 0).isSome = true ∧
    s.freeBlockRecord 0 = some 0 ∧ ((s.core 5).ve.distTurn && s.pulledReady 5) = false := by decide +kernel
theorem witness_BlocksStartAndLinesArrive_3 : let s := pulledTest; s.headPulled 0 = some (0, pulledBlock) ∧
    s.gridDead pulledBlock.gridId = false ∧
    ((s.activeCores 0).all fun k => decide (s.blockLm k < pulledBlock.lmSize)) = false ∧
    (s.pickCore 0 pulledBlock).isSome = true ∧ (s.core ((s.pickCore 0 pulledBlock).getD 0)).ve.distTurn = true ∧
    pulledBlock.lmSize = localOf pulledBlock.body := by decide +kernel
theorem witness_BlocksStartAndLinesArrive_4 : let s := missTest; s.partOf 5 = some 3 ∧
    (s.core 5).ve.misses.contains 0x20 = true ∧ s.pinnedPieces 3 (0x20 * 128) 128 = some [(0x1000, 128)] ∧
    s.remoteOf 0x1000 = none ∧ s.isMemoryRange 0x1000 128 = true ∧ s.homesAsleep 0x1000 128 = false ∧
    (s.group 5 7).map (·.status) = some (.missed 0x20) := by decide +kernel

theorem witness_SplitOfLocalMemory_1 : (ccTest.core 5).ve.grids = [] ∧ (ccTest.cluster 0).pulled = [] ∧
    ccTest.logicalOf 5 = some 5 ∧ bitsOf (0x20 : W32) 7 4 = 2 ∧ bitsOf (0x90 : W32) 7 4 = 9 ∧
    ccTest.mayWrite .stoker { name := .CORE_VE_CFG, i := 5 } = true ∧ (ccTest.core 5).ve.resident = 0 ∧
    (ccTest.core 5).ve.resvPending = none := by decide +kernel
theorem witness_SplitOfLocalMemory_2 : let s := ccTest.modVE 5 (fun v => { v with splitPending := some 8 });
    (s.core 5).ve.splitPending = some 8 ∧ (s.core 5).ve.resident = 0 := by decide +kernel
theorem witness_SplitOfLocalMemory_3 : (missTest.core 5).ve.resident ≠ 0 ∧
    (missTest.core 5).ve.grids = [] := by decide +kernel

theorem witness_MalformedAndIdleThreadWordsDoNothing_1 : State.reset.group 5 7 = none := by decide +kernel
theorem witness_MalformedAndIdleThreadWordsDoNothing_2 : let w : TWord := { dst := 200, srcA := 1, srcB := 2, srcC := 0 };
    let s := kernelTest 0x001 w; s.group 5 7 = some groupTest ∧ s.block 0 groupTest.block = some blockTest ∧
    s.groupRuns 5 groupTest = true ∧ s.atWord 0x001 5 groupTest blockTest w = true ∧
    wordOk 0x001 (launchFld blockTest.body 97 1) (launchFld blockTest.body 80 4) w = false := by decide +kernel
theorem witness_MalformedAndIdleThreadWordsDoNothing_3 :
    threadTest.atWord 0x001 5 groupTest blockTest {} = false := by decide +kernel
theorem witness_MalformedAndIdleThreadWordsDoNothing_4 :
    (threadTest.setGroup 5 7 (some { groupTest with status := .atBarrier })).groupRuns 5 { groupTest with status := .atBarrier } = false := by decide +kernel

theorem witness_IntegerArithmeticWraps_1 :
    Runs (wordAt threadTest 0x001 { dst := 3, srcA := 1, srcB := 2, srcC := 0 }) 0x001 5 7 { dst := 3, srcA := 1, srcB := 2, srcC := 0 } groupTest blockTest := 
      ⟨by decide +kernel, by decide +kernel, by decide +kernel, by decide +kernel, by decide +kernel⟩
theorem witness_IntegerArithmeticWraps_2 :
    Runs (wordAt threadTest 0x006 { dst := 4, srcA := 2, srcB := 6, srcC := 0, opx := 0x401 }) 0x006 5 7 { dst := 4, srcA := 2, srcB := 6, srcC := 0, opx := 0x401 } groupTest blockTest := 
      ⟨by decide +kernel, by decide +kernel, by decide +kernel, by decide +kernel, by decide +kernel⟩
theorem witness_IntegerArithmeticWraps_3 :
    Runs (wordAt threadTest 0x007 { dst := 3, ud := true, srcA := 1, ua := true, srcB := 0x80, srcC := 0, bcls := 2 }) 0x007 5 7 { dst := 3, ud := true, srcA := 1, ua := true, srcB := 0x80, srcC := 0, bcls := 2 } groupTest blockTest := 
      ⟨by decide +kernel, by decide +kernel, by decide +kernel, by decide +kernel, by decide +kernel⟩

theorem witness_IntegerBitsAndCopies_1 :
    Runs (wordAt threadTest 0x004 { dst := 3, srcA := 1, srcB := 2, srcC := 0 }) 0x004 5 7 { dst := 3, srcA := 1, srcB := 2, srcC := 0 } groupTest blockTest := 
      ⟨by decide +kernel, by decide +kernel, by decide +kernel, by decide +kernel, by decide +kernel⟩
theorem witness_IntegerBitsAndCopies_2 :
    Runs (wordAt threadTest 0x008 { dst := 4, srcA := 2, srcB := 6, srcC := 0, opx := 0x400 }) 0x008 5 7 { dst := 4, srcA := 2, srcB := 6, srcC := 0, opx := 0x400 } groupTest blockTest := 
      ⟨by decide +kernel, by decide +kernel, by decide +kernel, by decide +kernel, by decide +kernel⟩
theorem witness_IntegerBitsAndCopies_3 :
    Runs (wordAt threadTest 0x009 { dst := 3, ud := true, srcA := 1, ua := true, srcB := 0x80, srcC := 0, bcls := 2 }) 0x009 5 7 { dst := 3, ud := true, srcA := 1, ua := true, srcB := 0x80, srcC := 0, bcls := 2 } groupTest blockTest := 
      ⟨by decide +kernel, by decide +kernel, by decide +kernel, by decide +kernel, by decide +kernel⟩
theorem witness_IntegerBitsAndCopies_4 :
    Runs (wordAt threadTest 0x00A { dst := 3, srcA := 1, srcB := 0, srcC := 0 }) 0x00A 5 7 { dst := 3, srcA := 1, srcB := 0, srcC := 0 } groupTest blockTest := 
      ⟨by decide +kernel, by decide +kernel, by decide +kernel, by decide +kernel, by decide +kernel⟩

theorem witness_FloatInstructionsRoundOnce_1 :
    Runs (wordAt threadTest 0x040 { dst := 3, srcA := 1, srcB := 2, srcC := 0, opx := 4 }) 0x040 5 7 { dst := 3, srcA := 1, srcB := 2, srcC := 0, opx := 4 } groupTest blockTest := 
      ⟨by decide +kernel, by decide +kernel, by decide +kernel, by decide +kernel, by decide +kernel⟩
theorem witness_FloatInstructionsRoundOnce_2 :
    Runs (wordAt threadTest 0x047 { dst := 3, srcA := 1, srcB := 0, srcC := 0 }) 0x047 5 7 { dst := 3, srcA := 1, srcB := 0, srcC := 0 } groupTest blockTest := 
      ⟨by decide +kernel, by decide +kernel, by decide +kernel, by decide +kernel, by decide +kernel⟩
theorem witness_FloatInstructionsRoundOnce_3 :
    Runs (wordAt threadTest 0x050 { dst := 255, srcA := 1, srcB := 2, srcC := 0, opx := 0x200 }) 0x050 5 7 { dst := 255, srcA := 1, srcB := 2, srcC := 0, opx := 0x200 } groupTest blockTest := 
      ⟨by decide +kernel, by decide +kernel, by decide +kernel, by decide +kernel, by decide +kernel⟩

theorem witness_ApproximationsKeepTheirBounds_1 : (match fp32.decode 0x7FC00000 with | .nan => true | _ => false) = true ∧
    (match fp32.decode 0xBF800000 with | .fin true m _ => decide (m ≠ 0) | _ => false) = true := by decide +kernel
theorem witness_ApproximationsKeepTheirBounds_2 :
    (match fp32.decode 0x80000000 with | .fin true 0 _ => true | _ => false) = true ∧
    (match fp32.decode 0xFF800000 with | .inf true => true | _ => false) = true := by decide +kernel
theorem witness_ApproximationsKeepTheirBounds_3 : let x := Val.fin false 1 0; let d := Val.fin false 1 (-22);
    (codeRange x d).1 ≤ (codeRange x d).2 ∧ -(2 ^ 31) ≤ (codeRange x d).1 ∧ (codeRange x d).2 < 2 ^ 31 := by decide +kernel

theorem witness_ConversionsBetweenFormats_1 :
    Runs (wordAt threadTest 0x080 { dst := 3, srcA := 1, srcB := 0, bcls := 2, srcC := 0, opx := 0x30 }) 0x080 5 7 { dst := 3, srcA := 1, srcB := 0, bcls := 2, srcC := 0, opx := 0x30 } groupTest blockTest := 
      ⟨by decide +kernel, by decide +kernel, by decide +kernel, by decide +kernel, by decide +kernel⟩
theorem witness_ConversionsBetweenFormats_2 :
    Runs (wordAt threadTest 0x081 { dst := 3, srcA := 1, srcB := 3, bcls := 2, srcC := 2, opx := 0x30 }) 0x081 5 7 { dst := 3, srcA := 1, srcB := 3, bcls := 2, srcC := 2, opx := 0x30 } groupTest blockTest := 
      ⟨by decide +kernel, by decide +kernel, by decide +kernel, by decide +kernel, by decide +kernel⟩
theorem witness_ConversionsBetweenFormats_3 :
    Runs (wordAt threadTest 0x082 { dst := 3, srcA := 1, srcB := 3, bcls := 2, srcC := 0, opx := 0x03 }) 0x082 5 7 { dst := 3, srcA := 1, srcB := 3, bcls := 2, srcC := 0, opx := 0x03 } groupTest blockTest := 
      ⟨by decide +kernel, by decide +kernel, by decide +kernel, by decide +kernel, by decide +kernel⟩
theorem witness_ConversionsBetweenFormats_4 :
    Runs (wordAt threadTest 0x083 { dst := 3, ud := true, srcA := 1, srcB := 0, srcC := 0, opx := 0x30 }) 0x083 5 7 { dst := 3, ud := true, srcA := 1, srcB := 0, srcC := 0, opx := 0x30 } groupTest blockTest := 
      ⟨by decide +kernel, by decide +kernel, by decide +kernel, by decide +kernel, by decide +kernel⟩
theorem witness_ConversionsBetweenFormats_5 :
    Runs (wordAt threadTest 0x084 { dst := 3, srcA := 1, srcB := 0, srcC := 3, uc := true, opx := 0x30 }) 0x084 5 7 { dst := 3, srcA := 1, srcB := 0, srcC := 3, uc := true, opx := 0x30 } groupTest blockTest := 
      ⟨by decide +kernel, by decide +kernel, by decide +kernel, by decide +kernel, by decide +kernel⟩
theorem witness_ConversionsBetweenFormats_6 :
    Runs (wordAt threadTest 0x085 { dst := 3, srcA := 1, srcB := 0, srcC := 0 }) 0x085 5 7 { dst := 3, srcA := 1, srcB := 0, srcC := 0 } groupTest blockTest := 
      ⟨by decide +kernel, by decide +kernel, by decide +kernel, by decide +kernel, by decide +kernel⟩

theorem witness_ComparisonsAndPredicates_1 :
    Runs (wordAt threadTest 0x0C0 { dst := 1, srcA := 2, srcB := 4, srcC := 0, opx := 0x40A }) 0x0C0 5 7 { dst := 1, srcA := 2, srcB := 4, srcC := 0, opx := 0x40A } groupTest blockTest := 
      ⟨by decide +kernel, by decide +kernel, by decide +kernel, by decide +kernel, by decide +kernel⟩
theorem witness_ComparisonsAndPredicates_2 :
    Runs (wordAt threadTest 0x0C1 { dst := 1, srcA := 1, srcB := 2, srcC := 0, opx := 2 }) 0x0C1 5 7 { dst := 1, srcA := 1, srcB := 2, srcC := 0, opx := 2 } groupTest blockTest := 
      ⟨by decide +kernel, by decide +kernel, by decide +kernel, by decide +kernel, by decide +kernel⟩
theorem witness_ComparisonsAndPredicates_3 :
    Runs (wordAt threadTest 0x0C2 { dst := 1, srcA := 1, srcB := 2, srcC := 7, opx := 0x80 }) 0x0C2 5 7 { dst := 1, srcA := 1, srcB := 2, srcC := 7, opx := 0x80 } groupTest blockTest := 
      ⟨by decide +kernel, by decide +kernel, by decide +kernel, by decide +kernel, by decide +kernel⟩
theorem witness_ComparisonsAndPredicates_4 :
    Runs (wordAt threadTest 0x0C3 { dst := 3, srcA := 1, srcB := 2, srcC := 1 }) 0x0C3 5 7 { dst := 3, srcA := 1, srcB := 2, srcC := 1 } groupTest blockTest := 
      ⟨by decide +kernel, by decide +kernel, by decide +kernel, by decide +kernel, by decide +kernel⟩
theorem witness_ComparisonsAndPredicates_5 :
    Runs (wordAt threadTest 0x0C4 { dst := 3, srcA := 0, srcB := 0, srcC := 0 }) 0x0C4 5 7 { dst := 3, srcA := 0, srcB := 0, srcC := 0 } groupTest blockTest := 
      ⟨by decide +kernel, by decide +kernel, by decide +kernel, by decide +kernel, by decide +kernel⟩
theorem witness_ComparisonsAndPredicates_6 :
    Runs (wordAt threadTest 0x0C5 { srcA := 1, srcB := 2, srcC := 0 }) 0x0C5 5 7 { srcA := 1, srcB := 2, srcC := 0 } groupTest blockTest := 
      ⟨by decide +kernel, by decide +kernel, by decide +kernel, by decide +kernel, by decide +kernel⟩
theorem witness_ComparisonsAndPredicates_7 :
    Runs (wordAt threadTest 0x200 { dst := 3, srcA := 1, srcB := 1, bcls := 2, srcC := 0, opx := 0x14 }) 0x200 5 7 { dst := 3, srcA := 1, srcB := 1, bcls := 2, srcC := 0, opx := 0x14 } groupTest blockTest := 
      ⟨by decide +kernel, by decide +kernel, by decide +kernel, by decide +kernel, by decide +kernel⟩
theorem witness_ComparisonsAndPredicates_8 :
    Runs (wordAt threadTest 0x300 { dst := 3, srcA := 0, srcB := 0, srcC := 0 }) 0x300 5 7 { dst := 3, srcA := 0, srcB := 0, srcC := 0 } groupTest blockTest := 
      ⟨by decide +kernel, by decide +kernel, by decide +kernel, by decide +kernel, by decide +kernel⟩
theorem witness_ComparisonsAndPredicates_9 :
    Runs (wordAt threadTest 0x301 { srcA := 0, srcB := 5, bcls := 2, srcC := 0 }) 0x301 5 7 { srcA := 0, srcB := 5, bcls := 2, srcC := 0 } groupTest blockTest := 
      ⟨by decide +kernel, by decide +kernel, by decide +kernel, by decide +kernel, by decide +kernel⟩

theorem witness_VotesOverActingLanes_1 :
    Runs (wordAt threadTest 0x201 { dst := 1, srcA := 2, srcB := 0, srcC := 0, opx := 6 }) 0x201 5 7 { dst := 1, srcA := 2, srcB := 0, srcC := 0, opx := 6 } groupTest blockTest := 
      ⟨by decide +kernel, by decide +kernel, by decide +kernel, by decide +kernel, by decide +kernel⟩
theorem witness_VotesOverActingLanes_2 :
    Runs (wordAt threadTest 0x201 { dst := 3, srcA := 2, srcB := 0, srcC := 0, opx := 3 }) 0x201 5 7 { dst := 3, srcA := 2, srcB := 0, srcC := 0, opx := 3 } groupTest blockTest := 
      ⟨by decide +kernel, by decide +kernel, by decide +kernel, by decide +kernel, by decide +kernel⟩

theorem witness_GroupReductions_1 :
    Runs (wordAt threadTest 0x202 { dst := 3, ud := true, srcA := 1, srcB := 0, srcC := 0, opx := 6 }) 0x202 5 7 { dst := 3, ud := true, srcA := 1, srcB := 0, srcC := 0, opx := 6 } groupTest blockTest := 
      ⟨by decide +kernel, by decide +kernel, by decide +kernel, by decide +kernel, by decide +kernel⟩

theorem witness_ControlFlowOfGroups_1 :
    Runs (wordAt threadTest 0x100 { srcA := 0, srcB := 0, bcls := 3, srcC := 0, lit := 0x40 }) 0x100 5 7 { srcA := 0, srcB := 0, bcls := 3, srcC := 0, lit := 0x40 } groupTest blockTest := 
      ⟨by decide +kernel, by decide +kernel, by decide +kernel, by decide +kernel, by decide +kernel⟩
theorem witness_ControlFlowOfGroups_2 : let w : TWord := { srcA := 0, srcB := 0, bcls := 3, srcC := 0, lit := 0x40 };
    w.guardUniform groupTest = true ∧ w.acting groupTest ≠ [] ∧ { w with guard := 1 }.guardUniform groupTest = false ∧
    { w with guard := 3 }.guardUniform groupTest = true ∧ { w with guard := 3 }.acting groupTest = [] := by decide +kernel
theorem witness_ControlFlowOfGroups_3 :
    Runs (wordAt threadTest 0x101 { srcA := 1, srcB := 0, bcls := 3, srcC := 0, lit := 0x2000000040 }) 0x101 5 7 { srcA := 1, srcB := 0, bcls := 3, srcC := 0, lit := 0x2000000040 } groupTest blockTest := 
      ⟨by decide +kernel, by decide +kernel, by decide +kernel, by decide +kernel, by decide +kernel⟩
theorem witness_ControlFlowOfGroups_4 : groupTest.stack.length + groupTest.spilled < depthOf blockTest ∧
    groupTest.stack.length < 16 := by decide +kernel
theorem witness_ControlFlowOfGroups_5 :
    Runs (wordAt threadTest 0x102 { srcA := 0, srcB := 0, srcC := 0 }) 0x102 5 7 { srcA := 0, srcB := 0, srcC := 0 } groupTest blockTest := 
      ⟨by decide +kernel, by decide +kernel, by decide +kernel, by decide +kernel, by decide +kernel⟩
theorem witness_ControlFlowOfGroups_6 : groupTest.stack = [{ joinPc := 8, elsePc := 0x20, pending := 1, saved := 0xFF }] ∧
    groupTest.pc = 8 ∧ groupTest.spilled = 0 := by decide +kernel
theorem witness_ControlFlowOfGroups_7 :
    Runs (wordAt threadTest 0x103 { guard := 1, srcA := 0, srcB := 0, srcC := 0 }) 0x103 5 7 { guard := 1, srcA := 0, srcB := 0, srcC := 0 } groupTest blockTest := 
      ⟨by decide +kernel, by decide +kernel, by decide +kernel, by decide +kernel, by decide +kernel⟩
theorem witness_ControlFlowOfGroups_8 : groupTest.live &&& ~~~(laneMask (({ guard := 1 } : TWord).acting groupTest)) ≠ 0 ∧
    groupTest.active &&& ~~~(laneMask (({ guard := 1 } : TWord).acting groupTest)) ≠ 0 ∧
    groupTest.live &&& ~~~(laneMask (({} : TWord).acting groupTest)) = 0 ∧ 7 ∈ blockTest.groups ∧
    blockTest.core = 5 := by decide +kernel
theorem witness_ControlFlowOfGroups_9 :
    Runs (wordAt threadTest 0x104 { srcA := 0, srcB := 0, srcC := 0 }) 0x104 5 7 { srcA := 0, srcB := 0, srcC := 0 } groupTest blockTest := 
      ⟨by decide +kernel, by decide +kernel, by decide +kernel, by decide +kernel, by decide +kernel⟩
theorem witness_ControlFlowOfGroups_10 : blockTest.groups = [7] ∧ blockTest.arrived = [] ∧
    (threadTest.setGroup 5 8 (some groupTest)).groupEnded 5 8 = false := by decide +kernel

theorem witness_LocalMemoryOfGroups_1 :
    Runs (wordAt threadTest 0x140 { dst := 3, srcA := 255, srcB := 4, bcls := 2, srcC := 0, opx := 4 }) 0x140 5 7 { dst := 3, srcA := 255, srcB := 4, bcls := 2, srcC := 0, opx := 4 } groupTest blockTest := 
      ⟨by decide +kernel, by decide +kernel, by decide +kernel, by decide +kernel, by decide +kernel⟩
theorem witness_LocalMemoryOfGroups_2 :
    Runs (wordAt threadTest 0x140 { dst := 4, srcA := 255, srcB := 16, bcls := 2, srcC := 0, opx := 6 }) 0x140 5 7 { dst := 4, srcA := 255, srcB := 16, bcls := 2, srcC := 0, opx := 6 } groupTest blockTest := 
      ⟨by decide +kernel, by decide +kernel, by decide +kernel, by decide +kernel, by decide +kernel⟩
theorem witness_LocalMemoryOfGroups_3 :
    Runs (wordAt threadTest 0x141 { srcA := 255, srcB := 4, bcls := 2, srcC := 1, opx := 4 }) 0x141 5 7 { srcA := 255, srcB := 4, bcls := 2, srcC := 1, opx := 4 } groupTest blockTest := 
      ⟨by decide +kernel, by decide +kernel, by decide +kernel, by decide +kernel, by decide +kernel⟩
theorem witness_LocalMemoryOfGroups_4 :
    Runs (wordAt threadTest 0x142 { dst := 3, srcA := 255, srcB := 1, srcC := 0, opx := 2 }) 0x142 5 7 { dst := 3, srcA := 255, srcB := 1, srcC := 0, opx := 2 } groupTest blockTest := 
      ⟨by decide +kernel, by decide +kernel, by decide +kernel, by decide +kernel, by decide +kernel⟩
theorem witness_LocalMemoryOfGroups_5 :
    ∀ k ∈ List.range 32, ({ srcA := 255, srcB := 4, bcls := 2 } : TWord).addrL groupTest k % 4 = 0 ∧
    ({ srcA := 255, srcB := 4, bcls := 2 } : TWord).addrL groupTest k + 4 ≤ blockTest.lmSize := by decide +kernel
theorem witness_LocalMemoryOfGroups_6 : ({ srcA := 255, srcB := 3, bcls := 2 } : TWord).addrL groupTest 0 % 4 ≠ 0 ∧
    blockTest.lmSize < ({ srcA := 255, srcB := 0xFC, bcls := 2 } : TWord).addrL groupTest 0 + 4 := by decide +kernel

theorem witness_FragmentsOfGroups_1 :
    Runs (wordAt threadTest 0x143 { dst := 4, srcA := 255, ua := true, srcB := 0, srcC := 255, uc := true, opx := 4 }) 0x143 5 7 { dst := 4, srcA := 255, ua := true, srcB := 0, srcC := 255, uc := true, opx := 4 } groupTest blockTest := 
      ⟨by decide +kernel, by decide +kernel, by decide +kernel, by decide +kernel, by decide +kernel⟩
theorem witness_FragmentsOfGroups_2 :
    Runs (wordAt threadTest 0x144 { srcA := 255, ua := true, srcB := 16, bcls := 2, srcC := 4, opx := 4 }) 0x144 5 7 { srcA := 255, ua := true, srcB := 16, bcls := 2, srcC := 4, opx := 4 } groupTest blockTest := 
      ⟨by decide +kernel, by decide +kernel, by decide +kernel, by decide +kernel, by decide +kernel⟩
theorem witness_FragmentsOfGroups_3 : ∀ k ∈ List.range 32, ∀ r ∈ List.range 4, ∀ a ∈ fragAddrs 4 0 16 r k, a % 4 = 0 ∧
    a + 4 ≤ blockTest.lmSize := by decide +kernel
theorem witness_FragmentsOfGroups_4 : ¬ ∀ a ∈ fragAddrs 3 2 16 1 31, a % 4 = 0 := by decide +kernel

theorem witness_WindowsOfGroups_1 :
    Runs (wordAt threadTest 0x184 { dst := 3, srcA := 9, ua := true, srcB := 4, bcls := 2, srcC := 0, opx := 4 }) 0x184 5 7 { dst := 3, srcA := 9, ua := true, srcB := 4, bcls := 2, srcC := 0, opx := 4 } groupTest blockTest := 
      ⟨by decide +kernel, by decide +kernel, by decide +kernel, by decide +kernel, by decide +kernel⟩
theorem witness_WindowsOfGroups_2 :
    Runs (wordAt threadTest 0x185 { srcA := 9, ua := true, srcB := 4, bcls := 2, srcC := 1, opx := 4 }) 0x185 5 7 { srcA := 9, ua := true, srcB := 4, bcls := 2, srcC := 1, opx := 4 } groupTest blockTest := 
      ⟨by decide +kernel, by decide +kernel, by decide +kernel, by decide +kernel, by decide +kernel⟩
theorem witness_WindowsOfGroups_3 : let a := ({ srcA := 9, ua := true, srcB := 4, bcls := 2 } : TWord).addrG groupTest 0;
    a % 4 = 0 ∧ windowOf a = some (5, 4) ∧ 4 + 4 ≤ threadTest.lmSize 5 ∧ (threadTest.partOf 5).isSome = true ∧
    threadTest.fenced 5 = false ∧ threadTest.sqAt 5 4 = none ∧ threadTest.sqAt 5 0x7FFFF = none := by decide +kernel
theorem witness_WindowsOfGroups_4 : windowOf 0 = none := by decide +kernel

theorem witness_GlobalMemoryOfGroups_1 :
    Runs (wordAt globalTest 0x180 { dst := 3, srcA := 8, ua := true, srcB := 4, bcls := 2, srcC := 0, opx := 0xC }) 0x180 5 7 { dst := 3, srcA := 8, ua := true, srcB := 4, bcls := 2, srcC := 0, opx := 0xC } groupTest blockTest := 
      ⟨by decide +kernel, by decide +kernel, by decide +kernel, by decide +kernel, by decide +kernel⟩
theorem witness_GlobalMemoryOfGroups_2 :
    Runs (wordAt globalTest 0x181 { srcA := 8, ua := true, srcB := 4, bcls := 2, srcC := 1, opx := 4 }) 0x181 5 7 { srcA := 8, ua := true, srcB := 4, bcls := 2, srcC := 1, opx := 4 } groupTest blockTest := 
      ⟨by decide +kernel, by decide +kernel, by decide +kernel, by decide +kernel, by decide +kernel⟩
theorem witness_GlobalMemoryOfGroups_3 :
    Runs (wordAt globalTest 0x182 { dst := 3, guard := 2, srcA := 8, ua := true, srcB := 1, srcC := 0, opx := 2 }) 0x182 5 7 { dst := 3, guard := 2, srcA := 8, ua := true, srcB := 1, srcC := 0, opx := 2 } groupTest blockTest := 
      ⟨by decide +kernel, by decide +kernel, by decide +kernel, by decide +kernel, by decide +kernel⟩
theorem witness_GlobalMemoryOfGroups_4 :
    Runs (wordAt globalTest 0x183 { srcA := 8, ua := true, srcB := 0, srcC := 0 }) 0x183 5 7 { srcA := 8, ua := true, srcB := 0, srcC := 0 } groupTest blockTest := 
      ⟨by decide +kernel, by decide +kernel, by decide +kernel, by decide +kernel, by decide +kernel⟩
theorem witness_GlobalMemoryOfGroups_5 :
    Runs (wordAt globalTest 0x2C0 { srcA := 0, srcB := 0, srcC := 0, opx := 2 }) 0x2C0 5 7 { srcA := 0, srcB := 0, srcC := 0, opx := 2 } { groupTest with remoteWrites := 0 } blockTest := 
      ⟨by decide +kernel, by decide +kernel, by decide +kernel, by decide +kernel, by decide +kernel⟩
theorem witness_GlobalMemoryOfGroups_6 : globalTest.globalFault 5 blockTest 0x1000 4 true true = none ∧
    globalTest.partOf 5 = some 3 ∧ globalTest.pinnedPieces 3 0x1000 4 = some [(0x2000, 4)] ∧
    globalTest.remoteOf 0x2000 = none ∧ globalTest.isMemoryRange 0x2000 4 = true ∧
    (globalTest.homeOf 0x2000).isSome = true ∧ globalTest.opRecords = [] ∧ ({ guard := 2 } : TWord).acting groupTest = [3] ∧
    globalTest.presence = [] ∧ globalTest.inFlight = [] := by decide +kernel
theorem witness_GlobalMemoryOfGroups_7 : Plain globalTest := ⟨rfl, rfl, fun _ => rfl⟩
theorem witness_GlobalMemoryOfGroups_8 : globalTest.globalFault 5 blockTest 0x1002 4 false false = some (4, 0x1002) ∧
    globalTest.globalFault 5 blockTest 0x5000000 4 false false = some (1, 0x5000000) := by decide +kernel
theorem witness_GlobalMemoryOfGroups_9 : (globalTest.setField .CORE_VE_CFG 5 0 7 4 8).l1Sets 5 = 0 ∧
    globalTest.l1Sets 5 ≠ 0 ∧ (globalTest.core 5).ve.misses = [] := by decide +kernel

theorem witness_WaitsSignalsAndPushesOfGroups_1 :
    Runs (wordAt globalTest 0x240 { dst := 3, ud := true, srcA := 10, ua := true, srcB := 0, bcls := 2, srcC := 0, opx := 1 }) 0x240 5 7 { dst := 3, ud := true, srcA := 10, ua := true, srcB := 0, bcls := 2, srcC := 0, opx := 1 } groupTest blockTest := 
      ⟨by decide +kernel, by decide +kernel, by decide +kernel, by decide +kernel, by decide +kernel⟩
theorem witness_WaitsSignalsAndPushesOfGroups_2 :
    Runs (wordAt globalTest 0x241 { dst := 3, ud := true, srcA := 10, ua := true, srcB := 5, bcls := 2, srcC := 0, opx := 1 }) 0x241 5 7 { dst := 3, ud := true, srcA := 10, ua := true, srcB := 5, bcls := 2, srcC := 0, opx := 1 } groupTest blockTest := 
      ⟨by decide +kernel, by decide +kernel, by decide +kernel, by decide +kernel, by decide +kernel⟩
theorem witness_WaitsSignalsAndPushesOfGroups_3 :
    Runs (wordAt globalTest 0x280 { dst := 3, ud := true, srcA := 1, srcB := 0, srcC := 0 }) 0x280 5 7 { dst := 3, ud := true, srcA := 1, srcB := 0, srcC := 0 } groupTest blockTest := 
      ⟨by decide +kernel, by decide +kernel, by decide +kernel, by decide +kernel, by decide +kernel⟩
theorem witness_WaitsSignalsAndPushesOfGroups_4 : (groupTest.ureg 10).toNat % 2 ^ 24 = 17 ∧
    globalTest.coreHandle 5 17 = true ∧ globalTest.waitMet (.group 5 7) (counterOf 5 17) 5 = false ∧
    globalTest.waitMet (.group 5 7) (counterOf 5 17) 0 = true ∧ globalTest.ownerElsewhere (counterOf 5 17) = none ∧
    globalTest.waitsAt (counterHome (counterOf 5 17)) < waitDepth ∧ traceBit (globalTest.mode 0 (.ve 5)).2 = false ∧
    ({} : TWord).acting groupTest ≠ [] := by decide +kernel
theorem witness_WaitsSignalsAndPushesOfGroups_5 : globalTest.partOf 5 = some 3 ∧ globalTest.targetOk 3 1 17 = true ∧
    groupTest.csigN < 2 ^ 27 ∧ globalTest.targetOk 3 0 0xFFFFFF = false ∧
    globalTest.coreHandle 5 0xFFFFFF = false := by decide +kernel
theorem witness_WaitsSignalsAndPushesOfGroups_6 : let g := { groupTest with status := .mqStall 1 (some 3) };
    let s := globalTest.setGroup 5 7 (some g); s.group 5 7 = some g ∧ s.block 0 g.block = some blockTest ∧
    (s.core 5).ve.stopped = false ∧ s.fenced 5 = false ∧ s.canAccept 5 1 = true ∧
    (firstFail (((s.countStall 5).endAsk 5).admissionFails 5 ((s.partOf 5).getD 16) 1 (groupDesc g 1)).1).isSome = true := by decide +kernel
theorem witness_WaitsSignalsAndPushesOfGroups_7 : let g := { groupTest with status := .signalling 0x38000000 };
    let x : Sig := { testSignal with msg := { testSignal.msg with seq := 0x38000000 } }; let st := blockStream 5 0 0;
    let s := (globalTest.setGroup 5 7 (some g)).setStream st.toNat { unsent := [x] }; s.group 5 7 = some g ∧
    (s.stream st.toNat).unsent = [x] ∧ g.status = .signalling (s.stamped st x).msg.seq ∧
    s.sourceReady st (s.stamped st x).msg.seq (s.stamped st x).msg.system = true ∧
    s.mayFollow (s.stream st.toNat) (s.stamped st x) = true ∧ homeModule (s.stamped st x).home = none := by decide +kernel

theorem witness_MatrixUnitRunsItsPasses_1 : let s := mmaTest []; (s.queue 5 1).oldestPending = some mmaEntry ∧
    s.entry 5 1 mmaEntry.acc = some mmaEntry ∧ mmaEntry.desc.opcode = 1 ∧ s.waitsMet 5 1 mmaEntry = true ∧
    s.engineStopped 5 1 = false ∧ s.fenced 5 = false ∧ traceBit (s.mode 0 (queueUnit 5 1)).2 = false ∧
    s.muMode 5 = 0 := by decide +kernel
theorem witness_MatrixUnitRunsItsPasses_2 : let s := mmaTest [mmaRun]; let r := mmaRun;
    let box := r.pairBox mmaEntry.desc (r.pass / r.spans); let ks := r.spanOf mmaEntry.desc r.pass;
    ((s.core 5).mu.runs.find? fun x => decide (x.pass < x.passes)) = some r ∧ s.partOf 5 = some 3 ∧
    s.entry 5 1 r.acc = some mmaEntry ∧ (s.core 5).mu.stopped = false ∧ s.passHeld 5 = false ∧
    s.muBlocked 5 r.acc ((opndA mmaEntry.desc).reads box.1 box.2.1 mmaEntry.desc.mmaK ks.1 ks.2) = false ∧
    (s.core 5).mu.live = 0 ∧ box = (0, 1, 0, 1) ∧ ks = (0, 256) := by decide +kernel
theorem witness_MatrixUnitRunsItsPasses_3 : let s := mmaBanks (mmaTest [{ mmaRun with pass := 2, rowChunks := 3 }]);
    ((s.core 5).mu.runs.find? fun x => decide (x.pass < x.passes)).isSome = true ∧
    (s.core 5).mu.live = 2 := by decide +kernel
theorem witness_MatrixUnitRunsItsPasses_4 : let r := { mmaRun with pass := 2, rowChunks := 2 };
    let s := mmaBanks (mmaTest [r]); (s.core 5).mu.oldest = some (mmaBank 7 0) ∧
    ((s.core 5).mu.runs.find? fun y => y.acc == (mmaBank 7 0).acc) = some r ∧
    (s.core 5).mu.undrained r (mmaBank 7 0) = false ∧ s.fenced 5 = false := by decide +kernel
theorem witness_MatrixUnitRunsItsPasses_5 : let r := { mmaRun with pass := 2, passed := 1, rowChunks := 2 };
    let s := (mmaTest [r]).modMU 5 fun u => { u with bankA := some (mmaBank 0 1) };
    (s.core 5).mu.oldest = some (mmaBank 0 1) ∧ (s.core 5).mu.undrained r (mmaBank 0 1) = true := by decide +kernel
theorem witness_MatrixUnitRunsItsPasses_6 : let r := { mmaRun with pass := 1, passed := 1 }; let s := mmaTest [r];
    let box := r.pairBox mmaEntry.desc r.closed; (s.core 5).mu.runs = [r] ∧ (r.closed + 1) * r.spans ≤ r.passed ∧
    box = (0, 1, 0, 1) ∧ outBytes mmaEntry.desc.ofmt = 4 ∧
    s.muPieces 5 3 (mmaEntry.desc.fld 88 8 + (box.1 + 0) * (mmaEntry.desc.fld 116 2 * 16) + box.2.2.1 * outBytes mmaEntry.desc.ofmt) 4 = some [(0x2000, 4)] ∧
    windowOf 0x2000 = none ∧ s.homesAsleep 0x2000 4 = false := by decide +kernel
theorem witness_MatrixUnitRunsItsPasses_7 : let s := mmaTest [{ mmaRun with acc := 3 }, mmaRun];
    let e := { mmaEntry with acc := 3 };
    let t := s.modCore 5 fun c => { c with queues := [(1, { accepted := 4, entries := [e, mmaEntry] })] };
    t.muBlocked 5 4 [(0x1000, 4)] = true ∧ t.muBlocked 5 3 [(0x1000, 4)] = false := by decide +kernel
theorem witness_MatrixUnitRunsItsPasses_8 : Plain (mmaTest []) := ⟨rfl, rfl, fun _ => rfl⟩

theorem witness_CubesFailAndRemap_1 : ccTest.logicalOf (ccTest.physOf 5) = some 5 ∧
    (ccTest.reg .CORE_MU_CUBES (ccTest.physOf 5)).getLsbD (16 + 3) = false ∧ ccTest.muMode 5 ≠ 2 ∧
    ccTest.workingCubes (ccTest.physOf 5) = 9 ∧ (ccTest.core 5).mu.runs = [] := by decide +kernel
theorem witness_CubesFailAndRemap_2 : ccTest.mayWrite .stoker { name := .CORE_MU_CUBES, i := 5 } = true ∧
    ccTest.mayWrite (.cc 3) { name := .CORE_MU_CUBES, i := 5 } = false ∧
    (ccTest.plainWrite { name := .CORE_MU_CUBES, i := 5 } 0x01FE0000).workingCubes 5 = 1 ∧
    (ccTest.plainWrite { name := .CORE_MU_CUBES, i := 5 } 0x00010008).workingCubes 5 = 8 := by decide +kernel
theorem witness_CubesFailAndRemap_3 : let s := ccTest.setReg .CORE_MU_CUBES 5 0 0x00080008;
    (s.reg .CORE_MU_CUBES 5).getLsbD (16 + 3) = true := by decide +kernel
theorem witness_CubesFailAndRemap_4 : let s := mmaTest [mmaRun];
    ∀ r ∈ (s.core 5).mu.runs, s.entry 5 1 r.acc = some mmaEntry ∧ mmaEntry.void = false := by decide +kernel

theorem witness_AttendCommandsRunOnGrates_1 : let s := attendTest []; (s.queue 5 6).oldestPending = some attendEntry ∧
    s.entry 5 6 attendEntry.acc = some attendEntry ∧ s.partOf 5 = some 3 ∧ attendEntry.desc.opcode = 1 ∧
    s.waitsMet 5 6 attendEntry = true ∧ s.engineStopped 5 6 = false ∧ traceBit attendEntry.mode.2 = false ∧
    s.partPieces 3 attendEntry.desc.seqt (64 * attendEntry.desc.nseq) = some [(0x2000, 64)] ∧
    windowOf 0x2000 = none := by decide +kernel
theorem witness_AttendCommandsRunOnGrates_2 : Plain (attendTest []) := ⟨rfl, rfl, fun _ => rfl⟩
theorem witness_AttendCommandsRunOnGrates_3 : let s := attendTest [attendCmd true]; (s.stack 2).reissue = [] ∧
    (s.turn 2).isSome = true ∧ (attendCmd true).seqs[0]? = some (attendSeq true) ∧
    (s.classify 2 5 3 attendEntry.desc (attendSeq true) 0).1 = (0, (0, 0), [(0, 0, 0, 0, 0)]) ∧ s.freeEngines 2 ≠ [] ∧
    s.allFailed 2 = false := by decide +kernel
theorem witness_AttendCommandsRunOnGrates_4 : let s := attendTest [attendCmd false];
    (s.classify 2 5 3 attendEntry.desc (attendSeq false) 0).1 = (5, (0, 0), []) ∧
    attendEntry.desc.heads * attendEntry.desc.partialBytes = 128 ∧
    s.partPieces 3 (attendSeq false).dst 128 = some [(0x2400, 128)] := by decide +kernel
theorem witness_AttendCommandsRunOnGrates_5 : let s := (attendTest [attendCmd true]).setReg .GRT_ENGINES 2 0 0xFFFF;
    s.allFailed 2 = true ∧ (s.turn 2).isSome = true := by decide +kernel
theorem witness_AttendCommandsRunOnGrates_6 :
    let s := (attendTest [attendCmd true]).modStack 2 fun x => { x with engines := [(4, some attendItem)] };
    SMap.get none (s.stack 2).engines 4 = some attendItem ∧ s.entry 5 6 attendItem.acc = some attendEntry ∧
    ((s.stack 2).active.find? fun y => y.core == 5 && y.acc == attendItem.acc) = some (attendCmd true) ∧
    (match (s.walkPages 2 5 3 attendEntry.desc attendItem.ents).1 with | .data pages => decide (pages.length = 1) | _ => false) = true ∧
    s.partPieces 3 (attendSeq true).q 32 = some [(0x2800, 32)] ∧
    attendEntry.desc.heads * attendEntry.desc.headDim * kvBytes attendEntry.desc.qFmt = 32 := by decide +kernel
theorem witness_AttendCommandsRunOnGrates_7 : let e := { attendEntry with st := .taken };
    let c := { attendCmd true with seq := 1 }; let s := (attendTest [c]).modEntry 5 6 attendEntry.acc fun _ => e;
    (s.queue 5 6).entries = [e] ∧ ((s.stack 2).active.find? fun y => y.core == 5 && y.acc == e.acc) = some c ∧
    c.due e.desc = none ∧ c.outstanding = 0 := by decide +kernel
theorem witness_AttendCommandsRunOnGrates_8 : (State.reset.reg .GRT_ENGINES 2).getLsbD 4 = false := by decide +kernel

theorem witness_DmaMovesRowsAndElements_1 : Plain (dmaTest 1) := ⟨rfl, rfl, fun _ => rfl⟩
theorem witness_DmaMovesRowsAndElements_2 :
    DmaStarted (dmaTest 1) 5 3 (dmaEntry 1) 1 := by unfold DmaStarted; decide +kernel
theorem witness_DmaMovesRowsAndElements_3 :
    DmaStarted (dmaTest 5) 5 3 (dmaEntry 5) 5 := by unfold DmaStarted; decide +kernel
theorem witness_DmaMovesRowsAndElements_4 :
    DmaStarted (dmaTest 2) 5 3 (dmaEntry 2) 2 := by unfold DmaStarted; decide +kernel
theorem witness_DmaMovesRowsAndElements_5 :
    DmaStarted (dmaTest 6) 5 3 (dmaEntry 6) 6 := by unfold DmaStarted; decide +kernel
theorem witness_DmaMovesRowsAndElements_6 :
    DeReaches (dmaTest 1) 5 3 255 0x31000500000 16 0x31000500000 := 
      dmaReaches 1 0x31000500000 16 (by decide +kernel) (by decide +kernel) (by decide +kernel) (by decide +kernel) (by decide +kernel) rfl (by decide +kernel)
theorem witness_DmaMovesRowsAndElements_7 : let d := (dmaEntry 1).desc; d.copyRows = 1 ∧ d.fld 88 4 = 16 ∧
    d.fld 92 1 = 255 ∧ d.fld 72 8 = 0x31000500000 ∧ d.fld 80 8 = 0x31000500100 := by decide +kernel
theorem witness_DmaMovesRowsAndElements_8 : let d := (dmaEntry 5).desc; d.fld 92 4 = 1 ∧ d.fld 88 4 = 16 ∧
    d.fld 104 1 = 255 := by decide +kernel
theorem witness_DmaMovesRowsAndElements_9 : let d := (dmaEntry 2).desc; d.fld 96 4 = 1 ∧ d.esize = 16 ∧ d.idxWidth = 4 ∧
    d.fld 120 4 = 0 ∧ (dmaTest 2).elemOk 5 3 d 0 = true ∧ (dmaTest 2).load 0x31000500200 4 = 0 := by decide +kernel
theorem witness_DmaMovesRowsAndElements_10 : let d := (dmaEntry 6).desc; d.isDense = true ∧ d.fld 96 4 = 1 ∧
    natBits (d.fld 116 1) 3 0 = 2 ∧ d.esize = 4 := by decide +kernel

theorem witness_BucketSortsItsRecords_1 : DmaStarted (dmaTest 4) 5 3 (dmaEntry 4) 4 := by unfold DmaStarted; decide +kernel
theorem witness_BucketSortsItsRecords_2 :
    DeReaches (dmaTest 4) 5 3 255 0x31000500000 8 0x31000500000 := 
      dmaReaches 4 0x31000500000 8 (by decide +kernel) (by decide +kernel) (by decide +kernel) (by decide +kernel) (by decide +kernel) rfl (by decide +kernel)
theorem witness_BucketSortsItsRecords_3 : let d := (dmaEntry 4).desc; d.fld 96 4 = 1 ∧ d.recBytes = 8 ∧ d.fld 103 1 = 255 ∧
    d.fld 104 1 = 255 ∧ d.fld 105 1 = 255 ∧ d.fld 88 8 = 0x31000500100 := by decide +kernel

theorem witness_TranslationFaultsAndTables_1 :
    let e := { dmaEntry 1 with walk := some ({ field := 72, ctx := 255, addr := 0x1000 }, false) };
    let s := (dmaTest 1).modEntry 5 2 (dmaEntry 1).acc fun _ => e; s.entry 5 2 e.acc = some e ∧ s.partOf 5 = some 3 ∧
    e.discs = [] ∧ e.fault = none ∧
    (match (s.combined 5 3 255 0x1000 true true).1 with | .fault k _ => decide (k = 2) | _ => false) = true := by decide +kernel
theorem witness_TranslationFaultsAndTables_2 : let s := faultTest; s.partOf 5 = some 3 ∧
    s.mayWrite .stoker { name := .MOD_XLT_RESOLVE, i := 3 } = true ∧ (s.faulted 5 1).isSome = true ∧
    s.entry 5 2 (dmaEntry 1).acc = s.faulted 5 1 := by decide +kernel
theorem witness_TranslationFaultsAndTables_3 : State.reset.mayWrite .stoker { name := .MOD_XLT_FR_HEAD, i := 3 } = true ∧
    (State.reset.part 3).faults = [] := by decide +kernel
theorem witness_TranslationFaultsAndTables_4 : State.reset.mayWrite .stoker { name := .MOD_XLT_SWAP, i := 3 } = true ∧
    (0x80000001 : W32).getLsbD 31 = true ∧ (State.reset.reg .MOD_XLT_SWAP 3).getLsbD 30 = false := by decide +kernel
theorem witness_TranslationFaultsAndTables_5 : let s := State.reset.modPart 3 fun x => { x with swap := some (0, 0, 0, 0) };
    (s.part 3).swap = some (0, 0, 0, 0) ∧ (s.swapReason 3 0 0 0 0).1 = 2 := by decide +kernel
theorem witness_TranslationFaultsAndTables_6 : let s := swapTest; (s.part 3).swap = some (0x2000, 1, 0x2800, 0) ∧
    (s.swapReason 3 0x2000 1 0x2800 0).1 = 0 ∧ s.marked 3 = false := by decide +kernel
theorem witness_TranslationFaultsAndTables_7 : State.reset.mayWrite .stoker { name := .MOD_XLT_INV, i := 3 } = true ∧
    (State.reset.reg .MOD_XLT_INV 3).getLsbD 31 = false := by decide +kernel
theorem witness_TranslationFaultsAndTables_8 : let s := State.reset.modPart 3 fun x => { x with inval := some 7 };
    (s.part 3).inval = some 7 ∧ s.marked 3 = false := by decide +kernel

theorem witness_SignalsApplyAtTheirHome_1 : let s := signalTest; (s.stream (ccStream 5).toNat).unsent = [testSignal] ∧
    s.sourceReady (ccStream 5) testSignal.msg.seq testSignal.msg.system = true ∧
    s.mayFollow (s.stream (ccStream 5).toNat) (s.stamped (ccStream 5) testSignal) = true ∧
    homeModule (s.stamped (ccStream 5) testSignal).home = none ∧
    (s.stream (ccStream 5).toNat).sent = [] := by decide +kernel
theorem witness_SignalsApplyAtTheirHome_2 : let s := signalTest; s.behind testSignal.msg = false ∧
    s.triggersOn testSignal.msg.ctr = [] ∧ s.sigOutcome testSignal.msg = .applied ∧
    testSignal.msg.kind = .add := by decide +kernel
theorem witness_SignalsApplyAtTheirHome_3 :
    (signalTest.sigOutcome { testSignal.msg with ctr := 0x80005 }) = .refused := by decide +kernel
theorem witness_SignalsApplyAtTheirHome_4 :
    let s := signalTest.setStream (ccStream 5).toNat { sent := [{ testSignal with slot := 1, msg := { testSignal.msg with seq := 0 } }, testSignal] };
    s.behind testSignal.msg = true := by decide +kernel
theorem witness_SignalsApplyAtTheirHome_5 :
    let s := { signalTest with deliveries := [{ home := counterHome testSignal.msg.ctr, stream := ccStream 5, seq := testSignal.msg.seq, module := none }] };
    s.sigOutcome testSignal.msg = .duplicate := by decide +kernel

theorem witness_BarriersAndTheView_1 : Untraced signalTest := untraced_plain _ rfl (by decide +kernel)
theorem witness_BarriersAndTheView_2 : let s := slotTest; s.arrivalSent 5 3 0 = none ∧ s.arrivalBehind 5 3 0 = false ∧
    s.nodeAwake (3 / 16) = true ∧ s.slotGroup 3 = false ∧ s.slotEnabled 3 = true ∧ (s.slotMask 3).getLsbD 5 = true ∧
    (0 : W64).toNat ≤ (s.barrier 3).phase.toNat + 1 ∧ s.phaseDone 3 = false := by decide +kernel
theorem witness_BarriersAndTheView_3 : let s := slotTest;
    s.slotMask 3 &&& ~~~((s.barrier 3).cur ||| BitVec.twoPow 1024 5) = 0 ∧ s.slotMask 3 &&& ~~~(s.barrier 3).nxt ≠ 0 ∧
    s.slotParent 3 = false ∧ s.field .FCH_SLOT_COMP 3 0 23 0 = 0x800007 ∧ 2 ≤ handleScope 0x800007 ∧ s.slotPart 3 = some 3 ∧
    s.validHandle 3 0x800007 = true ∧ s.ownerElsewhere (counterOf 0 0x800007) = none ∧
    s.triggersOn (counterOf 0 0x800007) = [] := by decide +kernel
theorem witness_BarriersAndTheView_4 : let s := slotTest.setReg .FCH_SLOT_MASK 3 0 0x60;
    s.slotMask 3 &&& ~~~((s.barrier 3).cur ||| BitVec.twoPow 1024 5) ≠ 0 := by decide +kernel
theorem witness_BarriersAndTheView_5 :
    (slotTest.setReg .MOD_PWR_STATE 16 0 4).nodeAwake (3 / 16) = false := by decide +kernel
theorem witness_BarriersAndTheView_6 : (slotTest.slotMask 3).getLsbD 6 = false ∧
    slotTest.mayWrite .stoker { name := .FCH_SLOT_CFG, i := 3 } = true ∧ (0x7FFFFFFF : W32).getLsbD 31 = false ∧
    RegName.ofSlot .FCH_SLOT_CFG = true := by decide +kernel
theorem witness_BarriersAndTheView_7 :
    let s := signalTest.setCounter 0x60007 { value := 9, waiters := [{ who := .cc 5, expected := 12 }], lastSrc := 7 };
    s.mayWrite .stoker { name := .FCH_VIEW_SEL } = true ∧
    s.viewCounter .stoker (bitsOf (0x800007 : W32) 23 0) = some 0x60007 ∧ s.ownerElsewhere 0x60007 = none ∧
    (s.counter 0x60007).waiters.length ≤ 16 ∧ (s.reg .FCH_VIEW_SEL).getLsbD 31 = false := by decide +kernel
theorem witness_BarriersAndTheView_8 : signalTest.viewCounter .stoker 0xC00000 ≠ none ∧
    signalTest.viewCounter .stoker (bitsOf (0x7FFFFF : W32) 23 0) = none := by decide +kernel

theorem witness_WaitsRegisterAndWake_1 : let s := ccStalled (.cwait 7 (counterOf 5 17) 5);
    s.standsIn (.cc 5) (counterOf 5 17) 5 = true ∧ s.nodeAwake (counterDie (counterOf 5 17)) = true ∧
    (s.value (counterOf 5 17)).toNat < 5 ∧ s.ownerElsewhere (counterOf 5 17) = none ∧
    s.waitsAt (counterHome (counterOf 5 17)) < waitDepth := by decide +kernel
theorem witness_WaitsRegisterAndWake_2 : let s := ccStalled (.cwait 7 (counterOf 5 17) 0);
    s.standsIn (.cc 5) (counterOf 5 17) 0 = true ∧ s.damperActive = false ∧ s.wakeHeld (.cc 5) = false ∧
    s.ownerElsewhere (counterOf 5 17) = none := by decide +kernel
theorem witness_WaitsRegisterAndWake_3 :
    Untraced (ccStalled (.cwait 7 (counterOf 5 17) 0)) := untraced_plain _ rfl (by decide +kernel)
theorem witness_WaitsRegisterAndWake_4 : let x : Wait := { who := .cc 5, expected := 5 };
    let s := { ccStalled (.cwait 7 (counterOf 5 17) 5) with retries := [(counterOf 5 17, x)] };
    (s.retries.find? fun r => decide (r.2.who = .cc 5)) = some (counterOf 5 17, x) ∧
    s.standsIn (.cc 5) (counterOf 5 17) 5 = true := by decide +kernel
theorem witness_WaitsRegisterAndWake_5 : let x : Wait := { who := .cc 5, expected := 5, met := some 9 };
    let s := (ccStalled (.cwait 7 (counterOf 5 17) 5)).setCounter (counterOf 5 17) { value := 9, waiters := [x] };
    s.satisfied (.cc 5) = some (counterOf 5 17, x, 9) ∧ s.damperActive = false ∧
    s.wakeHeld (.cc 5) = false := by decide +kernel
theorem witness_WaitsRegisterAndWake_6 : let g := { groupTest with status := .waiting (some 3) (counterOf 5 17) 0 true };
    let s := globalTest.setGroup 5 7 (some g); s.standsIn (.group 5 7) (counterOf 5 17) 0 = true ∧ s.group 5 7 = some g ∧
    s.wakeHeld (.group 5 7) = false := by decide +kernel
theorem witness_WaitsRegisterAndWake_7 : let x : Wait := { who := .cc 5, expected := 5, met := some 9 };
    let s := (globalTest.setField .MOD_DAMP_STATUS 0 0 31 29 3).setCounter (counterOf 5 17) { value := 9, waiters := [x] };
    s.damperActive = true ∧ s.satisfied (.cc 5) = some (counterOf 5 17, x, 9) ∧
    s.wakeHeld (.cc 5) = false := by decide +kernel
theorem witness_WaitsRegisterAndWake_8 : let w : Waiter := .entry 5 2 4;
    let x : Wait := { who := w, expected := 5, met := some 9 };
    let s := ccTest.setCounter (counterOf 5 17) { value := 9, waiters := [x] };
    s.satisfied w = some (counterOf 5 17, x, 9) ∧ s.damperActive = false := by decide +kernel

theorem witness_MemoryOperationsAndGoldenCopies_1 :
    let op : MemOp := { src := .plain, code := 2, sgn := false, addr := 0x2000, operand := 5, cmp := 0 };
    globalTest.isMemoryRange 0x2000 4 = true ∧ (globalTest.homeOf 0x2000).isSome = true ∧ globalTest.opRecords = [] ∧
    globalTest.homesAsleep 0x2000 4 = false ∧ memOpBytes op.code = 4 ∧
    State.reset.isMemoryRange 0x2000 4 = false := by decide +kernel
theorem witness_MemoryOperationsAndGoldenCopies_2 : let s := goldTest 0;
    s.mayWrite .stoker { name := .MOD_GOLD_CTRL, i := 3 } = true ∧
    s.mayWrite (.cc 5) { name := .MOD_GOLD_CTRL, i := 4 } = false ∧ (s.goldens 3).length = 1 := by decide +kernel
theorem witness_MemoryOperationsAndGoldenCopies_3 : let s := goldTest 0x10000; (s.goldens 3)[0]? = some testGolden ∧
    (s.reg .MOD_GOLD_STATUS 3).getLsbD 16 = true ∧
    ∀ o ∈ List.range 256, s.byte (testGolden.near + o) = s.byte (testGolden.ring + o) := by decide +kernel
theorem witness_MemoryOperationsAndGoldenCopies_4 : let s := { goldTest 0x10000 with mem := [(0x2004, 7)] };
    s.byte (testGolden.near + 4) ≠ s.byte (testGolden.ring + 4) ∧ 4 < testGolden.len := by decide +kernel
theorem witness_MemoryOperationsAndGoldenCopies_5 : Plain (goldTest 0x10000) := ⟨rfl, rfl, fun _ => rfl⟩

theorem witness_MemoryErrorsAndSpares_1 : State.reset.place 0x2000 = none ∧ State.reset.isScratch 0x2000 = false ∧
    scratchTest.isScratch scratchBase = true ∧ scratchTest.place scratchBase = none ∧
    State.reset.homeOf 0x2000 = none := by decide +kernel
theorem witness_MemoryErrorsAndSpares_2 : globalTest.place 0x2000 = some { ring := false, unit := 2, within := 0 } ∧
    globalTest.domainState 22 = pwOn ∧
    (globalTest.setReg .MOD_PWR_STATE 22 0 4).domainState 22 = pwParked := by decide +kernel
theorem witness_MemoryErrorsAndSpares_3 : let s := goldTest 1;
    s.place 0x2000 = some { ring := false, unit := 2, within := 0 } ∧ s.armedAt 0x2000 = some (3, 0, false) ∧
    (s.goldens 3)[0]? = some testGolden ∧
    s.lineReads (testGolden.ring + (0x2000 - testGolden.near)) = true := by decide +kernel
theorem witness_MemoryErrorsAndSpares_4 : let s := globalTest; (s.place 0x2000).map (·.ring) = some false ∧
    s.coveringEntries 0x2000 = [] ∧ s.coveringBlocks 0x2000 = [] ∧ s.armedAt 0x2000 = none ∧
    (s.homeOf 0x2000).isSome = true ∧ windowOf 0x2000 = none ∧ s.isScratch 0x2000 = false := by decide +kernel
theorem witness_MemoryErrorsAndSpares_5 : (State.reset.reg .STK_REPAIR 2).getLsbD 8 = false := by decide +kernel
theorem witness_MemoryErrorsAndSpares_6 :
    let s := { globalTest with hearth := [((globalTest.homeOf 0x2000).getD 0, [(0x40, false, 3)])] };
    ((SMap.get [] s.hearth ((s.homeOf 0x2000).getD 0)).find? fun e => e.1 == 0x2000 / 128) = some (0x2000 / 128, false, 3) := by decide +kernel

theorem witness_TemperaturesStepTheThrottles_1 : (State.reset.stackCurve 2).length < 16 ∧ State.reset.sto.overtemp = false ∧
    throttleStep (State.reset.stackCurve 2) 0 1000 = 1 ∧ throttleStep (State.reset.stackCurve 2) 2 985 = 2 ∧
    throttleStep (State.reset.stackCurve 2) 2 979 = 1 := by decide +kernel
theorem witness_TemperaturesStepTheThrottles_2 : (1100 : W16).toNat = 1100 ∧ (1049 : W16).toNat < 1100 := by decide +kernel

theorem witness_StreamQueuesPushAndRelease_1 : let s := sqTest {}; s.sqEnabled 5 2 = true ∧ s.sqForDe 5 2 = false ∧
    s.sq 5 2 = {} ∧ s.sqSlots 5 2 = 16 ∧ s.sqConsumer 5 2 = 6 ∧ s.physOf 5 = 5 := by decide +kernel
theorem witness_StreamQueuesPushAndRelease_2 : let s := sqTest { used := 15 }; (s.sq 5 2).used - (s.sq 5 2).freed + 2 = 17 ∧
    s.sqSlots 5 2 = 16 := by decide +kernel
theorem witness_StreamQueuesPushAndRelease_3 : let s := sqTest { used := 3, forming := 3, packets := [] };
    0 < (s.sq 5 2).forming ∧ (s.sq 5 2).used - (s.sq 5 2).freed ≤ 16 := by decide +kernel
theorem witness_StreamQueuesPushAndRelease_4 : let s := sqTest { used := 3, packets := [(0, 2)], packetNo := 1 };
    (s.sq 5 2).packets = [(0, 2)] ∧ bitsOf (0 : W64) 55 32 = (s.sq 5 2).headNo ∧
    s.triggersOn (5 * 256 + bitsOf (s.sqCfg 5 2) 15 8) = [] ∧
    bitsOf (0x100000000 : W64) 55 32 ≠ (s.sq 5 2).headNo := by decide +kernel
theorem witness_StreamQueuesPushAndRelease_5 : let s := ccTest; s.logicalOf 5 = some 5 ∧
    s.mayWrite .stoker { name := .CORE_SQ_CFG, i := 5, j := 2 } = true ∧ (s.reg .CORE_SQ_CFG 5 2).getLsbD 31 = false ∧
    s.sqAllowed 5 2 0x80640200 = false ∧ bitsOf (0x80640200 : W32) 19 16 = 4 ∧
    (sqTest {}).logicalOf 5 = some 5 := by decide +kernel
theorem witness_StreamQueuesPushAndRelease_6 : ccTest.mayWrite .stoker { name := .CORE_SQ_RESV, i := 5 } = true ∧
    (ccTest.core 5).ve.resident = 0 ∧ (ccTest.core 5).ve.splitPending = none ∧ bitsOf (0x41 : W32) 6 0 = 65 ∧
    (missTest.core 5).ve.resident ≠ 0 := by decide +kernel

theorem witness_ArbitersAndObservation_1 : (State.reset.arbCfg (.die 1)).normal = 2048 ∧ State.reset.obsWaiting = none ∧
    (State.reset.arb (.core 5)).waiting = [] := by decide +kernel
theorem witness_ArbitersAndObservation_2 :
    let r : ArbReq := { from' := 1, core := some 5, bytes := 64, background := false };
    let s := State.reset.setArb (.region 2) { waiting := [r], seen := [(1, some 5)] };
    (s.arb (.region 2)).waiting[0]? = some r ∧ (s.arb (.region 2)).seen.any (fun e => e.1 == 1) = true ∧
    ((s.arb (.region 2)).grant (.region 2)).map (·.1) = some r := by decide +kernel
theorem witness_ArbitersAndObservation_3 : let s := obsTest; s.pair .MOD_OBS_EXP_LO .MOD_OBS_EXP_HI = 0x2000 ∧
    s.field .MOD_OBS_CFG 0 0 15 0 = 1 ∧ s.field .MOD_OBS_CFG 0 0 20 16 = 1 ∧ s.obsWaiting = none ∧
    s.obsBudget < exportBytes ∧ s.isMemoryRange 0x2000 exportBytes = true := by decide +kernel
theorem witness_ArbitersAndObservation_4 : Plain obsTest := ⟨rfl, rfl, fun _ => rfl⟩

theorem witness_LinksTrainAndSpare_1 : let s := linkTest 1; SMap.get [] s.cfg.tables 5 = [] ∧
    s.field .FLP_STATUS 4 0 22 21 ≠ 2 ∧ s.linkState 4 = 1 ∧ 4 ≤ popcount (0x1FF : BitVec 9).toNat 9 := by decide +kernel
theorem witness_LinksTrainAndSpare_2 : (linkTest 3).linkState 4 = 3 ∧ (linkTest 4).linkState 4 = 4 ∧
    ((linkTest 4).port 4).txq = [] ∧ ((linkTest 4).port 4).deadline = some 9 := by decide +kernel
theorem witness_LinksTrainAndSpare_3 : let s := linkTest 5; s.linkState 4 = 5 ∧ (s.port 4).mapped.getLsbD 3 = true ∧
    (s.port 4).mapped.getLsbD 8 = false ∧
    popcount (mapWaves (~~~(s.failedWaves 4 ||| 1#9 <<< 3))).toNat 9 = 8 := by decide +kernel
theorem witness_LinksTrainAndSpare_4 : let s := linkTest 6; s.linkState 4 = 6 ∧
    mapWaves (~~~(s.failedWaves 4 ||| ~~~(0x1FE : BitVec 9))) = 0x1FE ∧
    popcount (mapWaves (~~~(s.failedWaves 4 ||| ~~~(0x007 : BitVec 9)))).toNat 9 = 3 := by decide +kernel
theorem witness_LinksTrainAndSpare_5 : let s : State := { linkTest 5 with lasers := 0x03 };
    let rest : BitVec 8 := s.lasers &&& ~~~(1#8 <<< 0); (rest.getLsbD 0 || rest.getLsbD 1) = true ∧
    (let r2 := rest &&& ~~~(1#8 <<< 1); (r2.getLsbD 0 || r2.getLsbD 1) = false) := by decide +kernel

theorem witness_FlitsAreAcknowledgedAndRetried_1 : let s := linkTest 5; s.portActive 4 = true ∧ (s.port 4).nakSent = false ∧
    (s.port 4).naksAt.length < 16 ∧ (s.port 4).txq = [] := by decide +kernel
set_option maxRecDepth 20000 in
theorem witness_FlitsAreAcknowledgedAndRetried_2 : let f : Flit := { idleFlit with type := 1, head := true };
    (flitOf (flitBytes f)).any (fun g => !g.nak && g.seq == ((linkTest 5).port 4).rxNext) = true ∧
    (linkTest 3).portActive 4 = false ∧ (linkTest 5).hostRole 4 = false ∧ flitOf [] = none := by decide +kernel
theorem witness_FlitsAreAcknowledgedAndRetried_3 : let s := hostLinkTest; s.portActive 34 = true ∧ s.hostRole 34 = true ∧
    s.hostPort = some 34 := by decide +kernel
theorem witness_FlitsAreAcknowledgedAndRetried_4 :
    let s := (linkTest 5).modPort 4 fun x => { x with unackedRx := 3, swapTime := some 9, nakSent := true };
    0 < (s.port 4).unackedRx ∧ (s.port 4).swapTime = some 9 ∧ (s.port 4).nakSent = true ∧
    ((linkTest 5).port 4).owed = [] := by decide +kernel

theorem witness_PacketsAreServed_1 : let s := packetTest; let pk := testPacket 0x01; s.damper.quiet = false ∧
    s.aged 4 pk = false ∧ pk.dst.toNat = s.moduleId ∧ s.rmtRefusal pk false = none ∧ s.rmtRefusal pk true = none ∧
    pk.data.length = pk.len.toNat ∧ s.routeOut pk.src.toNat opReadData = .send 4 3 := by decide +kernel
theorem witness_PacketsAreServed_2 : let s := packetTest.setReg .RMT_SRC 0 0 0;
    s.rmtRefusal (testPacket 0x01) false = some 2 ∧ s.field .FLP_STATUS 4 0 22 21 = 0 := by decide +kernel
theorem witness_PacketsAreServed_3 : let s := packetTest; let pk : Packet := { testPacket 0x01 with dst := 0x101 };
    s.aged 4 pk = false ∧ pk.dst.toNat ≠ s.moduleId ∧ s.aged 4 { pk with born := 0 } = true := by decide +kernel
theorem witness_PacketsAreServed_4 : let s := askedTest 0x01 (.cc 5);
    s.asked { testPacket 0x03 with op := 0x03 } [opRead] = some (testRemote 0x01 (.cc 5)) ∧
    (testRemote 0x01 (.cc 5)).pk.op.toNat = opRead := by decide +kernel
theorem witness_PacketsAreServed_5 : let s := askedTest 0x02 (.cc 5);
    s.asked { testPacket 0x04 with op := 0x04 } [opWrite] = some (testRemote 0x02 (.cc 5)) ∧ s.agesStop = false ∧
    s.remotes.filter (fun e => e.1 % 2 ^ 32 == 7) = [(7, some (testRemote 0x02 (.cc 5)))] := by decide +kernel
theorem witness_PacketsAreServed_6 : let s := ownerTest 0; let pk := { testPacket 0x10 with addr := 0xC00005 };
    let m : SigMsg := { ctr := 0x80005, kind := .add, stream := some pk.tag, seq := pk.seq, src := 0, operand := 1 };
    s.ownsHere 0xC00005 = true ∧ natBits pk.addr.toNat 25 24 ≤ 1 ∧ counterOf 0 (natBits pk.addr.toNat 23 0) = 0x80005 ∧
    handleScope (natBits pk.addr.toNat 23 0) = 3 ∧ s.triggersOn 0x80005 = [] ∧
    s.sigOutcome m (some pk.src.toNat) = .applied ∧ s.sysOwner 5 = some s.moduleId := by decide +kernel
theorem witness_PacketsAreServed_7 : let s := ownerTest 3; s.ownerElsewhere 0x80005 = some 3 ∧ s.triggersOn 0x80005 = [] ∧
    (testPacket 0x13).src.toNat = 3 := by decide +kernel
theorem witness_PacketsAreServed_8 : Plain packetTest := ⟨rfl, rfl, fun _ => rfl⟩

theorem witness_TimeFollowsItsSources_1 : let s : State := { State.reset with freeCtr := 3 }; s.pending = [] ∧
    s.time.offset = 0 ∧ (s.cores.map (·.1)).Nodup ∧ s.corrected = [] ∧ s.cfg.timeRole = 0 ∧ s.upstream = none ∧
    s.time.holdover = false ∧ s.time.refOk = true := by decide +kernel
theorem witness_TimeFollowsItsSources_2 : let s : State := { State.reset with time := { phase := 4999, offset := 3 } };
    (s.time.phase + 1) % 5000 = 0 ∧ 0 < s.time.offset ∧ s.time.hold = [] := by decide +kernel
theorem witness_TimeFollowsItsSources_3 :
    let s : State := { linkTest 5 with cfg := { (linkTest 5).cfg with timeRole := 0, upPrimary := 4 } };
    s.upstream = some 4 ∧ s.portActive 4 = true ∧ s.sto.ready = false ∧ s.time.locked = false := by decide +kernel
theorem witness_TimeFollowsItsSources_4 :
    let s : State := { State.reset with cfg := { State.reset.cfg with timeRole := 1, pulse := true } }; s.cfg.timeRole = 1 ∧
    s.cfg.pulse = true ∧ s.gtb.toNat < 2 ^ 63 ∧ s.sto.ready = false ∧ s.time.pps = none ∧
    s.time.ppsLost = false := by decide +kernel
theorem witness_TimeFollowsItsSources_5 : let s : State := { State.reset with time := { gtb := [(0, 7), (1, 9), (2, 4)] } };
    (s.gtb - s.gtb 1).toInt < 0 ∧ 0 < (s.gtb - s.gtb 2).toInt ∧ s.gtb 1 ≠ s.gtb := by decide +kernel

theorem witness_RegistersAndAliases_1 : let r : RegRef := { name := .RMT_BASE_HI, i := 3 };
    hostLinkTest.mayWrite .pf0 r = true ∧ State.reset.mayWrite .stoker r = true ∧ r.name ∈ plainRegs ∧
    r.name.rwLow = some .RMT_BASE_LO ∧ State.reset.mayWrite (.vf 2) r = false := by decide +kernel
theorem witness_RegistersAndAliases_2 : let r : RegRef := { name := .CORE_FP_FLAGS, i := 5 };
    State.reset.mayWrite .stoker r = true ∧ r.name.maskOf .rw = 0 ∧
    RegName.rwLow .RMT_BASE_HI = some .RMT_BASE_LO := by decide +kernel

theorem witness_HostReachesRegistersAndMemory_1 : hostLinkTest.hostPort = some 34 ∧ State.reset.hostPort = none ∧
    csrAt 0x80000 = .reg { name := .RMT_BASE_LO } .plain ∧ inDebugWindow 0x80000 = false ∧ csrAt 0x80400 = .hole ∧
    inBlocks 0x6000000 = false := by decide +kernel
theorem witness_HostReachesRegistersAndMemory_2 : let r : RegRef := { name := .RMT_BASE_LO }; r.name.maskOf .ls = 0 ∧
    r.name.maskOf .rc = 0 ∧ r.name.lsHigh = none ∧ isView r.name = false := by decide +kernel
theorem witness_HostReachesRegistersAndMemory_3 : let s := hostLinkTest; s.hostPort = some 34 ∧ csrOffset 0x2000 = none ∧
    windowOf 0x2000 = none ∧ s.inRow 0x2000 64 = true ∧ s.isMemoryRange 0x2000 64 = true ∧ s.homesAsleep 0x2000 64 = false ∧
    s.remoteOf 0x2000 = none ∧ csrOffset 0x35000000000 = none ∧ windowOf 0x35000000000 = none ∧
    s.inRow 0x35000000000 8 = false := by decide +kernel
theorem witness_HostReachesRegistersAndMemory_4 : let s := hostLinkTest.setReg .MOD_PWR_STATE 22 0 4;
    s.hostPort.isSome = true ∧ s.isMemoryRange 0x2000 8 = true ∧ s.homesAsleep 0x2000 8 = true := by decide +kernel
theorem witness_HostReachesRegistersAndMemory_5 : Plain hostLinkTest := ⟨rfl, rfl, fun _ => rfl⟩
theorem witness_HostReachesRegistersAndMemory_6 : let s := hostLinkTest.setReg .CLU_CORE_MAP 0 0 0xF6543210;
    windowOf (localAddr 7 64) = some (7, 64) ∧ csrOffset (localAddr 7 64) = none ∧ 64 + 8 ≤ s.lmSize 7 ∧
    s.remoteOf (localAddr 7 64) = none ∧ s.fenced 7 = true := by decide +kernel
theorem witness_HostReachesRegistersAndMemory_7 : hostTest.hostPort = some 34 ∧ hostTest.present (.vf 4) = false ∧
    hostTest.present (.vf 3) = true ∧ hostTest.present .pf0 = true := by decide +kernel
theorem witness_HostReachesRegistersAndMemory_8 : let s := hostTest; let h := s.field .DB_CFG 3 2 23 0;
    s.mayWrite (.vf 3) { name := .DB_RING_HI, i := 3, j := 2 } = true ∧ h = 0x800007 ∧ 2 ≤ handleScope h ∧
    s.validHandle 3 h = true ∧ s.ownerElsewhere (counterOf 0 h) = none ∧ counterScope (counterOf 0 h) = some (2, 7) ∧
    s.triggersOn (counterOf 0 h) = [] ∧ s.field .DB_CFG 3 2 25 24 = 0 ∧ s.hostLink.held = [] := by decide +kernel
theorem witness_HostReachesRegistersAndMemory_9 : let s := hostTest;
    s.mayWrite (.vf 3) { name := .DB_RING_HI, i := 4, j := 2 } = false ∧ s.field .DB_CFG 3 1 23 0 = 0 ∧
    trigVector (.vf 3) 9 = true ∧ trigVector (.vf 3) 7 = false ∧ s.triggerOk 4 9 0x800007 = true ∧
    s.ownerElsewhere (counterOf 0 0x800007) = none ∧ s.pair .TRIG_LO .TRIG_HI 4 9 ≤ (s.value (counterOf 0 0x800007)).toNat ∧
    s.msixMasked 4 9 = false := by decide +kernel
theorem witness_HostReachesRegistersAndMemory_10 :
    let s := { hostTest with hostLink := { held := [{ fn := .vf 3, targets := [(localAddr 7 64, 1)], data := some [1] }] } };
    ∃ b ∈ s.hostLink.held, b.data ≠ none ∧ b.fn = .vf 3 := by decide +kernel

theorem witness_DebugModuleActs_1 : CcAt (ccFetch 0x00100073) 5 0x00100073 4 := by unfold CcAt CcIssues; decide +kernel
theorem witness_DebugModuleActs_2 : let s := ccFetch 0x00100073; (s.cc 5).halted = false ∧ s.fenced 5 = false ∧
    (s.cc 5).atBoundary = true ∧ ((s.cc 5).csr csrDcsr).getLsbD 15 = false := by decide +kernel
theorem witness_DebugModuleActs_3 : let s := haltedTest; (s.cc 5).halted = true ∧ s.fetchWord 5 = encI 5 3 0 7 0x13 ∧
    s.imaged 5 = true ∧ s.fenced 5 = false ∧ s.quiesced 5 = false ∧ (s.cc 5).stopped = false ∧ (s.cc 5).stall = none ∧
    ((s.cc 5).csr csrDcsr).getLsbD 15 = true := by decide +kernel
theorem witness_DebugModuleActs_4 :
    let s := ccTest.modCC 5 fun c => { c with csrs := [(0x107A1, 0x6000000000001000), (0x207A1, 0x6000000000000000)] };
    (SMap.get 0 (s.cc 5).csrs 0x107A1).toNat / 2 ^ 60 = 6 ∧ (SMap.get 0 (s.cc 5).csrs 0x107A1).toNat / 2 ^ 12 % 16 = 1 ∧
    (SMap.get 0 (s.cc 5).csrs 0x207A1).toNat / 2 ^ 12 % 16 = 0 ∧
    (SMap.get 0 (s.cc 5).csrs 0x307A1).toNat / 2 ^ 60 = 0 := by decide +kernel
theorem witness_DebugModuleActs_5 : let s := haltedTest; s.ccPlace 5 (privBase + 0x10000) 8 = .priv 0x10000 ∧
    s.ccPlace 5 (counterBase + 8 * (5 * 256 + 17)) 8 = .counter (5 * 256 + 17) ∧ s.ownerElsewhere (5 * 256 + 17) = none ∧
    csrExists true 0x305 = true ∧ csrExists true 0x123 = false := by decide +kernel
theorem witness_DebugModuleActs_6 : let s := haltedTest; s.dmGet 0x20 = encI 5 3 0 7 0x13 ∧ s.dmGet 0x21 = 0x00100073 ∧
    globalTest.inRow 0x2000 8 = true ∧ globalTest.isMemoryRange 0x2000 8 = true ∧
    globalTest.homesAsleep 0x2000 8 = false := by decide +kernel
theorem witness_DebugModuleActs_7 : Plain globalTest := ⟨rfl, rfl, fun _ => rfl⟩

theorem witness_FailuresAndRepair_1 : let s := ccTest; s.unplaced 5 = false ∧ s.hasSpare 0 = true := by decide +kernel
theorem witness_FailuresAndRepair_2 : let s := ccTest.setField .CLU_SPARE 0 0 3 0 15; s.unplaced 5 = false ∧
    s.hasSpare 0 = false ∧ s.slotOf 5 = 5 := by decide +kernel
theorem witness_FailuresAndRepair_3 : let s := ccTest.beginMigration 5 true; s.unplaced 5 = true ∧
    (s.cluster 0).migrating = [(5, true, 5)] ∧ s.field .CLU_SPARE 0 0 3 0 = 8 ∧ s.hostLink.held = [] ∧
    (s.core 5).lost = false := by decide +kernel
theorem witness_FailuresAndRepair_4 : let e := nopEntry .pending;
    (queueTest e).entry 5 2 e.acc = some e := by decide +kernel
theorem witness_FailuresAndRepair_5 : let s := lagTest; (s.cores.map (·.1)).Nodup ∧
    (s.reg .RGN_LAG_CFG 0).getLsbD 31 = true ∧ bitsOf (s.reg .RGN_LAG_CFG 0) 15 8 = 1 ∧ (s.paces 0).length = 3 ∧
    ((s.paces 0).filter fun x => s.slow 0 (s.paces 0) x).map (fun x => (x.core, x.engine)) = [(5, .ve)] ∧
    (SMap.get 0 (s.region 0).lag (lagKey 5 .ve) + 1) * 64 < 1000 ∧ s.hasSpare 0 = true := by decide +kernel
theorem witness_FailuresAndRepair_6 : let s := lagTest.modRegion 0 fun y => { y with lag := [(21, 15)] };
    1000 ≤ (SMap.get 0 (s.region 0).lag (lagKey 5 .ve) + 1) * 64 ∧ s.lagOf 0 .mu (s.region 0).lag 5 = none ∧
    (s.reg .CLU_SPARE 0).getLsbD 30 = false := by decide +kernel
theorem witness_FailuresAndRepair_7 : let s := ccTest.setReg .CLU_TEST 0 0 0x80000000; (s.cluster 0).test = none ∧
    (s.cluster 0).nextSlot = 0 ∧ s.skipSlice 0 0 = false ∧ s.logicalOf 0 = some 0 := by decide +kernel
theorem witness_FailuresAndRepair_8 : let s := ccTest.setField .CLU_SPARE 0 0 3 0 15;
    s.mayWrite .stoker { name := .CLU_TEST, i := 0 } = true ∧ s.skipSlice 0 0 = true := by decide +kernel
theorem witness_FailuresAndRepair_9 : let s := ccTest.modCluster 0 fun x => { x with test := some 5 };
    (s.cluster 0).test = some 5 ∧ (s.cluster 0).migrating = [] := by decide +kernel
theorem witness_FailuresAndRepair_10 : let s := ccTest.setReg .MOD_LOSS_CFG 3 0 0x80000000;
    s.mayWrite .stoker { name := .MOD_LOSS_CFG, i := 3 } = true ∧ (s.reg .MOD_LOSS_CFG 3).getLsbD 31 = true ∧
    s.damperActive = false ∧ 5 ∈ s.coresOf 3 := by decide +kernel
theorem witness_FailuresAndRepair_11 : let s := ccTest; s.partOf 5 = some 3 ∧ s.coveringEntries (localAddr 5 0x1000) = [] ∧
    s.coveringBlocks (localAddr 5 0x1000) = [] := by decide +kernel
theorem witness_FailuresAndRepair_12 : let r : AshRec := { time := 7, src := 0, kind := 5, severity := 0 };
    let s := { ccTest.setReg .STO_ALOG_STATUS 0 0 1 with sto := { ash := [{ r with time := 9 }, r] } }; s.readable = 1 ∧
    oldestRec s.sto.ash = some r ∧ s.mayWrite .stoker { name := .STO_ALOG_POP } = true := by decide +kernel

theorem witness_PowerDomainsAndPoints_1 : let s := ccTest.setReg .MOD_PWR_STATE 3 0 0; s.absentDomain 3 = false ∧
    s.hostLink.held = [] ∧ SMap.get false s.pwrBusy 3 = false ∧ SMap.get [] s.pwrHeld 3 = [] ∧
    findEntry (s.stateTable (domainTable 3) (builtinPower (domainTable 3))) (s.domainState 3) 1 = some ⟨0, 1, 1, 1, 10000000⟩ ∧
    s.domainState 3 ≠ 2 ∧ s.sto.overtemp = false := by decide +kernel
theorem witness_PowerDomainsAndPoints_2 : let s := { ccTest with pwrBusy := [(3, true)] };
    SMap.get false s.pwrBusy 3 = true ∧ s.mayWrite .stoker { name := .MOD_PWR_EVENT } = true := by decide +kernel
theorem witness_PowerDomainsAndPoints_3 : let s := ccTest.setReg .MOD_PWR_STATE 20 0 4; SMap.get [] s.pwrHeld 20 = [] ∧
    findEntry (s.stateTable 2 (builtinPower 2)) (s.domainState 20) 4 = some ⟨4, 4, 0, 4, 0⟩ ∧
    s.offRefused 20 = false := by decide +kernel
theorem witness_PowerDomainsAndPoints_4 : let s := ccTest.setReg .MOD_PWR_STATE 0 0 3; s.offRefused 0 = true ∧
    s.mayWrite .stoker { name := .MOD_PWR_EVENT } = true ∧
    findEntry (s.stateTable 0 (builtinPower 0)) (s.domainState 0) 9 = none := by decide +kernel
theorem witness_PowerDomainsAndPoints_5 : (ccTest.setReg .MOD_PWR_STATE 0 0 4).regionRuns 0 = false := by decide +kernel
theorem witness_PowerDomainsAndPoints_6 : let s := pointTest; (s.region 0).move = none ∧ s.curve 0 ≠ [] ∧ s.point 0 = 1 ∧
    (s.curve 0)[s.point 0]? = some ⟨1000, 700, 30⟩ ∧
    s.mayWrite (.cc 5) { name := .RGN_PERF_REQ, i := 0, j := 3 } = true := by decide +kernel
theorem witness_PowerDomainsAndPoints_7 : let s := pointTest.setField .RGN_DVFS_STATUS 0 0 15 0 900;
    s.regionTemp 1 + 300 < s.regionTemp 0 ∧ s.point 1 < s.point 0 := by decide +kernel
theorem witness_PowerDomainsAndPoints_8 :
    let s := pointTest.modRegion 0 fun x => { x with move := some (.slewUp 2), lowSince := some 0 };
    (s.region 0).move = some (.slewUp 2) ∧ (s.region 0).lowSince = some 0 := by decide +kernel

theorem witness_ModesAndTheDamperStop_1 : let s := ccTest; s.mayWrite .stoker { name := .MOD_MODE_CTRL, i := 3 } = true ∧
    (s.reg .MOD_MODE_CTRL 3).getLsbD 30 = false ∧ s.reg .MOD_MODE_NEXT 3 = 0 := by decide +kernel
theorem witness_ModesAndTheDamperStop_2 : let s := modeTest; (s.reg .MOD_MODE_CTRL 3).getLsbD 30 = true ∧
    (s.part 3).modeUnits = [] ∧ .dist 0 ∈ s.modeUnitsOf 3 ∧ s.atBoundary 3 1 (.dist 0) = true ∧ s.damperActive = false ∧
    (s.part 3).modeHandle = 0x800011 ∧ handleScope 0x800011 = 2 ∧ s.ownerElsewhere 0x60011 = none ∧
    s.triggersOn 0x60011 = [] := by decide +kernel
theorem witness_ModesAndTheDamperStop_3 : let s := damperTest 0; s.mayWrite .stoker { name := .MOD_DAMP_CTRL } = true ∧
    s.pair .MOD_DAMP_TIME_LO .MOD_DAMP_TIME_HI = 5000 ∧ s.gtb = 0 ∧ s.damperState = 0 ∧
    s.pair .MOD_DAMP_BUF_LO .MOD_DAMP_BUF_HI = 0x1000 := by decide +kernel
theorem witness_ModesAndTheDamperStop_4 : let s := damperTest 1; s.damperState = 1 ∧
    s.damper.stops = [] := by decide +kernel
theorem witness_ModesAndTheDamperStop_5 : Untraced (damperTest 1) := untraced_plain _ rfl (by decide +kernel)
theorem witness_ModesAndTheDamperStop_6 : let s := damperTest 2; s.damperState = 2 ∧ s.hasStopped (.sched 0) = false ∧
    s.atStop (.sched 0) = true ∧ s.fabricQuiet = true := by decide +kernel
theorem witness_ModesAndTheDamperStop_7 : let s := damperTest 4; s.damperState = 4 ∧ s.damper.heldWakes = [] ∧
    (List.range 36).all (fun p => (s.port p).held.isEmpty) = true := by decide +kernel

theorem witness_KindlingAndImages_1 : let s := ccTest; s.mayWrite .stoker { name := .STO_KS_CTRL, i := 3 } = true ∧
    (s.reg .STO_KS_STATUS 3).getLsbD 0 = false := by decide +kernel
theorem witness_KindlingAndImages_2 : let s := ccTest.setReg .STO_KS_STATUS 3 0 1;
    s.mayWrite .stoker { name := .STO_KS_CTRL, i := 3 } = true ∧
    (s.reg .STO_KS_STATUS 3).getLsbD 0 = true := by decide +kernel
theorem witness_KindlingAndImages_3 : let s := ksTest; s.sto.subs = [testSub] ∧ s.sto.copied = none ∧
    s.sto.verified = none ∧ testSub.len = 8 ∧ s.subPieces testSub = some [{ module := none, addr := 0x2000, len := 8 }] ∧
    windowOf 0x2000 = none := by decide +kernel
theorem witness_KindlingAndImages_4 : Plain ksTest := ⟨rfl, rfl, fun _ => rfl⟩
theorem witness_KindlingAndImages_5 : let s := { ccTest with sto := { copied := some (testSub, some []) } };
    s.repairing 16 = false ∧
    (s.setField .STO_KS_CTRL 16 0 0 0 0).checkStream 16 (some 0) [] = .error (0, 0x02) := by decide +kernel
theorem witness_KindlingAndImages_6 : let s := ksVerified; s.sto.verified = some (testSub, [testFold], 7, 0) ∧
    s.unrested [testFold] = none ∧ testFold.type = 0x0E := by decide +kernel
theorem witness_KindlingAndImages_7 : let s := { ccTest with sto := { verified := some (testSub, [testFold], 7, 0) } };
    s.unrested [testFold] = some 1 := by decide +kernel
theorem witness_KindlingAndImages_8 : let s := imageTest; s.partCfg 3 = some testPart ∧
    s.loadReason 3 testPart testImage = 0 := by decide +kernel
theorem witness_KindlingAndImages_9 : let s := pinnedTest; s.partCfg 3 = some testPart ∧
    s.loadReason 3 testPart testImage = 0x010B := by decide +kernel

theorem witness_StartUpAndManagement_1 : let s := State.reset; s.sto.standby = false ∧
    s.sto.imgA.sigOk = false := by decide +kernel
theorem witness_StartUpAndManagement_2 : let s := standbyTest 0; s.sto.standby = true ∧ s.sto.pg48 = false ∧
    s.recovery = false ∧ s.sto.resetLow = false ∧ s.managed = true := by decide +kernel
theorem witness_StartUpAndManagement_3 : let s := bootTest 1; s.managed = true ∧ s.sto.pg48 = true ∧
    s.sto.resetLow = false ∧ s.sto.ready = false ∧ (s.reg .STO_BOOT_STATUS).getLsbD 26 = false ∧ s.bootPhase = 1 ∧
    s.cfg.tables = [] ∧ s.pwrBusy = [] ∧ s.pwrHeld = [] ∧ s.domainState 0 = 0 := by decide +kernel
theorem witness_StartUpAndManagement_4 : let s := bootTest 2; s.bootPhase = 2 ∧
    s.checkStream 16 none s.sto.flashActive = .error (0, 0x02) := by decide +kernel
theorem witness_StartUpAndManagement_5 : let s := bootTest 3; s.bootPhase = 3 ∧ s.unusable { badSlots := [5] } = none ∧
    badSlotsIn { badSlots := [5] } 0 = [5] := by decide +kernel
theorem witness_StartUpAndManagement_6 : let s := bootTest 7; s.bootPhase = 7 ∧ s.sto.ready = false := by decide +kernel
theorem witness_StartUpAndManagement_7 : let s := (bootTest 6).setField .FLP_STATUS 34 0 22 21 1; s.bootPhase = 6 ∧
    s.field .FLP_STATUS 34 0 22 21 = 1 := by decide +kernel
theorem witness_StartUpAndManagement_8 :
    let s := { bootTest 1 with sto := { (bootTest 1).sto with overtemp := true, resetLow := true } }; s.managed = true ∧
    s.sto.overtemp = true ∧ s.sto.resetLow = true := by decide +kernel
theorem witness_StartUpAndManagement_9 : let s := standbyTest 0; s.sensor (.stackTemp 3) = some 0 ∧
    s.sensor .modulePower = none ∧ s.readable = 0 ∧ s.measurement 2 = some 0 ∧ s.keySlot 1 = .empty := by decide +kernel

/-! ### Words and numbers that the manual works out -/

/-- The example of 5.2, Table 5.4: `@!p3 ffma.rn v10, v4, u2, v7`. -/
def exampleFfma : TWord := { gneg := true, guard := 3, dst := 10, srcA := 4, srcB := 2, srcC := 7, bcls := 1 }
theorem test_table_5_4_word : exampleFfma.encode 0x042 = 0x10AC2810081C4000 := by decide
theorem test_table_5_4_word_decodes : TWord.decode 0x10AC2810081C4000 0 = some (0x042, exampleFfma) := by decide

/-- Table 5.1 field by field: opcode 0x013 (MOV, Table 5.5), unguarded, DST 9, SRCB unused beside the literal, BCLS 3, LIT 1,
YIELD 1. -/
theorem test_mov_literal_word : ({ dst := 9, srcA := 0, srcB := 0, srcC := 0, bcls := 3, yld := true, lit := 7 } : TWord).words 0x013 =
    [0b0000010011_0_111_00001001_00000000_00000000_00000000_0_0_11_0_00000000000_1_1#64, 7] := by decide
theorem test_lit_without_class_is_no_word : TWord.decode 0x10AC2810081C4002 0 = none := by decide

/-- Table 3.9: the descriptor of the DMA copy gated on a partial stream. -/
def exampleDesc : Desc := descOf [
  0x01, 0xA3, 0x00, 0x00, 0x12, 0x04, 0x00, 0x00, 0x11, 0x00, 0x00, 0x00, 0x00, 0x00, 0x00, 0x00,
  0x05, 0x00, 0x00, 0x00, 0x00, 0x00, 0x00, 0x00, 0x2C, 0x01, 0x80, 0x00, 0x00, 0x00, 0x00, 0x00,
  0x29, 0x00, 0x00, 0x00, 0x00, 0x00, 0x00, 0x00, 0x12, 0x00, 0x00, 0x00, 0x00, 0x00, 0x00, 0x00,
  0x01, 0x00, 0x00, 0x00, 0x00, 0x00, 0x00, 0x00, 0x2D, 0x01, 0x80, 0x01, 0x00, 0x00, 0x00, 0x00,
  0x07, 0x00, 0x00, 0x00, 0x00, 0x00, 0x00, 0x00]
theorem test_table_3_9_header : exampleDesc.opcode = 1 ∧ exampleDesc.engine = 3 ∧ exampleDesc.spanTag = 0x412 := by decide +kernel
theorem test_table_3_9_waits : exampleDesc.waitSlots = [(0x11, 5), (0x80012C, 41)] := by decide +kernel
theorem test_table_3_9_signals : (exampleDesc.sigSlots.map fun x => (x.handle, x.kind, x.operand)) =
    [(0x12, 0, 1), (0x80012D, 1, 7)] := by decide +kernel

/-- The example after Table 1.4: the MU of core 389 and grate engine 11 of stack 7, on module 5. -/
theorem test_source_numbers : sourceNo 5 2 0 0 5 2 = 0x0001602A ∧ sourceNo 5 2 1 6 11 4 = 0x0001675C := by decide
/-- Table 1.5: logical core 389. -/
theorem test_table_1_5 : State.reset.physOf 389 = 437 ∧ localAddr 389 0 = 0x31018500000 ∧
    (RegRef.mk .CORE_CC_CFG 437 0).offset.map (fun o => (csrBase + o) / 2 ^ 16) = some (0x3F041B50000 / 2 ^ 16) ∧
    (RegRef.mk .CLU_DIST_CFG 48 0).offset.map (fun o => (csrBase + o) / 2 ^ 18) = some (0x3F020C00000 / 2 ^ 18) := by
  decide +kernel

/-- Table 6.4: conversions from FP32 to E2M1 and to table 0 of P4. -/
def table0 (c : Nat) : Byte := State.reset.p4Entry 3 0 c
theorem test_table_6_4_e2m1 : ([0x80000000, 0x3FA00000, 0xC0200000, 0x41100000].map fun x =>
    toElem table0 7 .rne (fp32.decode x)) = [(8, 0), (2, flInexact), (12, flInexact), (7, flOverflow + flInexact)] := by
  decide +kernel
/-- 0.75 reaches the smallest normal of E2M1 only through subnormal rounding, so that R176 calls it tiny; the table's flags
column, which serves both formats, names inexact alone (log entry 35). -/
theorem test_table_6_4_tiny : toElem table0 7 .rne (fp32.decode 0x3F400000) = (2, flUnderflow + flInexact) := by decide +kernel
theorem test_table_6_4_p4 : ([0x80000000, 0x3F400000, 0x3FA00000, 0xC0200000, 0x41100000].map fun x =>
    toElem table0 12 .rne (fp32.decode x)) = [(0, 0), (1, flInexact), (2, flInexact), (12, flInexact), (7, flOverflow + flInexact)] := by
  decide +kernel
/-- The example before Table 6.10: 1 + 2^-4 + 2^-30 as XA96, as FP32 under RNE and RTO, and on to E4M3. -/
def drained : Val := .fin false (2 ^ 30 + 2 ^ 26 + 1) (-30)
theorem test_xa96_example : drained.xa96 = 0x3FFF88000002000000000000 := by decide +kernel
theorem test_table_6_10 : fp32.round .rne drained = (0x3F880000, flInexact) ∧ fp32.round .rto drained = (0x3F880001, flInexact) ∧
    e4m3.round .rne (fp32.decode 0x3F880000) = (0x38, flInexact) ∧ e4m3.round .rne (fp32.decode 0x3F880001) = (0x39, flInexact) ∧
    e4m3.round .rne drained = (0x39, flInexact) := by decide +kernel

/-- The published check values of CRC-32C (of the text 123456789) and of SHA-384 (of the text abc). -/
theorem test_crc32c : crc32c [0x31, 0x32, 0x33, 0x34, 0x35, 0x36, 0x37, 0x38, 0x39] = 0xE3069283 := by decide +kernel
theorem test_sha384 : sha384 [0x61, 0x62, 0x63] =
    0xCB00753F45A35E8BB5A03D699AC65007272C32AB0EDED1631A8B605A43FF5BED8086072BA1E7CC2358BAECA134C825A7#384 := by decide +kernel

/-! ### The queue -/

theorem test_commands_run_in_order : (match step { State.reset with pending := [.ppsEdge, .refclkLoss] } with
    | .next t => t.pending == [.refclkLoss]
    | _ => false) = true := by decide +kernel
theorem test_no_word_spells_a_command : State.reset.withFetchWord 64 0x10AC2810081C4000 = State.reset := by decide +kernel

/-! ### Terms that are not well formed, one for each check -/

theorem test_wf_accepts : Instr.wf (.ffma 5 7 exampleFfma) = true := by decide
theorem test_wf_qpush_funct7 : Instr.wf (.qpush 5 1 2 3 1) = false := by decide
theorem test_wf_qstat_funct7 : Instr.wf (.qstat 5 1 2 64) = false := by decide
theorem test_wf_cwait_funct7 : Instr.wf (.cwait 5 1 2 3 127) = false := by decide
theorem test_wf_gtb_funct7 : Instr.wf (.gtb 5 1 2) = false := by decide
theorem test_wf_csig_kind : Instr.wf (.csig 5 1 2 3 3) = false ∧ Instr.wf (.csig 5 1 2 3 2) = true := by decide
theorem test_wf_load_width : Instr.wf (.ccLoad 5 1 2 0 7) = false := by decide
theorem test_wf_store_width : Instr.wf (.ccStore 5 1 2 0 4) = false := by decide
theorem test_wf_amo_code : Instr.wf (.ccAmo 5 0x02 ⟨false, false, true⟩ 1 2 3) = false := by decide
theorem test_wf_snoop_line : Instr.wf (.readSnoop 5 (2 ^ 34)) = false ∧ Instr.wf (.ownershipSnoop 5 (2 ^ 34)) = false := by decide
theorem test_wf_request_length : Instr.wf (.homeRequest (.host .pf0) (.read 0 0 false)) = false ∧
    Instr.wf (.homeRequest (.host .pf0) (.read 0 4097 false)) = false := by decide
theorem test_wf_request_end : Instr.wf (.homeRequest (.host .pf0) (.write (2 ^ 42 - 1) [0, 0])) = false := by decide
theorem test_wf_image_arenas : Image.wf
    { digestOk := true, claoc2 := true, digest := 0, programs := [], noImemStore := true, templatesOk := true, templates := []
      fixedFieldsOk := true, certs := [], spanBase := 0, arenas := List.replicate 65 {}, spans := [], kernels := [], pinnedRanges := [], rings := []
      needClusters := 0, needModCounters := 0, needRgnCounters := 0, needSysCounters := 0, needBarriers := 0 } = false := by decide
theorem test_wf_queue_selector : Instr.wf (.instrStart 5 3) = false ∧ Instr.wf (.instrComplete 5 3 0) = false ∧
    Instr.wf (.instrCommit 5 3 0) = false ∧ Instr.wf (.recordStoreUe 5 3 0 .bothCopies) = false := by decide
theorem test_wf_l1_line : Instr.wf (.l1Fill 5 (2 ^ 35)) = false := by decide
theorem test_wf_signal_kind : Instr.wf (.signalAdd ⟨17, .raise, none, 0, 0, 1⟩) = false ∧
    Instr.wf (.signalRaise ⟨17, .add, none, 0, 0, 1⟩) = false := by decide
theorem test_wf_signal_counter : Instr.wf (.signalAdd ⟨0x3FFFF, .add, none, 0, 0, 1⟩) = false ∧
    Instr.wf (.waitRegister (.cc 5) 0x3FFFF 1) = false := by decide
theorem test_wf_register_exists : Instr.wf (.registerWrite .pf0 ⟨.CORE_CC_CFG, 100000, 0⟩ 0) = false ∧
    Instr.wf (.setAliasWrite .pf0 ⟨.STO_KS_CTRL, 17, 0⟩ 0) = false := by decide
theorem test_wf_memory_place : Instr.wf (.nearUe nearEnd .other) = false ∧
    Instr.wf (.memSideOp ⟨.plain, 0, false, scratchEnd, 0, 0⟩) = false := by decide
theorem test_wf_item_bytes : Instr.wf (.itemPush 5 0 true (List.replicate 63 none)) = false ∧
    Instr.wf (.headerPush 5 0 true (List.replicate 65 none)) = false := by decide
theorem test_wf_credit_counts : Instr.wf (.linkCreditsReceive 0 [1, 2]) = false := by decide
theorem test_wf_flit_bytes : Instr.wf (.flitReceive 0 [1]) = false := by decide
theorem test_wf_read_carries_nothing : Instr.wf (.read 0 ⟨1, 1, 2, 0, 0, 0, 4, 0, 0, [1, 2, 3, 4]⟩) = false := by decide
theorem test_wf_write_length : Instr.wf (.write 0 ⟨1, 2, 2, 0, 0, 0, 4, 0, 0, [1, 2, 3]⟩) = false := by decide
theorem test_wf_host_lengths : Instr.wf (.hostRead .pf0 .bar2 0 0) = false ∧ Instr.wf (.hostRead .pf0 .bar2 0 4097) = false ∧
    Instr.wf (.hostWrite .pf0 .bar2 0 []) = false := by decide
theorem test_wf_sysbus_address : Instr.wf (.sysbusAccess (2 ^ 42) none) = false := by decide
set_option exponentiation.threshold 400 in
theorem test_wf_key_exchange : Instr.wf (.spdmKeyExchange (2 ^ 384) 0) = false ∧ Instr.wf (.spdmKeyExchange 0 (2 ^ 384)) = false := by
  decide
set_option exponentiation.threshold 400 in
theorem test_wf_signature : Instr.wf (.provision 0 0 ⟨none, 0, none, 2 ^ 384, 1⟩) = false ∧
    Instr.wf (.revoke 0 ⟨none, 0, none, 1, 2 ^ 384⟩) = false := by decide
theorem test_wf_access_width : Instr.wf (.accessMemory 5 0 4 none) = false := by decide
theorem test_wf_literal_needs_class : Instr.wf (.mov 5 7 { lit := 1 }) = false := by decide

end Sys2Proof.Tests
end

section
/-!
Register writes: what storing a register's word changes, the registers whose write does no more than that, and the forms of a
write as instructions. O53 is assembled from them.
-/

namespace Sys2Proof.Machine

open Sys2Proof

variable (s : State) (a : Agent) (r : RegRef)

/-! ### Where registers lie -/

theorem RegName.place_counts_le (n : RegName) : n.place.ni ≤ 4096 ∧ n.place.nj ≤ 4096 := by
  cases n <;> decide

variable {s a r} in
/-- An agent may write only a register that exists (R382). -/
theorem State.exists_of_mayWrite (h : s.mayWrite a r = true) : r.i < r.name.place.ni ∧ r.j < r.name.place.nj := by
  have hex : r.exists? = true := (Bool.and_eq_true_iff.mp h).1
  simpa only [RegRef.exists?, Bool.and_eq_true, decide_eq_true_eq] using hex

variable {s a r} in
/-- The indices of a register that is written are within those that a key tells apart. -/
theorem State.indices_lt_of_mayWrite (h : s.mayWrite a r = true) : r.i < 4096 ∧ r.j < 4096 := by
  have hex := State.exists_of_mayWrite h
  have hle := RegName.place_counts_le r.name
  omega

variable {s a} in
/-- Each core has one CORE_FP_FLAGS. -/
theorem State.eq_zero_of_mayWrite_coreFpFlags {i j : Nat} (h : s.mayWrite a ⟨.CORE_FP_FLAGS, i, j⟩ = true) : j = 0 := by
  have hj : j < 1 := (State.exists_of_mayWrite h).2
  omega

/-- The low word of a pair is no high word: pairs do not overlap (R379). -/
theorem RegName.rwLow_of_rwLow {hi lo : RegName} (h : hi.rwLow = some lo) : lo.rwLow = none := by
  cases hi <;> cases h <;> rfl

theorem RegName.ne_of_rwLow {hi lo : RegName} (h : hi.rwLow = some lo) : hi ≠ lo := by
  rintro rfl
  cases h.symm.trans (RegName.rwLow_of_rwLow h)

/-! ### Storing a register's word -/

/-- Only the register file and the words of pairs in effect change. -/
theorem State.storeReg_frame (w : W32) :
    s.storeReg r w = { s with regs := (s.storeReg r w).regs, effLo := (s.storeReg r w).effLo } := by
  unfold State.storeReg
  split <;> rfl

theorem State.storeReg_of_rwLow_none (w : W32) (h : r.name.rwLow = none) :
    s.storeReg r w = s.setReg r.name r.i r.j w := by
  simp only [State.storeReg, h]

theorem State.sameBytes_storeReg (w : W32) : SameBytes s (s.storeReg r w) :=
  sameBytes_of_eq (by rw [State.storeReg_frame]) (by rw [State.storeReg_frame])

/-- The register file does not feel a pair's taking effect. -/
theorem State.reg_storeReg (w : W32) (n : RegName) (i j : Nat) :
    (s.storeReg r w).reg n i j = (s.setReg r.name r.i r.j w).reg n i j := by
  unfold State.storeReg
  split <;> rfl

@[simp] theorem State.regOf_storeReg_same (w : W32) : (s.storeReg r w).regOf r = w := by
  simp [State.regOf, State.reg_storeReg]

theorem State.reg_storeReg_other {n : RegName} {i j : Nat} (w : W32) (h : (n, i, j) ≠ (r.name, r.i, r.j))
    (hri : r.i < 4096) (hrj : r.j < 4096) (hi : i < 4096) (hj : j < 4096) :
    (s.storeReg r w).reg n i j = s.reg n i j := by
  rw [State.reg_storeReg, State.reg_setReg_other s w h hri hrj hi hj]

/-- A word stored in the low register of a pair waits for the high one (R379). -/
theorem State.pair_storeReg_low {hi : RegName} (w : W32) (h : hi.rwLow = some r.name) (hri : r.i < 4096)
    (hrj : r.j < 4096) : (s.storeReg r w).pair r.name hi r.i r.j = s.pair r.name hi r.i r.j := by
  have hother : (s.storeReg r w).reg hi r.i r.j = s.reg hi r.i r.j :=
    s.reg_storeReg_other r w (by simp [RegName.ne_of_rwLow h]) hri hrj hri hrj
  have heff : (s.storeReg r w).effLo = s.effLo := by
    rw [s.storeReg_of_rwLow_none r w (RegName.rwLow_of_rwLow h)]; rfl
  simp only [State.pair, hother, heff]

/-- A word stored in the high register of a pair puts the low register's word into effect with it (R379). -/
theorem State.pair_storeReg_high {lo : RegName} (w : W32) (h : r.name.rwLow = some lo) (hri : r.i < 4096)
    (hrj : r.j < 4096) :
    (s.storeReg r w).pair lo r.name r.i r.j = (s.reg lo r.i r.j).toNat + w.toNat * 2 ^ 32 := by
  have hother : (s.setReg r.name r.i r.j w).reg lo r.i r.j = s.reg lo r.i r.j :=
    s.reg_setReg_other w (by simp [(RegName.ne_of_rwLow h).symm]) hri hrj hri hrj
  have heff : SMap.get 0 (s.storeReg r w).effLo ({ name := lo, i := r.i, j := r.j } : RegRef).key = s.reg lo r.i r.j := by
    simp only [State.storeReg, h, SMap.get_set_same, hother]
  have hhigh : (s.storeReg r w).reg r.name r.i r.j = w := s.regOf_storeReg_same r w
  rw [State.pair, heff, hhigh]

/-! ### Registers that only keep their word -/

/-- Plain registers have RW fields, and no field that a write of ones clears or sets. -/
theorem maskOf_of_mem_plainRegs :
    ∀ n ∈ plainRegs, n.maskOf .rw ≠ 0 ∧ n.maskOf .w1c = 0 ∧ n.maskOf .w1s = 0 := by
  decide

theorem RegName.written_of_mem_plainRegs {n : RegName} (h : n ∈ plainRegs) (old v : W32) :
    n.written old v = n.aliased old v := by
  obtain ⟨-, hc, hs⟩ := maskOf_of_mem_plainRegs n h
  simp only [RegName.written, RegName.aliased, hc, hs, BitVec.ofNat_eq_ofNat, BitVec.and_zero, BitVec.or_zero,
    BitVec.not_zero, BitVec.and_allOnes]

/-- What an alias hands on is cut to the RW bits, which is all that a plain register takes (R378). -/
theorem RegRef.aliased_operand (f : WriteForm) (old v : W32) :
    r.name.aliased old (RegRef.operand r f old v) = r.name.aliased old (f.value old v) := by
  cases f <;> simp [RegRef.operand, WriteForm.value, RegName.aliased, BitVec.and_assoc]

theorem State.applyWrite_of_mem_plainRegs (v sets : W32) :
    r.name ∈ plainRegs → s.applyWrite a r v sets = s.plainWrite r v := by
  have hplain : ∀ n ∈ plainRegs, ∀ i j, s.applyWrite a ⟨n, i, j⟩ v sets = s.plainWrite ⟨n, i, j⟩ v := by
    simp only [plainRegs, List.forall_mem_cons, List.not_mem_nil, false_implies, implies_true, and_true]
    and_intros <;> exact fun _ _ => rfl
  exact fun h => hplain r.name h r.i r.j

/-! ### The forms of a register write -/

/-- The instruction that writes a register in form `f` (R377, R378). It is not computable because Lean's
compiler has no tag for so late a constructor of `Instr`. -/
noncomputable def WriteForm.instr (f : WriteForm) (a : Agent) (r : RegRef) (v : W32) : Instr :=
  match f with
  | .plain => .registerWrite a r v
  | .setBits => .setAliasWrite a r v
  | .clearBits => .clearAliasWrite a r v
  | .toggleBits => .toggleAliasWrite a r v

theorem WriteForm.exec_instr (f : WriteForm) (v : W32) : exec (f.instr a r v) s = .next (s.writeReg a r f v) := by
  cases f <;> rfl

variable {s a r}

theorem State.writeReg_of_not_mayWrite (f : WriteForm) (v : W32) (h : s.mayWrite a r = false) :
    s.writeReg a r f v = s := by
  simp [State.writeReg, h]

theorem State.writeReg_alias_of_no_rw {f : WriteForm} (v : W32) (hf : f ≠ .plain) (h : r.name.maskOf .rw = 0) :
    s.writeReg a r f v = s := by
  simp [State.writeReg, RegName.aliases, hf, h]

/-- A write of a plain register, in whatever form, stores one word. -/
theorem State.writeReg_of_mem_plainRegs (f : WriteForm) (v : W32) (hw : s.mayWrite a r = true) (hp : r.name ∈ plainRegs) :
    s.writeReg a r f v =
      s.storeReg r (r.name.keepAllowed (s.regOf r) (r.name.aliased (s.regOf r) (f.value (s.regOf r) v))) := by
  have halias : RegName.aliases r.name = true :=
    bne_iff_ne.mpr (maskOf_of_mem_plainRegs r.name hp).1
  simp only [State.writeReg, hw, halias, Bool.not_true, Bool.and_false, Bool.or_false, Bool.false_eq_true, if_false,
    State.applyWrite_of_mem_plainRegs s a r _ _ hp, State.plainWrite, RegName.written_of_mem_plainRegs hp,
    RegRef.aliased_operand]

/-! ### CORE_FP_FLAGS -/

/-- All eight flags clear where one is written, and there is no other field (Table 6.12). -/
theorem RegName.written_coreFpFlags (old v : W32) :
    RegName.written .CORE_FP_FLAGS old v = old &&& ~~~(v &&& 0xFF) := by
  have hrw : RegName.maskOf .CORE_FP_FLAGS .rw = 0 := by decide
  have hc : RegName.maskOf .CORE_FP_FLAGS .w1c = 0xFF := by decide
  have hs : RegName.maskOf .CORE_FP_FLAGS .w1s = 0 := by decide
  simp only [RegName.written, hrw, hc, hs, BitVec.ofNat_eq_ofNat, BitVec.and_zero, BitVec.or_zero, BitVec.not_zero,
    BitVec.and_allOnes]

theorem State.writeReg_coreFpFlags {i j : Nat} (v : W32) (hw : s.mayWrite a ⟨.CORE_FP_FLAGS, i, j⟩ = true) :
    s.writeReg a ⟨.CORE_FP_FLAGS, i, j⟩ .plain v =
      s.setReg .CORE_FP_FLAGS i j (s.reg .CORE_FP_FLAGS i j &&& ~~~(v &&& 0xFF)) := by
  have hplain : s.writeReg a ⟨.CORE_FP_FLAGS, i, j⟩ .plain v = s.plainWrite ⟨.CORE_FP_FLAGS, i, j⟩ v := by
    simp only [State.writeReg, hw]; rfl
  rw [hplain, State.plainWrite, RegName.written_coreFpFlags]
  rfl

/-- The word of one register replaced leaves the rest of the module as it was. -/
theorem State.onlyReg_setReg (n : RegName) (i j : Nat) (w : W32) : OnlyReg s (s.setReg n i j w) n i j :=
  ⟨rfl, fun _ _ _ h ha hb hi hj => State.reg_setReg_other s w h hi hj ha hb, sameBytes_of_eq rfl rfl⟩

/-! ### O53 -/

/-- What the statement lists of each form of a write. -/
theorem writeForms_eq (v old : W32) :
    [(Instr.registerWrite a r v, v), (.setAliasWrite a r v, old ||| v), (.clearAliasWrite a r v, old &&& ~~~v),
      (.toggleAliasWrite a r v, old ^^^ v)] =
    [WriteForm.plain, .setBits, .clearBits, .toggleBits].map fun f => (f.instr a r v, f.value old v) := rfl

end Sys2Proof.Machine

open Sys2Proof Sys2Proof.Machine

/-- Settles O53: each form of a write is `State.writeReg`, which for a plain register stores one word. -/
theorem registersAndAliases : Obligations.RegistersAndAliases := by
  rintro s a r v old rw rfl rfl
  simp only [writeForms_eq, ← List.map_drop, List.forall_mem_map, WriteForm.exec_instr]
  refine ⟨fun h f _ => ?_, fun h f hf => ?_, fun hw => ⟨fun hp f _ => ?_, fun hn => ?_⟩⟩
  · rw [State.writeReg_of_not_mayWrite f v h]
  · rw [State.writeReg_alias_of_no_rw v (by rintro rfl; simp at hf) h]
  · obtain ⟨hi, hj⟩ := State.indices_lt_of_mayWrite hw
    rw [State.writeReg_of_mem_plainRegs f v hw hp]
    refine ⟨_, rfl, s.storeReg_frame r _, s.sameBytes_storeReg r _, s.regOf_storeReg_same r _, ?_, ?_, ?_⟩
    · exact fun n i j hni hnj hne => s.reg_storeReg_other r _ hne hi hj hni hnj
    · exact fun hi' hlow => s.pair_storeReg_low r _ hlow hi hj
    · intro lo hhigh
      rw [s.pair_storeReg_high r _ hhigh hi hj, s.regOf_storeReg_same]
  · obtain ⟨n, i, j⟩ := r
    obtain rfl : n = .CORE_FP_FLAGS := hn
    obtain rfl : j = 0 := State.eq_zero_of_mayWrite_coreFpFlags hw
    have hexec := (WriteForm.exec_instr s a _ .plain v).trans (congrArg _ (State.writeReg_coreFpFlags v hw))
    exact ⟨_, hexec, State.onlyReg_setReg .., State.reg_setReg_same ..⟩
end

section
/-!
Arbiters: what a census leaves, a window in which one request comes to a core's arbiter, the request that an arbiter grants, and
what becomes urgent with age. The clauses of O48 about arbiters are assembled from them.
-/

namespace Sys2Proof

/-- A value set for each key of a list is read under every one of them. -/
theorem SMap.get_foldl_set {α : Type} [DecidableEq α] (d : α) (f : Nat → α) (ks : List Nat) (m : SMap α) (k : Nat) :
    SMap.get d (ks.foldl (fun m k => SMap.set d m k (f k)) m) k = if k ∈ ks then f k else SMap.get d m k := by
  induction ks generalizing m with
  | nil => rfl
  | cons j ks ih =>
    rw [List.foldl_cons, ih]
    by_cases hk : k = j
    · subst hk; simp
    · simp [hk, SMap.get_set_other]

end Sys2Proof

namespace Sys2Proof.Machine

open Sys2Proof

variable (s : State)

/-! ### The census (R326) -/

@[simp] theorem State.waiting_census (a : Arbiter) : ((s.census a).arb a).waiting = (s.arb a).waiting := by
  simp only [State.census, State.arb_setArb_same]

@[simp] theorem State.granted_census (a : Arbiter) : ((s.census a).arb a).granted = (s.arb a).granted := by
  simp only [State.census, State.arb_setArb_same]

theorem State.arb_census_other {a b : Arbiter} (h : b ≠ a) : (s.census a).arb b = s.arb b :=
  State.arb_setArb_other _ _ h

theorem State.seen_census (a : Arbiter) :
    ((s.census a).arb a).seen = ((s.arb a).waiting.map fun r => (r.from', r.core)).eraseDups := by
  simp only [State.census, State.arb_setArb_same]

theorem State.weight_census (a : Arbiter) {k : Nat} (h : k < arbChildren a) :
    SMap.get 0 ((s.census a).arb a).weights k =
      if (s.arb a).seen.any (fun e => e.1 == k) then s.censusWeight a k ((s.arb a).coresOf k) else 0 := by
  simp only [State.census, State.arb_setArb_same,
    SMap.get_foldl_set 0 fun k => s.censusWeight a k ((s.arb a).coresOf k)]
  simp only [List.mem_filter, List.mem_range, h, true_and]
  rfl

/-! ### The cycles of a window (R13) -/

theorem arbBelow_self (a : Arbiter) : arbBelow a a = true := by
  simp [arbBelow]

/-- Nothing but itself stands below a core's arbiter. -/
theorem arbBelow_core (l : CoreId) (a : Arbiter) : arbBelow (.core l) a = decide (a = .core l) := by
  cases a <;> simp [arbBelow, arbParent, eq_comm]

theorem arbTree_core (l : CoreId) : arbTree (.core l) = [.core l] := by
  have hcount : ((List.finRange 768).map Arbiter.core).count (.core l) = 1 := by
    rw [List.count_map_of_injective _ _ fun _ _ h => Arbiter.core.inj h]
    exact List.count_eq_one_of_mem (List.nodup_finRange 768) (List.mem_finRange l)
  have hother : ∀ {n : Nat} (f : Fin n → Arbiter), (∀ x, f x ≠ .core l) → 
      ((List.finRange n).map f).count (.core l) = 0 :=
    fun f hf => List.count_eq_zero.2 fun h => by obtain ⟨x, -, hx⟩ := List.mem_map.1 h; exact hf x hx
  unfold arbTree
  simp only [funext (arbBelow_core l)]
  rw [List.filter_eq, List.count_append, List.count_append, List.count_append, List.count_append, hcount,
    hother _ (by simp), hother _ (by simp), hother _ (by simp), hother _ (by simp)]
  rfl

theorem mem_arbTree {top a : Arbiter} (h : a ∈ arbTree top) : arbBelow top a = true :=
  (List.mem_filter.1 h).2

/-- The 256 cycles of a window, before its census. -/
def State.windowCycles (top : Arbiter) (l : List ArbArrival) : State :=
  (List.range 256).foldl (fun t c => ((s.arbBusy top l).foldl State.arbStep (t.arbArrive top l c))) (s.arbReady top)

theorem State.onlyArbs_windowCycles (top : Arbiter) (l : List ArbArrival) : OnlyArbs s (s.windowCycles top l) :=
  (s.onlyArbs_arbReady top).trans (State.onlyArbs_window _ top l _)

theorem exec_censusWindow_port (p : PortId) (l : List ArbArrival) :
    exec (.censusWindow (.port p) l) s = .next (s.pump p) := rfl

theorem exec_censusWindow {arb : Arbiter} (h : ∀ p, arb ≠ .port p) (l : List ArbArrival) :
    exec (.censusWindow arb l) s = .next ((s.windowCycles arb l).census arb) := by
  cases arb with
  | port p => exact absurd rfl (h p)
  | core _ => rfl
  | cluster _ => rfl
  | region _ => rfl
  | die _ => rfl
  | stack _ => rfl

theorem State.arbReady_of_not_stack {arb : Arbiter} (h : ∀ k, arb ≠ .stack k) : s.arbReady arb = s := by
  cases arb with
  | stack k => exact absurd rfl (h k)
  | core _ => rfl
  | cluster _ => rfl
  | region _ => rfl
  | die _ => rfl
  | port _ => rfl

/-- Where nothing waits below an arbiter and nothing comes, the cycles of a window change nothing. -/
theorem State.windowCycles_idle {arb : Arbiter} (hstack : ∀ k, arb ≠ .stack k)
    (h : ∀ a, arbBelow arb a = true → (s.arb a).waiting = []) : s.windowCycles arb [] = s := by
  have hnone : (arbTree arb).filter (fun a => !(s.arb a).waiting.isEmpty) = [] :=
    List.filter_eq_nil_iff.2 fun a ha => by simp [h a (mem_arbTree ha)]
  have hbusy : s.arbBusy arb [] = [] := by simp [State.arbBusy, hnone]
  rw [State.windowCycles, hbusy, s.arbReady_of_not_stack hstack]
  exact foldl_same id _ (fun _ _ => rfl) _ s

/-! ### One grant (R325, R326, R328) -/

@[simp] theorem ArbReq.cls_eq_urgent (r : ArbReq) : r.cls = .urgent ↔ r.urgent = true := by
  cases hu : r.urgent <;> cases hb : r.background <;> simp [ArbReq.cls, hu, hb]

@[simp] theorem ArbReq.cls_eq_normal (r : ArbReq) : r.cls = .normal ↔ r.urgent = false ∧ r.background = false := by
  cases hu : r.urgent <;> cases hb : r.background <;> simp [ArbReq.cls, hu, hb]

@[simp] theorem ArbReq.cls_eq_background (r : ArbReq) : r.cls = .background ↔ r.urgent = false ∧ r.background = true := by
  cases hu : r.urgent <;> cases hb : r.background <;> simp [ArbReq.cls, hu, hb]

variable {x y : Arb} {q : ArbReq} {a : Arbiter}

/-- An urgent request is served only within the share of urgent grants, or where nothing else waits (R328). -/
theorem Arb.serves_urgent (h : x.serves = some .urgent) :
    (x.recent.filter id).length < 8 ∨ ∀ r ∈ x.waiting, r.urgent = true := by
  by_contra hn
  obtain ⟨hshare, r, hr, hcalm⟩ : ¬ (x.recent.filter id).length < 8 ∧ ∃ r ∈ x.waiting, r.urgent = false := by
    simpa using hn
  have hwaits : (x.waiting.any fun r => r.cls == .normal) || (x.waiting.any fun r => r.cls == .background) := by
    cases hb : r.background with
    | false => exact Bool.or_eq_true_iff.2 (.inl (List.any_eq_true.2 ⟨r, hr, by simp [hcalm, hb]⟩))
    | true => exact Bool.or_eq_true_iff.2 (.inr (List.any_eq_true.2 ⟨r, hr, by simp [hcalm, hb]⟩))
  simp only [Arb.serves, hwaits, decide_eq_false hshare, Bool.not_true, Bool.or_self, Bool.and_false, Bool.false_eq_true,
    if_false] at h
  split at h
  · cases h
  · split at h <;> cases h

/-- Another class is served only where no urgent request waits, or the share of urgent grants is used up (R328). -/
theorem Arb.serves_calm {c : ArbClass} (h : x.serves = some c) (hc : c ≠ .urgent) :
    (∀ r ∈ x.waiting, r.urgent = false) ∨ 8 ≤ (x.recent.filter id).length := by
  by_contra hn
  obtain ⟨⟨r, hr, hu⟩, hshare⟩ : (∃ r ∈ x.waiting, r.urgent = true) ∧ (x.recent.filter id).length < 8 := by
    simpa using hn
  have hwaits : (x.waiting.any fun r => r.cls == .urgent) = true := List.any_eq_true.2 ⟨r, hr, by simp [hu]⟩
  simp only [Arb.serves, hwaits, decide_eq_true hshare, Bool.or_true, Bool.and_self, if_true, Option.some.injEq] at h
  exact hc h.symm

/-- A background request is served only where no normal one waits (R325). -/
theorem Arb.serves_background (h : x.serves = some .background) : ∀ r ∈ x.waiting, r.cls ≠ .normal := by
  intro r hr hn
  have hwaits : (x.waiting.any fun r => r.cls == .normal) = true := List.any_eq_true.2 ⟨r, hr, by simpa using hn⟩
  simp only [Arb.serves, hwaits, if_true] at h
  split at h <;> cases h

theorem Arb.head_some {c : ArbClass} {child i : Nat} (h : x.head c child = some (q, i)) :
    x.waiting[i]? = some q ∧ q.cls = c ∧ q.from' = child := by
  have hmem := List.mem_zipIdx_iff_getElem?.1 (List.mem_of_find?_eq_some h)
  have hp := List.find?_some h
  simp only [Bool.and_eq_true, beq_iff_eq] at hp
  exact ⟨hmem, hp⟩

theorem Arb.roundRobin_some {n i : Nat} {c : ArbClass} (h : x.roundRobin n c = some (i, y)) :
    y.waiting = x.waiting ∧ ∃ r, x.waiting[i]? = some r ∧ r.cls = c := by
  obtain ⟨k, -, hk⟩ := List.exists_of_findSome?_eq_some h
  obtain ⟨⟨r, j⟩, hhead, he⟩ := Option.map_eq_some_iff.1 hk
  cases he
  obtain ⟨hr, hc, -⟩ := Arb.head_some hhead
  exact ⟨rfl, r, hr, hc⟩

/-- Deficit round-robin grants a request only within the deficit of its child (R326). -/
theorem Arb.drr_some {n i fuel : Nat} {c : ArbClass} (h : Arb.drr n c fuel x = some (i, y)) :
    ∃ r, x.waiting[i]? = some r ∧ r.cls = c ∧ 0 ≤ SMap.get (0 : Int) y.deficits r.from' := by
  induction fuel generalizing x with
  | zero => cases h
  | succ fuel ih =>
    unfold Arb.drr at h
    dsimp only at h
    generalize (SMap.get 0 x.deficits x.turn + ((if x.fed then 0 else 64 * x.weight x.turn : Nat) : Int)) = d at h
    split at h
    · exact (ih h :)
    split at h
    · exact (ih h :)
    next r j hhead =>
    obtain ⟨hr, hc, hchild⟩ := Arb.head_some hhead
    split at h
    · next hfits =>
      cases h
      exact ⟨r, hr, hc, by simpa [hchild] using hfits⟩
    · exact (ih h :)

/-- What a grant takes: a request of the class served, and at a deficit arbiter one within the deficit of its child. -/
theorem Arb.grant_some (h : x.grant a = some (q, y)) :
    x.serves = some q.cls ∧ ((∀ l, a ≠ .core l) → (∀ c, a ≠ .cluster c) → 0 ≤ SMap.get (0 : Int) y.deficits q.from') := by
  unfold Arb.grant at h
  dsimp only at h
  split at h
  · cases h
  next c hserves =>
  split at h
  · cases h
  next i z hnext =>
  split at h
  · cases h
  next r hi =>
  cases h
  have fair (hrr : x.roundRobin (arbChildren a) c = some (i, z)) : q.cls = c := by
    obtain ⟨-, r, hr, hc⟩ := Arb.roundRobin_some hrr
    cases hi.symm.trans hr
    exact hc
  have deficit (hdrr : Arb.drr (arbChildren a) c (x.turns (arbChildren a)) x = some (i, z)) :
      q.cls = c ∧ 0 ≤ SMap.get (0 : Int) z.deficits q.from' := by
    obtain ⟨r, hr, hc, hd⟩ := Arb.drr_some hdrr
    cases hi.symm.trans hr
    exact ⟨hc, hd⟩
  cases a with
  | core l => exact ⟨by rw [fair hnext]; exact hserves, fun hl _ => absurd rfl (hl l)⟩
  | cluster k => exact ⟨by rw [fair hnext]; exact hserves, fun _ hk => absurd rfl (hk k)⟩
  | region _ => exact ⟨by rw [(deficit hnext).1]; exact hserves, fun _ _ => (deficit hnext).2⟩
  | die _ => exact ⟨by rw [(deficit hnext).1]; exact hserves, fun _ _ => (deficit hnext).2⟩
  | stack _ => exact ⟨by rw [(deficit hnext).1]; exact hserves, fun _ _ => (deficit hnext).2⟩
  | port _ => exact ⟨by rw [(deficit hnext).1]; exact hserves, fun _ _ => (deficit hnext).2⟩

/-! ### A request that comes to an idle core arbiter (R13, R325) -/

theorem Arb.grant_of_waiting_nil (h : x.waiting = []) : x.grant a = none := by
  simp [Arb.grant, Arb.serves, h]

/-- Round-robin comes to the one child that has a request, whosever turn it is. -/
theorem Arb.roundRobin_single {n : Nat} (hw : x.waiting = [q]) (hq : q.from' < n) :
    ∃ y, x.roundRobin n q.cls = some (0, y) ∧ y.waiting = [q] := by
  have hhead : x.head q.cls q.from' = some (q, 0) := by simp [Arb.head, hw]
  have hsome : (x.roundRobin n q.cls).isSome = true := by
    rw [Arb.roundRobin, List.isSome_findSome?, List.any_eq_true]
    refine ⟨(q.from' + (n - x.turn % n)) % n, List.mem_range.2 (Nat.mod_lt _ (by omega)), ?_⟩
    have hturn : (x.turn + (q.from' + (n - x.turn % n)) % n) % n = q.from' := by
      have hlt : x.turn % n < n := Nat.mod_lt _ (by omega)
      have hsum : x.turn + (q.from' + (n - x.turn % n)) = q.from' + n * (x.turn / n + 1) := by
        have := Nat.div_add_mod x.turn n
        rw [Nat.mul_add, Nat.mul_one]
        omega
      rw [Nat.add_mod_mod, hsum, Nat.add_mul_mod_self_left, Nat.mod_eq_of_lt hq]
    simp [hturn, hhead]
  obtain ⟨⟨i, y⟩, hiy⟩ := Option.isSome_iff_exists.1 hsome
  obtain ⟨hy, r, hr, -⟩ := Arb.roundRobin_some hiy
  obtain rfl : i = 0 := by
    have hlt := (List.getElem?_eq_some_iff.1 hr).1
    rw [hw, List.length_singleton] at hlt
    omega
  exact ⟨y, hiy, hy.trans hw⟩

/-- The only request that waits at a core's arbiter is granted. -/
theorem Arb.grant_single {l : CoreId} (hw : x.waiting = [q]) (hq : q.from' < 3) :
    ∃ y, x.grant (.core l) = some (q, y) ∧ y.waiting = [] := by
  have hserves : x.serves = some q.cls := by
    cases hc : q.cls <;> simp [Arb.serves, hw, hc]
  obtain ⟨y, hy, hyw⟩ := x.roundRobin_single hw hq
  exact ⟨_, by simp only [Arb.grant, hserves, arbChildren, hy, hw, List.getElem?_cons_zero]; rfl, by simp [hyw]⟩

/-- While a grant of an arbiter waits above, it grants no other (R13). -/
theorem State.arbStep_held {p : Arbiter} {k : Nat} (hp : arbParent a = some (p, k))
    (h : ∃ r ∈ (s.arb p).waiting, r.from' = k) : s.arbStep a = s := by
  have hany : ((s.arb p).waiting.any fun r => r.from' == k) = true := by simpa using h
  simp only [State.arbStep, hp, hany, if_true]

theorem State.arbStep_idle (h : (s.arb a).waiting = []) : s.arbStep a = s := by
  simp only [State.arbStep, Arb.grant_of_waiting_nil h]
  split
  · rfl
  · split <;> rfl

theorem State.arbStep_grant {p : Arbiter} {k : Nat} (hp : arbParent a = some (p, k))
    (hfree : ∀ r ∈ (s.arb p).waiting, r.from' ≠ k) (h : (s.arb a).grant a = some (q, y)) :
    s.arbStep a = (s.setArb a y).setArb p ((s.arb p).enter { q with from' := k, urgent := false }) := by
  have hany : ((s.arb p).waiting.any fun r => r.from' == k) = false := by simpa using hfree
  simp only [State.arbStep, hp, hany, h]
  rfl

/-- A fold over the numbers below `n` in which one of them alone does anything. -/
theorem foldl_range_once {β : Type} {f : β → Nat → β} {b b' : β} {n c : Nat} (hc : c < n)
    (hbefore : ∀ i, i ≠ c → f b i = b) (hat : f b c = b') (hafter : ∀ i, i ≠ c → f b' i = b') :
    (List.range n).foldl f b = b' := by
  have hupto : ∀ m, (List.range m).foldl f b = if c < m then b' else b := by
    intro m
    induction m with
    | zero => rfl
    | succ m ih =>
      rw [List.range_succ, List.foldl_append, ih, List.foldl_cons, List.foldl_nil]
      rcases Nat.lt_trichotomy c m with h | rfl | h
      · rw [if_pos h, if_pos (by omega), hafter m (by omega)]
      · rw [if_neg (by omega), if_pos (by omega), hat]
      · rw [if_neg (by omega), if_neg (by omega), hbefore m (by omega)]
  rw [hupto, if_pos hc]

/-- The request that an engine brings to its core's arbiter. -/
def engineReq (l : CoreId) (e : Fin 3) (n : Nat) (bg : Bool) : ArbReq :=
  { from' := e, core := some l, bytes := n, background := bg }

/-- The arbiter of a core's cluster. -/
def clusterArb (l : CoreId) : Arbiter := .cluster (Fin.ofNat 96 (l / 8))

theorem arbParent_core (l : CoreId) : arbParent (.core l) = some (clusterArb l, l.val % 8) := rfl

theorem clusterArb_ne_core (l k : CoreId) : clusterArb l ≠ .core k := by simp [clusterArb]

theorem State.arbArrive_engine (l : CoreId) (e : Fin 3) (c : Fin 256) (n : Nat) (bg : Bool) (i : Nat) :
    s.arbArrive (.core l) [{ cycle := c, src := .engine l e, bytes := n, background := bg }] i =
      if c.val = i then s.setArb (.core l) ((s.arb (.core l)).enter (engineReq l e n bg)) else s := by
  by_cases h : c.val = i
  · simp [State.arbArrive, h, ArbSource.entry, arbBelow_self, engineReq]
  · simp [State.arbArrive, h]

theorem State.arbBusy_engine (l : CoreId) (e : Fin 3) (c : Fin 256) (n : Nat) (bg : Bool) :
    s.arbBusy (.core l) [{ cycle := c, src := .engine l e, bytes := n, background := bg }] = [.core l] := by
  simp [State.arbBusy, arbTree_core, ArbSource.entry, arbBelow_self]

/-- What a window with one request is: nothing until the request comes, its cycle, and nothing after. -/
theorem State.windowCycles_engine {l : CoreId} {e : Fin 3} (c : Fin 256) {n : Nat} {bg : Bool} {t : State}
    (hidle : (s.arb (.core l)).waiting = [])
    (hat : (s.setArb (.core l) ((s.arb (.core l)).enter (engineReq l e n bg))).arbStep (.core l) = t)
    (hafter : ∃ r ∈ (t.arb (clusterArb l)).waiting, r.from' = l.val % 8) :
    s.windowCycles (.core l) [{ cycle := c, src := .engine l e, bytes := n, background := bg }] = t := by
  simp only [State.windowCycles, State.arbBusy_engine, State.arbArrive_engine, List.foldl_cons, List.foldl_nil]
  refine foldl_range_once c.isLt (fun i hi => ?_) ?_ fun i hi => ?_
  · rw [if_neg (Ne.symm hi)]; exact s.arbStep_idle hidle
  · rw [if_pos rfl]; exact hat
  · rw [if_neg (Ne.symm hi)]; exact t.arbStep_held (arbParent_core l) hafter

/-- The request stays at the core's arbiter while one of the core's stands at its cluster's. -/
theorem State.windowCycles_engine_held {l : CoreId} {e : Fin 3} (c : Fin 256) {n : Nat} {bg : Bool}
    (hidle : (s.arb (.core l)).waiting = []) (hheld : ∃ r ∈ (s.arb (clusterArb l)).waiting, r.from' = l.val % 8) :
    s.windowCycles (.core l) [{ cycle := c, src := .engine l e, bytes := n, background := bg }] =
      s.setArb (.core l) ((s.arb (.core l)).enter (engineReq l e n bg)) := by
  have hup : ∃ r ∈ ((s.setArb (.core l) ((s.arb (.core l)).enter (engineReq l e n bg))).arb (clusterArb l)).waiting,
      r.from' = l.val % 8 := by
    rwa [State.arb_setArb_other _ _ (clusterArb_ne_core l l)]
  exact s.windowCycles_engine c hidle (State.arbStep_held _ (arbParent_core l) hup) hup

/-- With the way free, the request is granted and stands at the cluster's arbiter, its age begun anew. -/
theorem State.windowCycles_engine_free {l : CoreId} {e : Fin 3} (c : Fin 256) {n : Nat} {bg : Bool}
    (hidle : (s.arb (.core l)).waiting = []) (hfree : ∀ r ∈ (s.arb (clusterArb l)).waiting, r.from' ≠ l.val % 8) :
    let t := s.windowCycles (.core l) [{ cycle := c, src := .engine l e, bytes := n, background := bg }]
    (t.arb (.core l)).waiting = [] ∧
      (t.arb (clusterArb l)).waiting = (s.arb (clusterArb l)).waiting ++ [{ engineReq l e n bg with from' := l.val % 8 }] := by
  have hcore : ((s.arb (.core l)).enter (engineReq l e n bg)).waiting = [engineReq l e n bg] := by
    simp [Arb.enter, hidle]
  obtain ⟨y, hgrant, hy⟩ := Arb.grant_single (l := l) hcore e.isLt
  have hstep := (s.setArb (.core l) ((s.arb (.core l)).enter (engineReq l e n bg))).arbStep_grant (arbParent_core l)
    (by rwa [State.arb_setArb_other _ _ (clusterArb_ne_core l l)]) (by rwa [State.arb_setArb_same])
  rw [State.arb_setArb_other _ _ (clusterArb_ne_core l l)] at hstep
  intro t
  have ht := s.windowCycles_engine c hidle hstep (by simp [Arb.enter])
  constructor
  · rw [show t = _ from ht, State.arb_setArb_other _ _ (clusterArb_ne_core l l).symm, State.arb_setArb_same, hy]
  · rw [show t = _ from ht, State.arb_setArb_same]
    rfl

/-! ### Aging (R45, R299, R328) -/

theorem exec_agingPromote_eq (arb : Arbiter) (i : Nat) (bg : Bool) (waited : Nat) :
    exec (.agingPromote arb i bg waited) s = execAgingPromote arb i bg waited s := rfl

theorem exec_agingPromote_absent {arb : Arbiter} {i : Nat} (h : ∀ p, arb ≠ .port p) (hr : (s.arb arb).waiting[i]? = none)
    (bg : Bool) (waited : Nat) : exec (.agingPromote arb i bg waited) s = .next s := by
  rw [exec_agingPromote_eq]
  cases arb with
  | port p => exact absurd rfl (h p)
  | _ => simp only [execAgingPromote, hr]

theorem exec_agingPromote {arb : Arbiter} {i : Nat} {r : ArbReq} (h : ∀ p, arb ≠ .port p)
    (hr : (s.arb arb).waiting[i]? = some r) (bg : Bool) (waited : Nat) :
    exec (.agingPromote arb i bg waited) s =
      if r.background ≠ bg ∨ waited ≤ s.arbThreshold arb bg then .next s
      else .next (s.setArb arb { s.arb arb with waiting := (s.arb arb).waiting.set i { r with urgent := true } }) := by
  rw [exec_agingPromote_eq]
  cases arb with
  | port p => exact absurd rfl (h p)
  | _ => simp only [execAgingPromote, hr]

theorem State.sameBytes_sendFlit (p : Nat) (f : Flit) : SameBytes s (s.sendFlit p f) := sameBytes_of_eq rfl rfl

/-- A port that sends what it may stores nothing. -/
theorem State.sameBytes_pumpPort (p fuel : Nat) : SameBytes s (State.pumpPort p fuel s) := by
  induction fuel generalizing s with
  | zero => exact SameBytes.refl s
  | succ fuel ih =>
    unfold State.pumpPort
    dsimp only
    split
    · exact SameBytes.refl s
    split
    · exact SameBytes.refl s
    · exact SameBytes.trans (b := s.setPort p _) (sameBytes_of_eq rfl rfl) ((State.sameBytes_sendFlit _ p _).trans (ih _))

theorem State.sameBytes_pump (p : Nat) : SameBytes s (s.pump p) := s.sameBytes_pumpPort p _

theorem State.sameBytes_ageFlit (p i : Nat) (bg : Bool) (waited : Nat) : SameBytes s (s.ageFlit p i bg waited) := by
  unfold State.ageFlit
  dsimp only
  split
  · exact SameBytes.refl s
  split
  · exact SameBytes.refl s
  · exact State.sameBytes_pump (s.setPort p _) p

/-- A flit of a class that ages stays as it is until it has waited for its threshold, and a flit of time always (R299). -/
theorem State.ageFlit_early {p i waited : Nat} {f : TxFlit} (hf : (s.port p).txq[i]? = some f)
    (h : f.cls = 1 ∨ waited ≤ (if f.cls = 4 then 65536 else 2048)) (bg : Bool) : s.ageFlit p i bg waited = s := by
  have hearly : f.cls = 1 ∨ (f.cls == 4) ≠ bg ∨ waited ≤ s.arbThreshold (.port (Fin.ofNat 36 p)) bg := by
    refine h.imp_right fun hw => ?_
    rw [or_iff_not_imp_left, not_not]
    rintro rfl
    by_cases h4 : f.cls = 4
    · rw [if_pos h4] at hw
      simpa [h4, State.arbThreshold, State.arbCfg] using hw
    · rw [if_neg h4] at hw
      simpa [h4, State.arbThreshold, State.arbCfg] using hw
  simp only [State.ageFlit, hf, hearly, if_true]

end Sys2Proof.Machine
end

section
/-!
Writes of memory where it alone holds every byte, and what places an address: the parts of the state that they read. The
clauses of O48 about samples of the counters are assembled from them.
-/

namespace Sys2Proof.Machine

open Sys2Proof

variable {s t u : State} {a : Nat} {bs cs : List Byte}

/-! ### What places an address and arms a golden copy -/

/-- Placement reads the configuration and the fitted variant. -/
theorem State.place_congr (hcfg : t.cfg = s.cfg) (hid : t.reg .MOD_ID = s.reg .MOD_ID) (a : Nat) : t.place a = s.place a := by
  have hring : t.ringBytes = s.ringBytes := by unfold State.ringBytes State.variant State.field; rw [hid]
  unfold State.place State.inRow
  rw [hcfg, hring]

theorem State.isScratch_congr (hcfg : t.cfg = s.cfg) (a : Nat) : t.isScratch a = s.isScratch a := by
  simp only [State.isScratch, State.hgroup, hcfg]

theorem State.isMemoryRange_congr (hcfg : t.cfg = s.cfg) (hid : t.reg .MOD_ID = s.reg .MOD_ID) (a n : Nat) :
    t.isMemoryRange a n = s.isMemoryRange a n := by
  simp only [State.isMemoryRange, State.isMemory, State.place_congr hcfg hid, State.isScratch_congr hcfg]

/-- Whether a golden copy is armed at an address reads the configuration and the status of the sixteen partitions' entries. -/
theorem State.armedAt_congr (hcfg : t.cfg = s.cfg)
    (hgold : ∀ p, p < 16 → t.reg .MOD_GOLD_STATUS p = s.reg .MOD_GOLD_STATUS p) (a : Nat) : t.armedAt a = s.armedAt a := by
  unfold State.armedAt State.goldens
  rw [hcfg]
  have hpart : ∀ (ps : List Nat), (∀ p ∈ ps, p < 16) → ∀ (f g : Nat → Option (Nat × Nat × Bool)),
      (∀ p, p < 16 → f p = g p) → ps.findSome? f = ps.findSome? g := by
    intro ps hps f g hfg
    induction ps with
    | nil => rfl
    | cons p ps ih =>
      rw [List.findSome?_cons, List.findSome?_cons, hfg p (hps p (by simp)), ih fun q hq => hps q (by simp [hq])]
  exact hpart _ (fun p hp => List.mem_range.1 hp) _ _ fun p hp => by rw [hgold p hp]

/-! ### Bytes written -/

/-- The states' memory differs in the bytes `bs`, which stand from `a` on. -/
def WritesBytes (s t : State) (a : Nat) (bs : List Byte) : Prop :=
  ∀ x, t.byte x = if a ≤ x ∧ x < a + bs.length then bs.getD (x - a) 0 else s.byte x

theorem SameBytes.writesNil (h : SameBytes s t) : WritesBytes s t a [] := fun x => by
  rw [h x, if_neg (by simp only [List.length_nil]; omega)]

theorem SameBytes.writesBytes (h : SameBytes s t) (k : WritesBytes t u a bs) : WritesBytes s u a bs := fun x => by
  rw [k x, h x]

theorem WritesBytes.append (h : WritesBytes s t a bs) (k : WritesBytes t u (a + bs.length) cs) :
    WritesBytes s u a (bs ++ cs) := by
  intro x
  rw [k x, h x, List.length_append]
  by_cases hx : a ≤ x ∧ x < a + bs.length
  · rw [if_neg (by omega), if_pos hx, if_pos (by omega), List.getD_append _ _ _ _ (by omega)]
  · rw [if_neg hx]
    by_cases hy : a + bs.length ≤ x ∧ x < a + bs.length + cs.length
    · rw [if_pos hy, if_pos (by omega), List.getD_append_right _ _ _ _ (by omega), Nat.sub_sub]
    · rw [if_neg hy, if_neg (by omega)]

theorem WritesBytes.sameBytesBut (h : WritesBytes s t a bs) : SameBytesBut s t a bs.length := fun x hx => by
  rw [h x, if_neg (by omega)]

theorem WritesBytes.bytes_eq (h : WritesBytes s t a bs) : t.bytes a bs.length = bs := by
  refine List.ext_getElem (by simp [State.bytes]) fun k hk hk' => ?_
  simp only [State.bytes, List.getElem_map, List.getElem_range]
  rw [h (a + k), if_pos (by omega), Nat.add_sub_cancel_left, List.getD_eq_getElem?_getD, List.getElem?_eq_getElem hk',
    Option.getD_some]

theorem State.writesBytes_store (s : State) (a : Nat) (bs : List Byte) : WritesBytes s (s.store a bs) a bs :=
  fun x => s.byte_store a x bs

/-- What writes its piece, and keeps `P`, writes the whole over the pieces of a cut range. -/
theorem foldl_chunksAt_writes {P : State → Prop} {f : State → Nat × List Byte → State} {k : Nat} (hk : 0 < k)
    (hf : ∀ s c, P s → P (f s c) ∧ WritesBytes s (f s c) c.1 c.2) {fuel : Nat} (hs : P s)
    (hfuel : bs.length + a % k ≤ fuel * k) :
    P ((chunksAt k fuel a bs).foldl f s) ∧ WritesBytes s ((chunksAt k fuel a bs).foldl f s) a bs := by
  induction fuel generalizing s a bs with
  | zero =>
    obtain rfl : bs = [] := List.eq_nil_of_length_eq_zero (by omega)
    exact ⟨hs, (SameBytes.refl s).writesNil⟩
  | succ fuel ih =>
    unfold chunksAt
    by_cases hnil : bs = []
    · subst hnil
      exact ⟨hs, (SameBytes.refl s).writesNil⟩
    rw [if_neg (by simpa using hnil), List.foldl_cons]
    set n := k - a % k with hn
    have hlt : a % k < k := Nat.mod_lt _ hk
    obtain ⟨hP, hw⟩ := hf s (a, bs.take n) hs
    have halign : (a + n) % k = 0 := by
      have hsum : a + n = k * (a / k + 1) := by
        have := Nat.div_add_mod a k
        rw [Nat.mul_add, Nat.mul_one]
        omega
      rw [hsum, Nat.mul_mod_right]
    have hrest : (bs.drop n).length + (a + n) % k ≤ fuel * k := by
      rw [halign, List.length_drop]
      rw [Nat.add_mul, Nat.one_mul] at hfuel
      omega
    obtain ⟨hP', hw'⟩ := ih hP hrest
    refine ⟨hP', ?_⟩
    by_cases hlong : n ≤ bs.length
    · have hlen : (bs.take n).length = n := by rw [List.length_take]; omega
      have happend := hw.append (by rwa [hlen])
      rwa [List.take_append_drop] at happend
    · have hdrop : bs.drop n = [] := List.drop_eq_nil_of_le (by omega)
      have htake : bs.take n = bs := List.take_of_length_le (by omega)
      rw [hdrop] at hw' ⊢
      rw [htake] at hw hw' ⊢
      simpa using hw.append (a := a) (cs := []) fun x => by
        rw [hw' x, if_neg (by simp only [List.length_nil]; omega), if_neg (by simp only [List.length_nil]; omega)]

theorem foldl_chunks_writes {P : State → Prop} {f : State → Nat × List Byte → State} {k : Nat} (hk : 0 < k)
    (hf : ∀ s c, P s → P (f s c) ∧ WritesBytes s (f s c) c.1 c.2) (hs : P s) :
    P ((chunks k a bs).foldl f s) ∧ WritesBytes s ((chunks k a bs).foldl f s) a bs := by
  refine foldl_chunksAt_writes hk hf hs ?_
  have := Nat.div_add_mod bs.length k
  have := Nat.mod_lt bs.length hk
  have := Nat.mod_lt a hk
  rw [Nat.add_mul, Nat.mul_comm (bs.length / k)]
  omega

/-! ### Writes at the homes of a state whose memory holds every byte -/

/-- The states differ in what stores of memory change at most: the bytes, the Hearth's tags, the counts and reservations. -/
def OnlyStores (s t : State) : Prop :=
  t = { s with mem := t.mem, lost := t.lost, hearth := t.hearth, counts := t.counts, cores := t.cores }

theorem OnlyStores.refl (s : State) : OnlyStores s s := rfl
theorem OnlyStores.trans (h : OnlyStores s t) (k : OnlyStores t u) : OnlyStores s u := by
  unfold OnlyStores at *; rw [k, h]

theorem OnlyStores.reg (h : OnlyStores s t) (n : RegName) (i j : Nat) : t.reg n i j = s.reg n i j := by rw [h]; rfl

theorem OnlyStores.armedAt (h : OnlyStores s t) (a : Nat) : t.armedAt a = s.armedAt a :=
  State.armedAt_congr (by rw [h]) (fun p _ => h.reg _ _ _) a

theorem OnlyStores.plain (h : OnlyStores s t) (k : Plain s) : Plain t := by
  obtain ⟨hpresence, hflight, harmed⟩ := k
  exact ⟨by rw [h]; exact hpresence, by rw [h]; exact hflight, fun a => (h.armedAt a).trans (harmed a)⟩

theorem OnlyCounts.onlyStores (h : OnlyCounts s t) : OnlyStores s t := by unfold OnlyStores; rw [h]
theorem OnlyCounts.sameBytes (h : OnlyCounts s t) : SameBytes s t := sameBytes_of_eq (by rw [h]) (by rw [h])

/-- Where nothing is armed, bytes put at a home are stored there. -/
theorem State.put_plain (hs : Plain s) (src : W32) (a : Nat) (bs : List Byte) :
    OnlyStores s (s.put src a bs) ∧ WritesBytes s (s.put src a bs) a bs := by
  refine foldl_chunks_writes (P := OnlyStores s) (by omega) (fun t c ht => ?_) (OnlyStores.refl s)
  obtain ⟨-, -, harmed⟩ := ht.plain hs
  rw [harmed]
  have hresv : OnlyStores t (t.cancelResv c.1 c.2.length) := by unfold OnlyStores; rw [State.cancelResv_frame]
  have hstore : OnlyStores (t.cancelResv c.1 c.2.length) ((t.cancelResv c.1 c.2.length).store c.1 c.2) := by
    unfold OnlyStores; rw [State.store_frame]
  refine ⟨ht.trans (hresv.trans hstore), SameBytes.writesBytes ?_ (State.writesBytes_store _ _ _)⟩
  exact sameBytes_of_eq (by rw [State.cancelResv_frame]) (by rw [State.cancelResv_frame])

/-- Before its bytes are put, a write at a home changes tags and counts alone. -/
theorem State.writeHome_plain (hs : Plain s) (u : Unit) (a : Nat) (bs : List Byte) :
    OnlyStores s (s.writeHome u a bs) ∧ WritesBytes s (s.writeHome u a bs) a bs := by
  have hput : ∀ {t : State}, OnlyStores s t → SameBytes s t → ∀ src,
      OnlyStores s (t.put src a bs) ∧ WritesBytes s (t.put src a bs) a bs := fun ht hb src =>
    (State.put_plain (ht.plain hs) src a bs).imp ht.trans fun h => hb.writesBytes h
  obtain ⟨-, -, harmed⟩ := hs
  unfold State.writeHome
  rw [harmed]
  dsimp only
  have htouch : OnlyStores s (s.hearthTouch (s.unitPart u) a true (allocates u true false)).2 := by
    unfold OnlyStores; rw [State.hearthTouch_frame]
  have hbytes : SameBytes s (s.hearthTouch (s.unitPart u) a true (allocates u true false)).2 :=
    sameBytes_of_eq (by rw [State.hearthTouch_frame]) (by rw [State.hearthTouch_frame])
  have hcount : ∀ {t : State}, OnlyCounts (s.hearthTouch (s.unitPart u) a true (allocates u true false)).2 t →
      ∀ src, OnlyStores s (t.put src a bs) ∧ WritesBytes s (t.put src a bs) a bs := fun h =>
    hput (htouch.trans h.onlyStores) (hbytes.trans h.sameBytes)
  refine hcount (OnlyCounts.trans ?_ (State.onlyCounts_account ..)) _
  refine OnlyCounts.trans (b := ?filled) ?fill ?through
  case through =>
    split
    · split
      · exact State.onlyCounts_addCount ..
      · exact OnlyCounts.refl _
    · exact OnlyCounts.refl _
  case fill =>
    split
    · split
      · exact State.onlyCounts_countPlaced ..
      · exact OnlyCounts.refl _
    · exact OnlyCounts.refl _

theorem State.recall_plain (hs : Plain s) (line : Nat) : s.recall line true = s := by
  obtain ⟨hpresence, hflight, -⟩ := hs
  have hsettle : s.settle line = s := by unfold State.settle; rw [hflight]; rfl
  have hholders : s.holders line = [] := by unfold State.holders; rw [hpresence]; rfl
  have hclear : SMap.set [] s.presence line [] = s.presence := by rw [hpresence]; rfl
  simp only [State.recall, hsettle, hholders, List.foldl_nil, if_true, State.setHolders, hclear]

theorem State.writeMem_plain (hs : Plain s) (u : Unit) (a : Nat) (bs : List Byte) :
    OnlyStores s (s.writeMem u a bs) ∧ WritesBytes s (s.writeMem u a bs) a bs := by
  refine foldl_chunks_writes (P := OnlyStores s) (by omega) (fun t c ht => ?_) (OnlyStores.refl s)
  rw [State.writeLine, State.recall_plain (ht.plain hs)]
  exact (State.writeHome_plain (ht.plain hs) u c.1 c.2).imp ht.trans id

/-! ### Exports of the counters (R400, R401) -/

theorem length_leBytes (n v : Nat) : (leBytes n v).length = n := by
  induction n generalizing v with
  | zero => rfl
  | succ n ih => rw [leBytes, List.length_cons, ih]

/-- Table 15.12 lists 8,916 counters. -/
theorem length_exportOrder : exportOrder.length = 8916 := by
  have hblock : ∀ (n : RegName) (units each : Nat), ((List.range units).flatMap fun i =>
      (List.range each).map fun j => (n, i, j)).length = units * each := fun n units each => by
    simp [List.length_flatMap]
  simp only [exportOrder, List.length_append, hblock]

theorem State.length_sampleBytes (s : State) : s.sampleBytes.length = exportBytes := by
  have hvalues : ∀ l : List (RegName × Nat × Nat),
      (l.flatMap fun c => leBytes 8 (s.count c.1 c.2.1 c.2.2)).length = l.length * 8 := fun l => by
    simp [List.length_flatMap, length_leBytes]
  simp only [State.sampleBytes, List.length_append, length_leBytes, hvalues, length_exportOrder]
  rfl

/-- A sample taken from the budget and counted, before its bytes are written (R400, R401). -/
def State.chargeExport (s : State) : State :=
  { s with obsBudget := s.obsBudget - exportBytes, obsExports := s.obsExports + 1, obsWaiting := none }.bumpField
    .MOD_OBS_STATUS 0 0 15 0 1

theorem State.writeExport_eq (s : State) (a : Nat) (bs : List Byte) :
    s.writeExport a bs =
      if s.chargeExport.isMemoryRange a bs.length then s.chargeExport.writeMem .stoker a bs else s.chargeExport := rfl

theorem State.reg_chargeExport (s : State) {n : RegName} {i : Nat} (hn : n ≠ .MOD_OBS_STATUS) (hi : i < 4096) :
    s.chargeExport.reg n i = s.reg n i := by
  unfold State.chargeExport State.bumpField
  rw [State.setField_eq, State.reg_setReg_other _ _ (by simp [hn]) (by omega) (by omega) hi (by omega)]
  simp only [State.reg]

theorem State.plain_chargeExport (hs : Plain s) : Plain s.chargeExport := by
  obtain ⟨hpresence, hflight, harmed⟩ := hs
  refine ⟨hpresence, hflight, fun a => ?_⟩
  rw [State.armedAt_congr (t := s.chargeExport) (s := s) rfl (fun p hp => s.reg_chargeExport (by decide) (by omega)) a, harmed a]

/-- A sample that its buffer's memory takes: the bytes stand there, one more is counted, and none waits. -/
theorem State.writeExport_plain (hs : Plain s) (hmem : s.isMemoryRange a bs.length = true) :
    let t := s.writeExport a bs
    WritesBytes s t a bs ∧ t.obsBudget = s.obsBudget - exportBytes ∧ t.obsExports = s.obsExports + 1 ∧
      t.obsWaiting = none := by
  have hrange : s.chargeExport.isMemoryRange a bs.length = true := by
    rwa [State.isMemoryRange_congr (t := s.chargeExport) (s := s) rfl (s.reg_chargeExport (by decide) (by omega))]
  intro t
  have ht : t = s.chargeExport.writeMem .stoker a bs := by
    rw [show t = _ from s.writeExport_eq a bs, if_pos hrange]
  obtain ⟨honly, hwrites⟩ := State.writeMem_plain (State.plain_chargeExport hs) .stoker a bs
  rw [← ht] at honly hwrites
  exact ⟨SameBytes.writesBytes (sameBytes_of_eq rfl rfl) hwrites, by rw [honly]; rfl, by rw [honly]; rfl, by rw [honly]; rfl⟩

theorem exec_counterExport (h : s.pair .MOD_OBS_EXP_LO .MOD_OBS_EXP_HI = a) (ha : a ≠ 0)
    (hperiod : s.field .MOD_OBS_CFG 0 0 15 0 ≠ 0) (hpercent : s.field .MOD_OBS_CFG 0 0 20 16 ≠ 0)
    (hwaits : s.obsWaiting = none) :
    exec .counterExport s =
      if exportBytes ≤ s.obsBudget then .next (s.writeExport a s.sampleBytes)
      else .next { s with obsWaiting := some (a, s.sampleBytes) } := by
  have hrefill : s.obsRefill ≠ 0 := by simpa [State.obsRefill] using hpercent
  have hexec : exec .counterExport s = execCounterExport s := rfl
  simp [hexec, execCounterExport, h, ha, hperiod, hrefill, hwaits]

end Sys2Proof.Machine
end

section
/-! ### O48 -/

open Sys2Proof Sys2Proof.Machine

/-- Settles O48: windows, grants and aging change arbiters as the lemmas about each say, and a sample is written where
memory alone holds every byte. What a window and a grant are is the model's choice (log entries 61 and 62). -/
theorem arbitersAndObservation : Obligations.ArbitersAndObservation := by
  unfold Obligations.ArbitersAndObservation
  refine ⟨fun s arb l => ?_, ?_, fun x y a q h => ?_, fun s arb i waited => ⟨fun harb => ⟨?_, ?_⟩, ?_⟩, ?_, ?_⟩
  · by_cases hport : ∃ p, arb = .port p
    · obtain ⟨p, rfl⟩ := hport
      exact ⟨_, exec_censusWindow_port s p l, fun h => absurd rfl (h p)⟩
    · have harb : ∀ p, arb ≠ .port p := fun p hp => hport ⟨p, hp⟩
      have honly := (s.onlyArbs_windowCycles arb l).trans (State.onlyArbs_census _ arb)
      refine ⟨_, exec_censusWindow s harb l, fun _ => ⟨honly, honly.sameBytes, ?_⟩⟩
      rintro rfl hidle hstack
      rw [s.windowCycles_idle hstack hidle]
      refine ⟨?_, s.granted_census arb, fun k hk => s.weight_census arb hk⟩
      rw [State.seen_census, hidle arb (arbBelow_self arb)]
      rfl
  · rintro s l e c n bg up (rfl : up = clusterArb l) hidle
    refine ⟨_, exec_censusWindow s (by simp) _, fun hfree => ?_, fun hheld => ?_⟩
    · obtain ⟨hcore, hup⟩ := s.windowCycles_engine_free c hidle hfree (e := e) (n := n) (bg := bg)
      rw [State.waiting_census, State.arb_census_other _ (clusterArb_ne_core l l)]
      exact ⟨hcore, hup⟩
    · rw [s.windowCycles_engine_held c hidle hheld, State.waiting_census, State.arb_census_other _ (clusterArb_ne_core l l),
        State.arb_setArb_other _ _ (clusterArb_ne_core l l), State.arb_setArb_same]
      exact ⟨rfl, by simp [Arb.enter, hidle, engineReq]⟩
  · obtain ⟨hserves, hdeficit⟩ := Arb.grant_some h
    refine ⟨Arb.mem_grant h, fun hu => ?_, fun hu => ?_, fun hu hb r hr => ?_, hdeficit⟩
    · rw [q.cls_eq_urgent.2 hu] at hserves
      exact Arb.serves_urgent hserves
    · exact Arb.serves_calm hserves (by simp [hu])
    · rw [q.cls_eq_background.2 ⟨hu, hb⟩] at hserves
      have hnormal := Arb.serves_background hserves r hr
      rw [Ne, r.cls_eq_normal] at hnormal
      exact or_iff_not_imp_left.2 (by simpa using hnormal)
  · exact fun hr bg => exec_agingPromote_absent s harb hr bg waited
  · intro r hr
    refine ⟨?_, fun hearly => ?_, fun hlate => ?_⟩
    · rw [exec_agingPromote s harb hr, if_pos (.inl (by simp))]
    · rw [exec_agingPromote s harb hr, if_pos (.inr hearly)]
    · rw [exec_agingPromote s harb hr, if_neg (by simpa [State.arbThreshold] using hlate)]
      refine ⟨_, rfl, State.onlyArbs_setArb .., (State.onlyArbs_setArb ..).sameBytes, by rw [State.arb_setArb_same], ?_⟩
      exact fun b hb => State.arb_setArb_other _ _ fun h => hb (by rw [h])
  · rintro p rfl
    exact ⟨fun bg => ⟨_, exec_agingPromote_eq .., s.sameBytes_ageFlit p i bg waited⟩,
      fun f hf h bg => by rw [exec_agingPromote_eq, execAgingPromote, s.ageFlit_early hf h]⟩
  · intro s a ha hne hperiod hpercent hwaits hs
    rw [exec_counterExport ha hne hperiod hpercent hwaits]
    refine ⟨fun hbudget hmem => ?_, fun hbudget => ?_⟩
    · rw [if_pos hbudget]
      obtain ⟨hwrites, hleft, hcount, hnone⟩ := State.writeExport_plain hs (bs := s.sampleBytes)
        (by rwa [s.length_sampleBytes])
      have hbytes := hwrites.bytes_eq
      have hframe := hwrites.sameBytesBut
      rw [s.length_sampleBytes] at hbytes hframe
      exact ⟨_, rfl, hbytes, hframe, hleft, hcount, hnone⟩
    · rw [if_neg (by omega)]
      exact ⟨_, rfl, rfl, sameBytes_of_eq rfl rfl⟩
  · intro s hwaits
    refine ⟨{ s with obsBudget := s.obsRefill }, ?_, rfl, sameBytes_of_eq rfl rfl⟩
    have hexec : exec .budgetRefill s = execBudgetRefill s := rfl
    simp only [hexec, execBudgetRefill, hwaits]

end

section
/-!
Patrol of a stack's row whose errors recur, and a state in which its count is not what O45 says. R39 ends the sets of an interleave
entry at 3, and so the stacks at 11; O45 is said of every state, also of one whose entry names a stack of number 229,376. The
register file tells registers apart by name and by indices below 4,096 (`RegRef.key`), and with that number the stack's
STK_CE_COUNT is the word of STO_ALOG_STATUS. When the ash log is full, the record of the spared row moves that word on.
-/

namespace Sys2Proof.Machine

open Sys2Proof

variable (s : State)

/-! ### Patrol of a recurring error (R226, R330, R345) -/

theorem exec_patrolScrub_corrected {a : Nat} {x : Placed} (hplace : s.place a = some x)
    (hon : s.domainState x.domain = pwOn) :
    exec (.patrolScrub a .corrected) s = .next (s.correctError (s.ceUnit a)) := by
  have hexec : exec (.patrolScrub a .corrected) s = execPatrolScrub a .corrected s := rfl
  simp only [hexec, execPatrolScrub, hplace, hon, ne_eq, not_true, if_false]

/-- The row of a near address on a stack. -/
theorem State.ceUnit_near {a : Nat} {x : Placed} (hwindow : windowOf a = none) (hplace : s.place a = some x)
    (hring : x.ring = false) : (s.ceUnit a).kind = 3 ∧ (s.ceUnit a).unit = x.unit := by
  simp only [State.ceUnit, hwindow, hplace, hring, Bool.false_eq_true, if_false, and_self]

/-- A record that enters a full ash log overwrites the oldest: STO_ALOG_STATUS counts the loss and one record fewer (R352). -/
theorem State.regs_ash_full (r : AshRec) (h : s.sto.ash.length = ashDepth) :
    (s.ash r).regs = ((s.bumpField .STO_ALOG_STATUS 0 0 31 17 1).setField .STO_ALOG_STATUS 0 0 16 0
      (s.field .STO_ALOG_STATUS 0 0 16 0 - 1)).regs := by
  have hfull : ¬ s.sto.ash.length < ashDepth := by omega
  unfold State.ash
  dsimp only
  rw [State.msix_frame, if_neg hfull]

/-- What the count of a stack's error that recurs, its spared row and their record leave in the register file. -/
theorem State.regs_correctError_recurring {u : CeUnit} (hkind : u.kind = 3) (herred : s.erred.contains u = true)
    (hfull : s.sto.ash.length = ashDepth) :
    let counted := (s.bumpField .STK_CE_COUNT u.unit 0 31 0 1).bumpField .STK_REPAIR u.unit 0 31 16 1
    (s.correctError u).regs = ((counted.bumpField .STO_ALOG_STATUS 0 0 31 17 1).setField .STO_ALOG_STATUS 0 0 16 0
      (counted.field .STO_ALOG_STATUS 0 0 16 0 - 1)).regs := by
  have hrows : u.hasRows = true := by simp [CeUnit.hasRows, hkind]
  simp only [State.correctError, hkind, if_true]
  rw [State.errorIn_second _ u hrows (by exact herred), State.spareRow]
  simp only [hkind, if_true]
  exact State.regs_ash_full _ _ hfull

/-! ### The counterexample -/

/-- A stack far beyond the twelve of a module: the key of its STK_CE_COUNT is that of STO_ALOG_STATUS. -/
def farStack : Nat := 229376

theorem key_ceCount_farStack :
    ({ name := .STK_CE_COUNT, i := farStack } : RegRef).key = ({ name := .STO_ALOG_STATUS } : RegRef).key := by decide

/-- One interleave entry, of a set that places address 2 on the far stack. -/
def farEntry : ILEntry := { base := 0, len := 3, offset := 0, mode := 0, set := 76458, granule := 0 }

/-- The far stack is ON, and the ash log is full. -/
def farState : State :=
  { State.reset with
    cfg := { interleave := [farEntry] }
    regs := [(({ name := .MOD_PWR_STATE, i := 20 + farStack } : RegRef).key, 2)]
    sto := { State.reset.sto with ash := List.replicate ashDepth { time := 0, src := 0, kind := 0, severity := 0 } } }

/-- Address 2's row has had an error before. -/
def farErred : State := { farState with erred := [farState.ceUnit 2] }

theorem place_farErred : farErred.place 2 = some { ring := false, unit := farStack, within := 0 } := by decide

theorem domainState_farErred : farErred.domainState (20 + farStack) = pwOn := by decide

theorem ceCount_farErred : farErred.reg .STK_CE_COUNT farStack = 0 := by decide

/-- The row of address 2 is counted once, and then the record of its spare takes the count for its own word. -/
theorem ceCount_correctError_farErred :
    (farErred.correctError (farErred.ceUnit 2)).reg .STK_CE_COUNT farStack = 0x20000 := by
  obtain ⟨hkind, hunit⟩ := farErred.ceUnit_near (by decide) place_farErred rfl
  have herred : farErred.erred.contains (farErred.ceUnit 2) = true := by
    rw [show farErred.erred = [farErred.ceUnit 2] from rfl]
    simp
  have hregs := farErred.regs_correctError_recurring hkind herred List.length_replicate
  rw [hunit] at hregs
  rw [State.reg, hregs, key_ceCount_farStack]
  decide

end Sys2Proof.Machine

open Sys2Proof Sys2Proof.Machine

/-- Refutes O45: of a state whose interleave table R39 does not allow, it claims that patrol leaves STK_CE_COUNT one higher. There
that register shares its word with STO_ALOG_STATUS, and the count of 0 becomes 0x20000. -/
theorem not_memoryErrorsAndSpares : ¬ Obligations.MemoryErrorsAndSpares := by
  rintro ⟨-, -, -, -, -, hpatrol, -⟩
  obtain ⟨-, -, t, hexec, -, hcount⟩ := (hpatrol farErred 2 _ place_farErred).2 domainState_farErred
  rw [exec_patrolScrub_corrected _ place_farErred domainState_farErred] at hexec
  obtain rfl := Host.Outcome.next.inj hexec
  have hone := hcount rfl (by decide)
  rw [ceCount_correctError_farErred, ceCount_farErred] at hone
  exact absurd hone (by decide)
end

section
/-!
Issue of a control core's instructions at its pc, and what each of its own operations answers there. O5, O7, O8 and O9 are
assembled from them.
-/

namespace Sys2Proof.Machine

open Sys2Proof

variable {s t : State} {l : CoreId} {w : W32} {len : Nat}

/-! ### Issue (R26, R59, R62) -/

theorem State.ccIssue_at (k : Nat → State → State) (h : CcAt s l w len) :
    s.ccIssue l (s.fetches l w) k = .next (k len s) := by
  obtain ⟨⟨hruns, hok⟩, hfetch⟩ := h
  simp only [State.ccIssue, hruns, hok, hfetch]
  rfl

theorem State.ccIssue_raw (k : Nat → State → State) (h : CcIssues s l) (hfetch : s.fetchesRaw l w = some len) :
    s.ccIssue l (s.fetchesRaw l w) k = .next (k len s) := by
  obtain ⟨hruns, hok⟩ := h
  simp only [State.ccIssue, hruns, hok, hfetch]
  rfl

theorem exec_qpush (rd rs1 rs2 : XReg) (f7 : BitVec 7) (h : CcAt s l (xclqEnc f7.toNat rs2 rs1 0 rd) len) :
    exec (.qpush l rd rs1 rs2 f7) s = .next (s.qpush l rd rs1 rs2 f7.toNat) :=
  State.ccIssue_at (fun _ t => t.qpush l rd rs1 rs2 f7.toNat) h

theorem exec_qstat (rd rs1 : XReg) (f7 : BitVec 7) (h : CcAt s l (xclqEnc f7.toNat 0 rs1 1 rd) len) :
    exec (.qstat l rd rs1 f7) s = .next (s.qstat l rd rs1 f7.toNat) :=
  State.ccIssue_at (fun _ t => t.qstat l rd rs1 f7.toNat) h

theorem exec_cwait (rd rs1 rs2 : XReg) (f7 : BitVec 7) (h : CcAt s l (xclqEnc f7.toNat rs2 rs1 2 rd) len) :
    exec (.cwait l rd rs1 rs2 f7) s = .next (s.cwait l rd rs1 rs2 f7.toNat) :=
  State.ccIssue_at (fun _ t => t.cwait l rd rs1 rs2 f7.toNat) h

theorem exec_csig (rd rs1 rs2 : XReg) (f7 : BitVec 7) (h : CcAt s l (xclqEnc f7.toNat rs2 rs1 3 rd) len) :
    exec (.csig l rd rs1 rs2 f7) s = .next (s.csig l rd rs1 rs2 f7.toNat) :=
  State.ccIssue_at (fun _ t => t.csig l rd rs1 rs2 f7.toNat) h

theorem exec_gtb (rd : XReg) (f7 : BitVec 7) (h : CcAt s l (xclqEnc f7.toNat 0 0 4 rd) len) :
    exec (.gtb l rd f7) s = .next (s.gtbInstr l rd f7.toNat) :=
  State.ccIssue_at (fun _ t => t.gtbInstr l rd f7.toNat) h

theorem exec_ccLoad (rd rs1 : XReg) (imm : BitVec 12) (f3 : BitVec 3) (h : CcAt s l (loadWord rd rs1 imm f3.toNat) len) :
    exec (.ccLoad l rd rs1 imm f3) s =
      .next (if f3 = 7 then s.ccTrap l excIllegal ((loadWord rd rs1 imm f3.toNat).setWidth 64)
        else s.ccLoadAt l rd ((s.cc l).xr rs1 + imm.signExtend 64) f3 len) :=
  State.ccIssue_at (fun len s => if f3 = 7 then s.ccTrap l excIllegal ((loadWord rd rs1 imm f3.toNat).setWidth 64)
    else s.ccLoadAt l rd ((s.cc l).xr rs1 + imm.signExtend 64) f3 len) h

theorem exec_ccStore (rs1 rs2 : XReg) (imm : BitVec 12) (f3 : BitVec 3) (h : CcAt s l (storeWord rs1 rs2 imm f3.toNat) len) :
    exec (.ccStore l rs1 rs2 imm f3) s =
      .next (if 4 ≤ f3.toNat then s.ccTrap l excIllegal ((storeWord rs1 rs2 imm f3.toNat).setWidth 64)
        else s.ccStoreAt l ((s.cc l).xr rs1 + imm.signExtend 64) ((s.cc l).xr rs2) f3.toNat len) :=
  State.ccIssue_at (fun len s => if 4 ≤ f3.toNat then s.ccTrap l excIllegal ((storeWord rs1 rs2 imm f3.toNat).setWidth 64)
    else s.ccStoreAt l ((s.cc l).xr rs1 + imm.signExtend 64) ((s.cc l).xr rs2) f3.toNat len) h

theorem exec_ccInstruction (h : CcIssues s l) (hfetch : s.fetchesRaw l w = some len) :
    exec (.ccInstruction l w) s = .next (s.ccRun l w) :=
  State.ccIssue_raw (fun _ t => t.ccRun l w) h hfetch

/-! ### A core that retires or traps -/

/-- A core that retires an instruction changes nothing else. -/
theorem ccRetires (rd : XReg) (v : W64) (len : Nat) :
    CcRetired (s.cc l) ((s.ccRetire l rd v len).cc l) rd v ((s.cc l).pc + BitVec.ofNat 64 len) ∧
      OnlyCC s (s.ccRetire l rd v len) l :=
  ⟨s.ccRetired_ccRetire l rd v len, s.onlyCC_ccRetire l rd v len⟩

/-- A core that takes an exception changes nothing else. -/
theorem ccTraps (cause : Nat) (tval : W64) :
    CcTrapped (s.cc l) ((s.ccTrap l cause tval).cc l) false cause tval ∧ OnlyCC s (s.ccTrap l cause tval) l :=
  ⟨s.ccTrapped_ccTrap l cause tval, s.onlyCC_ccTrap l cause tval⟩

/-! ### Places of a control core's accesses (Table 3.1) -/

/-- Counter space holds counters alone. -/
theorem State.ccPlace_counter {a n : Nat} (h : counterBase ≤ a) (h' : a < counterEnd) :
    s.ccPlace l a n = .fault ∨ ∃ k, s.ccPlace l a n = .counter k := by
  unfold State.ccPlace
  unfold counterBase at h
  unfold counterEnd at h'
  have h1 : ¬ 2 ^ 43 ≤ a := by omega
  have h2 : ¬ a < scratchEnd := by unfold scratchEnd; omega
  have h3 : windowOf a = none := by
    unfold windowOf windowEnd
    rw [if_neg (by simp; omega)]
  dsimp only
  rw [if_neg h1, if_neg h2, h3]
  dsimp only
  rw [if_pos ⟨by unfold counterBase; omega, by unfold counterEnd; omega⟩]
  split
  · exact .inr ⟨_, rfl⟩
  · exact .inl rfl

/-- The core's own memory is its own at every address of its range. -/
theorem State.ccPlace_priv {a n off : Nat} (h : privOff a = some off) (hok : s.privOk l off n = true) :
    s.ccPlace l a n = .priv off := by
  have hp := h
  unfold privOff privBase at hp
  split at hp
  case isFalse => cases hp
  next hr =>
  unfold State.ccPlace
  have h1 : ¬ 2 ^ 43 ≤ a := by omega
  have h2 : ¬ a < scratchEnd := by unfold scratchEnd; omega
  have h3 : windowOf a = none := by
    unfold windowOf windowEnd
    rw [if_neg (by simp; omega)]
  dsimp only
  rw [if_neg h1, if_neg h2, h3]
  dsimp only
  rw [if_neg (by unfold counterEnd; omega), if_neg (by unfold csrEnd; omega), h]
  dsimp only
  rw [if_pos hok]

end Sys2Proof.Machine
end

section
/-!
The time base, queue status, counter waits and signals of a control core (R63 to R68).
-/

namespace Sys2Proof.Machine

open Sys2Proof

variable {s t : State} {l : CoreId}

/-! ### QSTAT (R65, Table 3.6) -/

/-- The fields of a queue status word. -/
theorem bits_statusWord (acc complete running pending free : Nat) (halted paused blocked : Bool) :
    let b (v : Bool) : Nat := if v then 1 else 0
    let w : W64 := BitVec.ofNat 64 (acc % 2 ^ 24 * 2 ^ 40 + b halted * 2 ^ 34 + b paused * 2 ^ 33 + b blocked * 2 ^ 32 +
      complete % 256 * 2 ^ 24 + running % 256 * 2 ^ 16 + pending % 256 * 2 ^ 8 + free % 256)
    bitsOf w 63 40 = acc % 2 ^ 24 ∧ bitsOf w 15 8 = pending % 256 ∧ bitsOf w 7 0 = free % 256 := by
  intro b w
  have hflag : ∀ v, b v < 2 := fun v => by cases v <;> decide
  have h1 := hflag halted
  have h2 := hflag paused
  have h3 := hflag blocked
  simp only [w, bitsOf, BitVec.toNat_ofNat, Nat.shiftRight_eq_div_pow]
  omega

theorem State.bits_queueStatus (s : State) (l q : Nat) :
    bitsOf (s.queueStatus l q) 63 40 = (s.queue l q).accepted % 2 ^ 24 ∧
      bitsOf (s.queueStatus l q) 15 8 = (s.queue l q).countState .pending % 256 ∧
      bitsOf (s.queueStatus l q) 7 0 = (queueDepth q - (s.queue l q).entries.length) % 256 :=
  bits_statusWord ..

/-! ### Waits (R66, R278) -/

/-- A wait that is added is registered under its value. -/
theorem State.mem_addWaiter (s : State) (w : Wait) (k : Nat) :
    ∃ x ∈ ((s.addWaiter w k).counter k).waiters, x.who = w.who ∧ x.expected = w.expected := by
  unfold State.addWaiter
  dsimp only
  split
  · next h =>
    obtain ⟨x, hx, hw⟩ := List.any_eq_true.1 h
    exact ⟨x, hx, by simpa using hw⟩
  · rw [State.counter_setCounter_same]
    exact ⟨w, by simp, rfl, rfl⟩

theorem State.addWaiter_frame (s : State) (w : Wait) (k : Nat) :
    s.addWaiter w k = { s with counters := (s.addWaiter w k).counters } := by
  unfold State.addWaiter
  dsimp only
  split <;> rfl

/-- What sends a packet changes: the port's, the byte counters, the record of what left. -/
def OnlySends (s t : State) : Prop :=
  t = { s with ports := t.ports, counts := t.counts, out := t.out }

theorem OnlySends.refl (s : State) : OnlySends s s := rfl
theorem OnlySends.trans {a b c : State} (h : OnlySends a b) (k : OnlySends b c) : OnlySends a c := by
  unfold OnlySends at *; rw [k, h]

theorem State.onlySends_pumpPort (p fuel : Nat) (s : State) : OnlySends s (State.pumpPort p fuel s) := by
  induction fuel generalizing s with
  | zero => rfl
  | succ fuel ih =>
    unfold State.pumpPort
    dsimp only
    split
    · rfl
    split
    · rfl
    · exact OnlySends.trans (by rfl) (ih _)

theorem State.onlySends_sendPacket (s : State) (p : Nat) (pk : Packet) : OnlySends s (s.sendPacket p pk) :=
  OnlySends.trans (by rfl) (State.onlySends_pumpPort ..)

theorem State.onlySends_inject (s : State) (dst op tag addr len seq : Nat) (data : List Byte) :
    OnlySends s (s.inject dst op tag addr len seq data).2 := by
  unfold State.inject
  split
  · exact s.onlySends_sendPacket _ _
  all_goals rfl

/-- A request to another module is sent, and waits for its answer. -/
theorem State.ask_frame (s : State) (key dst op tag addr len seq : Nat) (data : List Byte) :
    let t := s.ask key dst op tag addr len seq data
    t = { s with ports := t.ports, counts := t.counts, out := t.out, remotes := t.remotes } := by
  intro t
  have h := s.onlySends_inject dst op tag addr len seq data
  show t = _
  simp only [show t = s.ask key dst op tag addr len seq data from rfl, State.ask]
  rw [h]

/-- A wait that is registered changes no core, no register and no byte of memory. -/
theorem State.registerWait_frame (s : State) (w : Wait) (k : Nat) :
    let t := s.registerWait w k
    t = { s with counters := t.counters, retries := t.retries, ports := t.ports, counts := t.counts, out := t.out,
                 remotes := t.remotes } := by
  intro t
  have hadd := s.addWaiter_frame w k
  have ht : t = s.registerWait w k := rfl
  rw [ht]
  unfold State.registerWait
  split
  · next m _ =>
    unfold State.registerOut
    split
    · rw [hadd]
    · dsimp only
      rw [State.ask_frame, hadd]
  · split
    · rw [hadd]
    · split <;> rfl

/-- Where the home has room, a wait is registered there and nothing else changes. -/
theorem State.registerWait_room (w : Wait) {k : Nat} (howner : s.ownerElsewhere k = none)
    (hroom : s.waitsAt (counterHome k) < waitDepth) : s.registerWait w k = s.addWaiter w k := by
  rw [State.registerWait, howner]
  exact if_pos hroom

/-- The instruction that stalls leaves everything but the control core's `stall` (R66, R67). -/
theorem stalls (x : Stall) : OnlyCC s (s.modCC l fun c => { c with stall := some x }) l ∧
    (s.modCC l fun c => { c with stall := some x }).cc l = { s.cc l with stall := some x } :=
  ⟨onlyCC_modCC s l _, s.cc_modCC_same l _⟩

theorem State.traceWait_off (s : State) (l : CoreId) (v : W64) (h : traceBit (s.mode 0 (.cc l)).2 = false) :
    s.traceWait l false v = s := by
  simp only [State.traceWait, State.traceUnit, Bool.false_eq_true, if_false, h]
  split <;> rfl

theorem State.cwait_met (rd rs1 rs2 : XReg) {h : Nat} (hh : ((s.cc l).xr rs1).toNat % 2 ^ 24 = h) (hok : s.coreHandle l h = true)
    (hmet : s.waitMet (.cc l) (counterOf l h) ((s.cc l).xr rs2) = true) :
    s.cwait l rd rs1 rs2 0 =
      (s.ccRetire l rd (s.value (counterOf l h))).traceWait l false (s.value (counterOf l h)) := by
  simp only [State.cwait, hh, hok, hmet, ne_eq, not_true, if_false, Bool.not_true, Bool.false_eq_true, if_true]

theorem State.cwait_unmet (rd rs1 rs2 : XReg) {h : Nat} (hh : ((s.cc l).xr rs1).toNat % 2 ^ 24 = h) (hok : s.coreHandle l h = true)
    (hmet : s.waitMet (.cc l) (counterOf l h) ((s.cc l).xr rs2) = false) :
    s.cwait l rd rs1 rs2 0 =
      (s.modCC l fun c => { c with stall := some (.cwait rd (counterOf l h) ((s.cc l).xr rs2)) }).registerWait
        { who := .cc l, expected := (s.cc l).xr rs2 } (counterOf l h) := by
  simp only [State.cwait, hh, hok, hmet, ne_eq, not_true, if_false, Bool.not_true, Bool.false_eq_true]

theorem State.csig_good (rd rs1 rs2 : XReg) {kind p h : Nat} (hkind : kind ≤ 2) (hp : s.partOf l = some p)
    (hh : ((s.cc l).xr rs1).toNat % 2 ^ 24 = h) (hok : s.targetOk p kind h = true) :
    s.csig l rd rs1 rs2 kind = s.modCC l fun c => { c with stall := some (.csig rd h kind (c.xr rs2)) } := by
  simp only [State.csig, if_neg (show ¬ 2 < kind by omega), hp, hh, hok, Bool.not_true, Bool.false_eq_true, if_false]

/-! ### The signal of a CSIG (R67, R275) -/

theorem streamCore_ccStream (l : CoreId) : streamCore (ccStream l) = l := by
  have hl := l.isLt
  have hbits : bitsOf (ccStream l) 25 16 = l.val := by
    simp only [ccStream, bitsOf, BitVec.toNat_ofNat, Nat.shiftRight_eq_div_pow]
    omega
  rw [streamCore, hbits]
  exact Fin.ext (Nat.mod_eq_of_lt hl)

theorem SStream.note_here (x : SStream) {g : Sig} (h : homeModule g.home = none) : x.note g = x := by
  rw [SStream.note, h]

/-- A signal that its stream lists as sent, to a home of this module, is on its way. -/
theorem State.sendSignal_listed (st : W32) {g : Sig} (hhome : homeModule g.home = none)
    (hlisted : (s.stream st.toNat).sent.contains g = true) :
    s.sendSignal st g = s.setStream st.toNat (s.stream st.toNat) := by
  simp only [State.sendSignal, hhome, hlisted, if_true, SStream.note_here _ hhome]

/-- What the signal of a CSIG is. -/
theorem State.csigReady_some {rd rd' : XReg} {h kind : Nat} {x : W64} {g : Sig} (hstall : (s.cc l).stall = some (.csig rd h kind x))
    (hready : s.csigReady l = some (rd', g)) :
    rd' = rd ∧ g.msg.seq = (s.cc l).sigSeq + 1 ∧ g.msg.operand = x ∧ g.msg.kind = kindOf kind := by
  rw [State.csigReady, hstall] at hready
  cases hready
  refine ⟨rfl, ?_⟩
  unfold State.mkSig
  dsimp only
  split
  · next hk => exact ⟨rfl, rfl, by rw [hk]; rfl⟩
  · exact ⟨rfl, rfl, rfl⟩

theorem exec_signalSend_csig {rd : XReg} {g : Sig} (hready : s.csigReady l = some (rd, g))
    (hunsent : (s.stream (ccStream l).toNat).unsent = [])
    (hsource : s.sourceReady (ccStream l) g.msg.seq g.msg.system = true)
    (hfollow : s.mayFollow (s.stream (ccStream l).toNat) g = true) :
    exec (.signalSend (ccStream l)) s = .next ((s.csigLeave l rd g).sendSignal (ccStream l) g) := by
  have hexec : exec (.signalSend (ccStream l)) s = execSignalSend (ccStream l) s := rfl
  simp [hexec, execSignalSend, hunsent, streamCore_ccStream, hready, hsource, hfollow]

/-- What the core, its stream and the rest are once the signal of its CSIG has left. -/
theorem State.csigLeave_eq (rd : XReg) {g : Sig} (hseq : g.msg.seq = (s.cc l).sigSeq + 1) :
    let t := s.csigLeave l rd g
    CcRetired { s.cc l with sigSeq := (s.cc l).sigSeq + 1 } (t.cc l) rd (((s.cc l).sigSeq + 1).setWidth 64) ((s.cc l).pc + 4) ∧
      t.stream (ccStream l).toNat =
        { s.stream (ccStream l).toNat with sent := (s.stream (ccStream l).toNat).sent ++ [g] } ∧
      t = { s with cores := t.cores, streams := t.streams } ∧
      (∀ k, k ≠ (ccStream l).toNat → t.stream k = s.stream k) ∧ ∀ k, k ≠ l.val → t.core k = s.core k := by
  intro t
  set u := (s.modCC l fun c => { c with sigSeq := g.msg.seq }).setStream (ccStream l).toNat
    { s.stream (ccStream l).toNat with sent := (s.stream (ccStream l).toNat).sent ++ [g] } with hu
  have ht : t = u.ccRetire l rd (((s.cc l).sigSeq + 1).setWidth 64) := by rw [← hseq]; rfl
  have hcc : u.cc l = { s.cc l with sigSeq := (s.cc l).sigSeq + 1 } := by
    rw [← hseq]
    exact State.cc_modCC_same s l fun c => { c with sigSeq := g.msg.seq }
  obtain ⟨hret, honly⟩ := ccRetires (s := u) (l := l) rd (((s.cc l).sigSeq + 1).setWidth 64) 4
  rw [← ht] at hret honly
  rw [hcc] at hret
  have hrest : ∀ k, t.stream k = u.stream k := fun k => by rw [honly.1.1]; rfl
  refine ⟨hret, ?_, ?_, fun k hk => ?_, fun k hk => ?_⟩
  · rw [hrest, hu, State.stream_setStream_same]
  · rw [honly.1.1, hu]
    rfl
  · rw [hrest, hu, State.stream_setStream_other _ _ hk]
    rfl
  · rw [honly.1.2.1 k hk, hu]
    exact (onlyCC_modCC s l fun c => { c with sigSeq := g.msg.seq }).1.2.1 k hk

end Sys2Proof.Machine

open Sys2Proof Sys2Proof.Machine

/-- Settles O5: each instruction issues, and its operation retires, stalls or registers as the lemma about it says. -/
theorem xclqReadsWaitsAndSignals : Obligations.XclqReadsWaitsAndSignals := by
  unfold Obligations.XclqReadsWaitsAndSignals
  refine ⟨fun s l rd rs1 rs2 len => ⟨fun h => ?gtb, fun sel h hsel hq => ?qstat, fun hd h hh hok => ⟨fun hmet => ?met, fun hmet => ?unmet⟩,
    fun kind p hd h hkind hp hh hok => ?csig⟩, fun s l rd hd kind x g hstall hready hhome hunsent hsource hfollow hnew => ?send⟩
  case gtb => exact ⟨_, exec_gtb rd 0 h, ccRetires rd (s.gtb (l / 192)) 4⟩
  case qstat =>
    have hexec := exec_qstat rd rs1 0 h
    rw [State.qstat, hsel, if_neg (by simp [hq])] at hexec
    obtain ⟨hret, honly⟩ := ccRetires (s := s) (l := l) rd (s.queueStatus l sel) 4
    exact ⟨_, _, hexec, hret, honly, s.bits_queueStatus l sel⟩
  case met =>
    obtain ⟨hret, honly⟩ := ccRetires (s := s) (l := l) rd (s.value (counterOf l hd)) 4
    refine ⟨_, _, (exec_cwait rd rs1 rs2 0 h).trans (congrArg _ (State.cwait_met rd rs1 rs2 hh hok hmet)), rfl, hret, honly, ?_⟩
    intro htrace
    refine State.traceWait_off _ l _ ?_
    rw [State.mode, honly.1.1]
    exact htrace
  case unmet =>
    set u := s.modCC l fun c => { c with stall := some (.cwait rd (counterOf l hd) ((s.cc l).xr rs2)) } with hu
    obtain ⟨honly, hcc⟩ := stalls (s := s) (l := l) (.cwait rd (counterOf l hd) ((s.cc l).xr rs2))
    have hframe := u.registerWait_frame { who := .cc l, expected := (s.cc l).xr rs2 } (counterOf l hd)
    refine ⟨_, (exec_cwait rd rs1 rs2 0 h).trans (congrArg _ (State.cwait_unmet rd rs1 rs2 hh hok hmet)), ?_, ?_, ?_⟩
    · exact honly.1.2.2.trans (sameBytes_of_eq (by rw [hframe]) (by rw [hframe]))
    · rw [hframe]
      exact hcc
    · intro howner hroom
      rw [State.registerWait_room (s := u) _ howner hroom]
      refine ⟨fun n i j => ?_, ?_, u.mem_addWaiter { who := .cc l, expected := (s.cc l).xr rs2 } (counterOf l hd)⟩
      · rw [State.addWaiter_frame]
        rfl
      · rw [State.addWaiter_frame]
        rfl
  case csig =>
    exact ⟨_, (exec_csig rd rs1 rs2 kind h).trans (congrArg _ (State.csig_good rd rs1 rs2 hkind hp hh hok)),
      stalls (s := s) (l := l) _⟩
  case send =>
    obtain ⟨-, hseq, hop, hk⟩ := State.csigReady_some hstall hready
    obtain ⟨hret, hstream, hframe, hother, hcores⟩ := State.csigLeave_eq rd hseq
    refine ⟨hseq, hop, hk, _, exec_signalSend_csig hready hunsent hsource hfollow, ?_⟩
    rw [State.sendSignal_listed _ hhome (by rw [hstream]; simp)]
    generalize s.csigLeave l rd g = t at *
    refine ⟨hret, ?_, ?_, ?_, sameBytes_of_eq ?_ ?_, fun k hk' => ?_, fun k hk' => ?_⟩
    · rw [State.stream_setStream_same, hstream]
    · rw [State.stream_setStream_same, hstream]
      exact hunsent
    · rw [hframe]
      rfl
    · rw [hframe]
      rfl
    · rw [hframe]
      rfl
    · rw [State.stream_setStream_other _ _ hk', hother k hk']
    · rw [(State.units_setStream ..).1, hcores k hk']
end

section
/-!
Reserved encodings, bad addresses and stores to counter space (R60 to R67).
-/

namespace Sys2Proof.Machine

open Sys2Proof

variable {s t : State} {l : CoreId}

/-- An instruction that ends in an exception has its trap for its whole effect. -/
theorem traps_of_exec {i : Instr} {cause : Nat} {tval : W64} (h : exec i s = .next (s.ccTrap l cause tval)) :
    ∃ t, exec i s = .next t ∧ CcTrapped (s.cc l) (t.cc l) false cause tval ∧ OnlyCC s t l :=
  ⟨_, h, ccTraps cause tval⟩

theorem toNat_ne_zero {n : Nat} {x : BitVec n} (h : x ≠ 0) : x.toNat ≠ 0 := fun e => h (BitVec.eq_of_toNat_eq e)

/-- Neither a counter nor any other target of a CSIG is one of a partition that the core does not have, or that the handle is
not of. -/
theorem State.csig_bad (rd rs1 rs2 : XReg) {f7 : Nat} (hf : f7 ≤ 1)
    (h : s.coreHandle l (((s.cc l).xr rs1).toNat % 2 ^ 24) = false) :
    s.csig l rd rs1 rs2 f7 = s.ccTrap l excStoreFault ((s.cc l).xr rs1) := by
  have hkind : ¬ 2 < f7 ∧ f7 ≠ 2 := by omega
  cases hp : s.partOf l with
  | none => simp [State.csig, hkind, hp]
  | some p =>
    rw [State.coreHandle, hp] at h
    simp only [State.csig, State.targetOk, hkind, hp, if_false, h, Bool.not_false, if_true]

theorem State.ccStoreAt_counter {a : W64} (v : W64) {f3 : Nat} (len : Nat) (h : counterBase ≤ a.toNat) (h' : a.toNat < counterEnd)
    (halign : a.toNat % 2 ^ f3 = 0) : s.ccStoreAt l a v f3 len = s.ccTrap l excStoreFault a := by
  unfold State.ccStoreAt
  dsimp only
  rw [if_neg (by omega)]
  obtain hp | ⟨k, hp⟩ := State.ccPlace_counter (s := s) (l := l) (n := 2 ^ f3) h h' <;> rw [hp]

end Sys2Proof.Machine

open Sys2Proof Sys2Proof.Machine

/-- Settles O7: each instruction issues, and the check that it fails is the first that its operation makes. -/
theorem reservedXclqAndFaultsTrap : Obligations.ReservedXclqAndFaultsTrap := by
  unfold Obligations.ReservedXclqAndFaultsTrap
  refine ⟨fun s l rd rs1 rs2 len => ⟨?_, ?_, ?_, ?_, ?_, ?_, ?_, ?_⟩, ?_⟩
  · intro f7 hf
    have hf := toNat_ne_zero hf
    refine ⟨fun h => traps_of_exec ?_, fun h => traps_of_exec ?_, fun h => traps_of_exec ?_, fun h => traps_of_exec ?_⟩
    · rw [exec_qpush rd rs1 rs2 f7 h, State.qpush, if_pos (.inl hf)]
    · rw [exec_qstat rd rs1 f7 h, State.qstat, if_pos (.inl hf)]
    · rw [exec_cwait rd rs1 rs2 f7 h, State.cwait, if_pos hf]
    · rw [exec_gtb rd f7 h, State.gtbInstr, if_pos hf]
  · intro f7 hf h
    exact traps_of_exec (by rw [exec_csig rd rs1 rs2 f7 h, State.csig, if_pos hf])
  · intro imm h
    exact traps_of_exec (by rw [exec_ccLoad rd rs1 imm 7 h, if_pos rfl]; rfl)
  · intro imm f3 hf h
    exact traps_of_exec (by rw [exec_ccStore rs1 rs2 imm f3 h, if_pos hf])
  · intro hq ha h
    exact traps_of_exec (by
      rw [exec_qpush rd rs1 rs2 0 h, State.qpush, if_neg (by simp [hq]), if_pos ha])
  · intro hq ha hout h
    exact traps_of_exec (by
      rw [exec_qpush rd rs1 rs2 0 h, State.qpush, if_neg (by simp [hq]), if_neg (by simpa using ha), if_pos (by omega)])
  · intro hbad
    refine ⟨fun h => traps_of_exec ?_, fun f7 hf h => traps_of_exec ?_⟩
    · rw [exec_cwait rd rs1 rs2 0 h, State.cwait, if_neg (by simp), if_pos (by rw [hbad]; rfl)]
    · rw [exec_csig rd rs1 rs2 f7 h, State.csig_bad rd rs1 rs2 hf hbad]
  · intro imm f3 a hf ha hlo hhi halign h
    exact traps_of_exec (by
      rw [exec_ccStore rs1 rs2 imm f3 h, if_neg (by omega), ha, State.ccStoreAt_counter _ len hlo hhi halign])
  · intro s l w hruns hout
    have hbad : s.fetchOk l = false := by
      have hlen : 0 < wordLen (s.fetchWord l) := by unfold wordLen; split <;> omega
      unfold State.fetchOk
      simp only [Bool.and_eq_false_iff, decide_eq_false_iff_not]
      omega
    obtain ⟨htrap, honly⟩ := ccTraps (s := s) (l := l) excFetchFault (s.cc l).pc
    refine ⟨_, ?_, honly, htrap⟩
    have hexec : exec (.ccInstruction l w) s = s.ccIssue l (s.fetchesRaw l w) fun _ t => t.ccRun l w := rfl
    simp [hexec, State.ccIssue, hruns, hbad]
end

section
/-!
Loads and stores of a control core's own memory (R61, R62, R73).
-/

namespace Sys2Proof.Machine

open Sys2Proof

variable {s t : State} {l : CoreId}

/-- The bytes of a narrower number are the low bytes of a wider one. -/
theorem getD_leBytes (n v k : Nat) : (leBytes n v).getD k 0 = if k < n then BitVec.ofNat 8 (v / 256 ^ k) else 0 := by
  induction n generalizing v k with
  | zero => simp [leBytes]
  | succ n ih =>
    cases k with
    | zero => simp [leBytes]
    | succ k =>
      have hdiv : v / 256 / 256 ^ k = v / 256 ^ (k + 1) := by
        rw [Nat.div_div_eq_div_mul, Nat.pow_succ, Nat.mul_comm]
      rw [leBytes, List.getD_cons_succ, ih, hdiv]
      simp

theorem Core.privStore_frame (c : Core) (off : Nat) (bs : List Byte) :
    c.privStore off bs = { c with priv := (c.privStore off bs).priv } := by
  induction bs generalizing c off with
  | nil => rfl
  | cons b t ih => exact ih _ _

/-- A byte of a core's own memory after bytes are stored: the byte stored there, or what it was before. -/
theorem Core.get_privStore (c : Core) (off o : Nat) (bs : List Byte) :
    SMap.get 0 (c.privStore off bs).priv o =
      if off ≤ o ∧ o < off + bs.length then bs.getD (o - off) 0 else SMap.get 0 c.priv o := by
  induction bs generalizing c off with
  | nil => rw [if_neg (by simp only [List.length_nil]; omega)]; rfl
  | cons b bs ih =>
    rw [Core.privStore, ih, List.length_cons]
    by_cases ho : o = off
    · subst ho
      rw [if_neg (by omega), if_pos (by omega), Nat.sub_self]
      exact SMap.get_set_same ..
    · have hother : SMap.get 0 (SMap.set 0 c.priv off b) o = SMap.get 0 c.priv o := SMap.get_set_other _ _ _ ho
      by_cases hin : off + 1 ≤ o ∧ o < off + 1 + bs.length
      · have hnext : o - off = o - (off + 1) + 1 := by omega
        rw [if_pos hin, if_pos (by omega), hnext, List.getD_cons_succ]
      · rw [if_neg hin, if_neg (by omega)]
        exact hother

/-- The sign extension of LB, LH and LW, and the zero extension of the rest. -/
theorem loadValue_eq {f3 : Nat} (h : f3 < 7) (bs : List Byte) :
    loadValue f3 bs = if f3 < 3 then sext (8 * 2 ^ f3) (ofLe bs) else BitVec.ofNat 64 (ofLe bs) := by
  match f3, h with
  | 0, _ => rfl
  | 1, _ => rfl
  | 2, _ => rfl
  | 3, _ => rfl
  | 4, _ => rfl
  | 5, _ => rfl
  | 6, _ => rfl

theorem State.ccLoadAt_priv (rd : XReg) {a : W64} {f3 : BitVec 3} (len : Nat) {off : Nat}
    (halign : a.toNat % 2 ^ (f3.toNat % 4) = 0) (hoff : privOff a.toNat = some off)
    (hok : s.privOk l off (2 ^ (f3.toNat % 4)) = true) :
    s.ccLoadAt l rd a f3 len =
      s.ccRetire l rd (loadValue f3.toNat ((s.core l).privBytes off (2 ^ (f3.toNat % 4)))) len := by
  unfold State.ccLoadAt
  dsimp only
  rw [if_neg (by omega), State.ccPlace_priv hoff hok]

theorem State.ccStoreAt_priv {a : W64} (v : W64) {f3 : Nat} (len : Nat) {off : Nat} (halign : a.toNat % 2 ^ f3 = 0)
    (hoff : privOff a.toNat = some off) (hok : s.privOk l off (2 ^ f3) = true) :
    s.ccStoreAt l a v f3 len = (s.modCore l fun c => c.privStore off (leBytes (2 ^ f3) v.toNat)).ccRetire l 0 0 len := by
  unfold State.ccStoreAt
  dsimp only
  rw [if_neg (by omega), State.ccPlace_priv hoff hok]

end Sys2Proof.Machine

open Sys2Proof Sys2Proof.Machine

/-- Settles O9: the core's own memory is where `ccPlace` sends every address of its range. That a store to IMEM is performed as one to DMEM
is the model's choice (log entry 41). -/
theorem privateLoadsAndStores : Obligations.PrivateLoadsAndStores := by
  intro s l rs1 imm f3 a off len ha halign hoff hok
  refine ⟨fun rd hf h => ?_, fun rs2 hf h => ?_⟩
  · have hne : f3 ≠ 7 := by rintro rfl; simp at hf
    obtain ⟨hret, honly⟩ := ccRetires (s := s) (l := l) rd
      (loadValue f3.toNat ((s.core l).privBytes off (2 ^ (f3.toNat % 4)))) len
    refine ⟨_, ?_, honly, ?_⟩
    · rw [exec_ccLoad rd rs1 imm f3 h, if_neg hne, ha, State.ccLoadAt_priv rd len halign hoff hok]
    · rw [loadValue_eq hf] at hret ⊢
      exact hret
  · rw [Nat.mod_eq_of_lt hf] at halign hok
    set u := s.modCore l fun c => c.privStore off (leBytes (2 ^ f3.toNat) ((s.cc l).xr rs2).toNat) with hu
    have hcore : u.core l = (s.core l).privStore off (leBytes (2 ^ f3.toNat) ((s.cc l).xr rs2).toNat) := by
      rw [hu, State.modCore_eq, State.core_setCore_same]
    have hcc : u.cc l = s.cc l := by rw [State.cc, hcore, Core.privStore_frame]; rfl
    obtain ⟨hret, honly⟩ := ccRetires (s := u) (l := l) 0 0 len
    rw [hcc] at hret
    have hframe := honly.2
    rw [hcore, Core.privStore_frame] at hframe
    refine ⟨_, ?_, (onlyCore_setCore s l _).trans honly.1, hret, ?_, fun o => ?_⟩
    · rw [exec_ccStore rs1 rs2 imm f3 h, if_neg (by omega), ha, State.ccStoreAt_priv _ len halign hoff hok]
      rfl
    · exact hframe.trans (by rw [hframe])
    · rw [hframe]
      dsimp only
      rw [Core.get_privStore, length_leBytes]
      have hwidth : 2 ^ f3.toNat ≤ 8 := Nat.pow_le_pow_right (n := 2) (by omega) (by omega : f3.toNat ≤ 3)
      by_cases hin : off ≤ o ∧ o < off + 2 ^ f3.toNat
      · rw [if_pos hin, if_pos hin, getD_leBytes, getD_leBytes, if_pos (by omega), if_pos (by omega)]
      · rw [if_neg hin, if_neg hin]
end

section
/-!
Whole instructions of a control core: what a fetched word of four bytes runs as, and the forms of ordinary instructions, fences
and CSR accesses. O8 is assembled from them.
-/

namespace Sys2Proof.Machine

open Sys2Proof

variable {s t : State} {l : CoreId} {w : W32}

/-! ### Fetched words (R59, R62) -/

theorem expand_of_wordLen (h : wordLen w = 4) : expand w = some (w, 4) := by
  have hlow : bitsOf w 15 0 % 4 = 3 := by
    by_contra hne
    rw [wordLen, if_neg] at h
    · cases h
    · simp only [bitsOf, Nat.shiftRight_eq_div_pow] at hne ⊢
      omega
  simp only [expand, hlow]

/-- A word of four bytes at the pc is the whole fetched word. -/
theorem State.expand_of_fetchesRaw (h : s.fetchesRaw l w = some 4) : expand w = some (w, 4) := by
  unfold State.fetchesRaw at h
  dsimp only at h
  split at h
  case isFalse => cases h
  next heq =>
  have hlen : wordLen (s.fetchWord l) = 4 := Option.some.inj h
  rw [hlen] at heq
  obtain rfl : s.fetchWord l = w := by
    refine BitVec.eq_of_toNat_eq ?_
    simpa [bitsOf, Nat.mod_eq_of_lt (BitVec.isLt _)] using heq
  exact expand_of_wordLen hlen

/-- A fetched word runs as the instruction that it holds. -/
theorem exec_ccInstruction_wide (hissue : CcIssues s l) (hfetch : s.fetchesRaw l w = some 4) (h : s.ccExecute l w 4 = some t) :
    exec (.ccInstruction l w) s = .next t := by
  rw [exec_ccInstruction hissue hfetch, State.ccRun, State.expand_of_fetchesRaw hfetch]
  simp [h]

theorem xregOf_rdOf (w : W32) : ((xregOf (rdOf w)).val) = rdOf w := by
  have hlt : rdOf w < 32 := by
    simp only [rdOf, bitsOf]
    omega
  exact Nat.mod_eq_of_lt hlt

/-! ### Computing instructions, jumps and branches -/

theorem State.ccExecute_computed {v : W64} (len : Nat) (h : computed (s.cc l) w = some v) :
    s.ccExecute l w len = some (s.ccRetire l (xregOf (rdOf w)) v len) := by
  rw [State.ccExecute, h, xregOf_rdOf]

theorem computed_addi (c : CC) (hop : bitsOf w 6 0 = 0x13) (hf3 : f3Of w = 0) :
    computed c w = some (c.xr (rs1Of w) + immI w) := by
  simp [computed, hop, hf3, aluOp]

theorem computed_add (c : CC) (hop : bitsOf w 6 0 = 0x33) (hf3 : f3Of w = 0) (hf7 : f7Of w = 0) :
    computed c w = some (c.xr (rs1Of w) + c.xr (rs2Of w)) := by
  simp [computed, hop, hf3, hf7, aluOp]

theorem computed_sub (c : CC) (hop : bitsOf w 6 0 = 0x33) (hf3 : f3Of w = 0) (hf7 : f7Of w = 32) :
    computed c w = some (c.xr (rs1Of w) - c.xr (rs2Of w)) := by
  simp [computed, hop, hf3, hf7, aluOp]

/-- A core that retires an instruction and goes on at another pc changes nothing else. -/
theorem ccJumps (rd : XReg) (v : W64) (len : Nat) (target : W64) :
    let t := (s.ccRetire l rd v len).modCC l fun c => { c with pc := target }
    CcRetired (s.cc l) (t.cc l) rd v target ∧ OnlyCC s t l := by
  obtain ⟨⟨-, hstall, hx, hcsr, hinstr, hhalt, hdcsr, hframe⟩, honly⟩ := ccRetires (s := s) (l := l) rd v len
  refine ⟨?_, honly.trans (onlyCC_modCC _ l _)⟩
  rw [State.cc_modCC_same]
  refine ⟨rfl, hstall, hx, hcsr, hinstr, hhalt, hdcsr, ?_⟩
  exact (congrArg (fun c : CC => { c with pc := target }) hframe).trans rfl

theorem State.ccExecute_jal (len : Nat) (hop : bitsOf w 6 0 = 0x6F) :
    s.ccExecute l w len = some ((s.ccRetire l (xregOf (rdOf w)) ((s.cc l).pc + BitVec.ofNat 64 len) len).modCC l
      fun c => { c with pc := (s.cc l).pc + immJ w }) := by
  have hnone : computed (s.cc l) w = none := by simp [computed, hop]
  rw [State.ccExecute, hnone, hop, xregOf_rdOf]
  rfl

theorem State.ccExecute_beq (len : Nat) (hop : bitsOf w 6 0 = 0x63) (hf3 : f3Of w = 0) :
    s.ccExecute l w len = some (if (s.cc l).xr (rs1Of w) = (s.cc l).xr (rs2Of w) then
      (s.ccRetire l 0 0 len).modCC l fun c => { c with pc := (s.cc l).pc + immB w } else s.ccRetire l 0 0 len) := by
  have hnone : computed (s.cc l) w = none := by simp [computed, hop]
  simp only [State.ccExecute, hnone, hop, hf3, branchTaken, Option.map_some, beq_iff_eq]

/-! ### SYSTEM (R60) -/

theorem State.ccExecute_ecall (len : Nat) : s.ccExecute l 0x00000073 len = some (s.ccTrap l excEcallM 0) := rfl

theorem State.ccExecute_mret (len : Nat) :
    s.ccExecute l 0x30200073 len = some ((s.modCC l fun c => c.countInstr.mret).stepHalt l) := rfl

/-- What MRET leaves of a control core. -/
theorem CC.mret_eq (c : CC) :
    c.countInstr.mret.pc = c.csr csrMepc ∧
      (c.countInstr.mret.csr csrMstatus).getLsbD 3 = (c.csr csrMstatus).getLsbD 7 ∧
      (c.countInstr.mret.csr csrMstatus).getLsbD 7 = true ∧ ∀ r, c.countInstr.mret.xr r = c.xr r := by
  have hcount : ∀ {n : Nat}, n ≠ 0xB02 → c.countInstr.csr n = c.csr n := c.csr_countInstr
  have hstatus : c.countInstr.mret.csr csrMstatus =
      putBit (putBit (c.csr csrMstatus) 3 ((c.csr csrMstatus).getLsbD 7)) 7 true := by
    rw [← hcount (by decide)]
    exact CC.csr_setCsr_same ..
  refine ⟨?_, ?_, ?_, fun r => ?_⟩
  · rw [← hcount (by decide)]
    exact CC.csr_setCsr_other _ _ (by decide)
  · rw [hstatus, getLsbD_putBit _ _ _ _ (by omega) (by omega), if_neg (by omega),
      getLsbD_putBit _ _ _ _ (by omega) (by omega), if_pos rfl]
  · rw [hstatus, getLsbD_putBit _ _ _ _ (by omega) (by omega), if_pos rfl]
  · rw [CC.mret, CC.countInstr_frame]
    rfl

/-! ### Fences (R70) -/

theorem exec_ccFence {fencei : Bool} {rd rs1 : XReg} {imm : BitVec 12} {len : Nat}
    (h : CcAt s l (fenceWord fencei rd rs1 imm) len) (hdone : fencei = true ∨ (s.cc l).stores = []) :
    exec (.ccFence l ⟨fencei, rd, rs1, imm⟩) s = .next (s.ccRetire l (0 : XReg) 0 len) := by
  have hexec : exec (.ccFence l ⟨fencei, rd, rs1, imm⟩) s = .next (s.ccFenceAt l fencei len) :=
    State.ccIssue_at (fun len t => t.ccFenceAt l fencei len) h
  rw [hexec, State.ccFenceAt, if_neg]
  · rfl
  · rcases hdone with h | h <;> simp [h]

/-! ### Flags (R179) -/

theorem State.csrPut_mfpflags (v : W64) :
    s.csrPut l 0x7C0 ((s.reg .CORE_FP_FLAGS (s.physOf l)).setWidth 64 &&& ~~~v) =
      s.setReg .CORE_FP_FLAGS (s.physOf l) 0 (s.reg .CORE_FP_FLAGS (s.physOf l) &&& ~~~v.setWidth 32) := by
  show s.setReg _ _ _ _ = _
  congr 1
  ext i hi
  simp

/-- CSRRC and CSRRCI of mfpflags give rd the old flags; unless they name x0 or no bit, they clear the bits named. -/
theorem State.csrInstr_mfpflags {f3 : Nat} (hf3 : f3 % 4 = 3) (rd : XReg) (rs1 len : Nat) :
    s.csrInstr l f3 0x7C0 rd rs1 len =
      some ((if rs1 = 0 then s else
        s.setReg .CORE_FP_FLAGS (s.physOf l) 0 (s.reg .CORE_FP_FLAGS (s.physOf l) &&&
          ~~~(if f3 < 4 then (s.cc l).xr rs1 else BitVec.ofNat 64 rs1).setWidth 32)).ccRetire l rd
            ((s.reg .CORE_FP_FLAGS (s.physOf l)).setWidth 64) len) := by
  have hexists : csrExists false 0x7C0 = true := by decide
  have hold : s.csrValue l 0x7C0 = (s.reg .CORE_FP_FLAGS (s.physOf l)).setWidth 64 := rfl
  have hnumber : decide (3 ≤ 0x7C0 / 1024) = false := by decide
  have hfree : (0x7C0 = 0xB00) = False := by simp
  simp only [State.csrInstr, hexists, hold, hnumber, hfree, csrNew, hf3, csrWrites, Bool.not_true, Bool.and_false, Bool.or_false,
    Bool.false_eq_true, if_false, State.csrPut_mfpflags]
  by_cases hzero : rs1 = 0 <;> simp [hzero]

/-- The flags that a clearing access of mfpflags leaves. -/
theorem exec_mfpflagsClear {rd : XReg} {imm : Bool} {src : BitVec 5} {len : Nat}
    (h : CcAt s l (encI 0x7C0 src.toNat (if imm then 7 else 3) rd 0x73) len) :
    let v : W32 := if imm then src.setWidth 32 else ((s.cc l).xr src.toNat).setWidth 32
    let f := s.reg .CORE_FP_FLAGS (s.physOf l)
    ∃ u : State, exec (.mfpflagsClear l rd imm src) s = .next (u.ccRetire l rd (f.setWidth 64) len) ∧
      u = { s with regs := u.regs } ∧ u.reg .CORE_FP_FLAGS (s.physOf l) = f &&& ~~~v := by
  intro v f
  have hv : (if (if imm then 7 else 3) < 4 then (s.cc l).xr src.toNat else BitVec.ofNat 64 src.toNat).setWidth 32 = v := by
    cases imm with
    | false => rfl
    | true => exact BitVec.eq_of_toNat_eq (by simp [v])
  have hexec : exec (.mfpflagsClear l rd imm src) s =
      .next ((s.csrInstr l (if imm then 7 else 3) 0x7C0 rd src.toNat len).getD s) :=
    State.ccIssue_at (fun n t => (t.csrInstr l (if imm then 7 else 3) 0x7C0 rd src.toNat n).getD t) h
  rw [State.csrInstr_mfpflags (by cases imm <;> rfl), hv] at hexec
  refine ⟨_, hexec, ?_, ?_⟩
  · split <;> rfl
  · split
    · next hzero =>
      obtain rfl : src = 0 := BitVec.eq_of_toNat_eq hzero
      have hnone : v = 0 := by cases imm <;> rfl
      rw [hnone]
      simp only [f, BitVec.ofNat_eq_ofNat, BitVec.not_zero, BitVec.and_allOnes]
    · exact State.reg_setReg_same ..

end Sys2Proof.Machine

open Sys2Proof Sys2Proof.Machine

/-- Settles O8: each fetched word runs as the instruction that it holds, which retires, jumps or traps as the lemma about it
says. -/
theorem controlCoreInstructionsComplete : Obligations.ControlCoreInstructionsComplete := by
  intro s l hissue does c
  have retires {i : Instr} {rd : XReg} {v : W64} {len : Nat} (h : exec i s = .next (s.ccRetire l rd v len)) :
      does i rd v (c.pc + BitVec.ofNat 64 len) := ⟨_, h, ccRetires rd v len⟩
  have jumps {i : Instr} {rd : XReg} {v target : W64} {len : Nat}
      (h : exec i s = .next ((s.ccRetire l rd v len).modCC l fun c => { c with pc := target })) : does i rd v target :=
    ⟨_, h, ccJumps rd v len target⟩
  refine ⟨fun w hfetch => ⟨?addi, ?add, ?sub, ?jal, ?beq, ?ecall, ?mret⟩, ?fence, ?flags⟩
  case addi =>
    exact fun hop hf3 => retires (exec_ccInstruction_wide hissue hfetch (State.ccExecute_computed 4 (computed_addi c hop hf3)))
  case add =>
    exact fun hop hf3 hf7 =>
      retires (exec_ccInstruction_wide hissue hfetch (State.ccExecute_computed 4 (computed_add c hop hf3 hf7)))
  case sub =>
    exact fun hop hf3 hf7 =>
      retires (exec_ccInstruction_wide hissue hfetch (State.ccExecute_computed 4 (computed_sub c hop hf3 hf7)))
  case jal => exact fun hop => jumps (exec_ccInstruction_wide hissue hfetch (State.ccExecute_jal 4 hop))
  case beq =>
    intro hop hf3
    have hexec := exec_ccInstruction_wide hissue hfetch (State.ccExecute_beq 4 hop hf3)
    split at hexec
    · next heq => rw [if_pos heq]; exact jumps hexec
    · next hne => rw [if_neg hne]; exact retires hexec
  case ecall =>
    rintro rfl
    exact ⟨_, exec_ccInstruction_wide hissue hfetch (State.ccExecute_ecall 4), ccTraps excEcallM 0⟩
  case mret =>
    rintro rfl
    have hcc : ((s.modCC l fun c => c.countInstr.mret).stepHalt l).cc l =
        c.countInstr.mret.stepped ((s.modCC l fun c => c.countInstr.mret).gtb (l / 192)) := by
      rw [State.cc_stepHalt, State.cc_modCC_same]
    obtain ⟨hpc, hmie, hmpie, hx⟩ := c.mret_eq
    refine ⟨_, exec_ccInstruction_wide hissue hfetch (State.ccExecute_mret 4),
      (onlyCC_modCC s l _).trans (State.onlyCC_stepHalt _ l), ?_⟩
    rw [hcc, CC.csr_stepped _ _ (by decide)]
    refine ⟨?_, hmie, hmpie, fun r => ?_⟩
    · rw [CC.stepped_frame]
      exact hpc
    · rw [CC.xr_stepped, hx]
  case fence =>
    exact fun rd rs1 imm fencei len hfetch hdone => retires (exec_ccFence ⟨hissue, hfetch⟩ hdone)
  case flags =>
    intro rd imm src len hfetch v f
    obtain ⟨u, hexec, hframe, hreg⟩ := exec_mfpflagsClear ⟨hissue, hfetch⟩
    obtain ⟨hret, honly⟩ := ccRetires (s := u) (l := l) rd (f.setWidth 64) len
    have hcc : u.cc l = c := by rw [hframe]; rfl
    rw [hcc] at hret
    refine ⟨_, hexec, hret, ?_, ?_, ?_⟩
    · rw [honly.1.1, hframe]
    · exact (sameBytes_of_eq (t := u) (by rw [hframe]) (by rw [hframe])).trans honly.1.2.2
    · exact (honly.sameRegs ..).trans hreg
end

section
/-!
What an access of memory can change beside bytes, said once for every operation of Laws.Homes: the caches' lines, reservations,
tags, counts and the log. Admission and the control cache rest on it.
-/

namespace Sys2Proof.Machine

open Sys2Proof

variable {s t u : State}

/-- The states differ in what accesses of memory, and the span entries that admission reads, change at most. Of the registers they
move on STO_ALOG_STATUS alone, where a write to an armed golden copy is logged (R234). -/
structure Accessed (s t : State) : Prop where
  frame : t = { s with out := t.out, regs := t.regs, counts := t.counts, mem := t.mem, lost := t.lost, hearth := t.hearth,
                       presence := t.presence, inFlight := t.inFlight, cores := t.cores, sto := t.sto, msixPend := t.msixPend,
                       hostLink := t.hostLink }
  core : ∀ k, t.core k = { s.core k with cache := (t.core k).cache, evict := (t.core k).evict,
                                         spanCache := (t.core k).spanCache,
                                         cc := { (s.core k).cc with resv := (t.core k).cc.resv } }
  reg : ∀ n i j, n ≠ .STO_ALOG_STATUS → i < 4096 → j < 4096 → t.reg n i j = s.reg n i j
  resv : ∀ k, (t.cc k).resv = (s.cc k).resv ∨ (t.cc k).resv = none

theorem Accessed.refl (s : State) : Accessed s s := ⟨rfl, fun _ => rfl, fun _ _ _ _ _ _ => rfl, fun _ => .inl rfl⟩

theorem Accessed.trans (h : Accessed s t) (k : Accessed t u) : Accessed s u where
  frame := by rw [k.frame, h.frame]
  core j := by rw [k.core, h.core]
  reg n i j hn hi hj := (k.reg n i j hn hi hj).trans (h.reg n i j hn hi hj)
  resv j := by
    rcases k.resv j with hk | hk
    · rw [hk]
      exact h.resv j
    · exact .inr hk

/-- What every turn of a fold accesses, the fold accesses. -/
theorem accessed_foldl {α : Type} {f : State → α → State} (hf : ∀ s a, Accessed s (f s a)) (l : List α) (s : State) :
    Accessed s (l.foldl f s) :=
  foldl_keeps (Accessed s) f (fun t a h => h.trans (hf t a)) l s (Accessed.refl s)

/-- What leaves cores and registers alone. -/
theorem Accessed.of_frame
    (h : t = { s with out := t.out, counts := t.counts, mem := t.mem, lost := t.lost, hearth := t.hearth,
                      presence := t.presence, inFlight := t.inFlight, sto := t.sto, msixPend := t.msixPend,
                      hostLink := t.hostLink }) : Accessed s t where
  frame := by rw [h]
  core k := by rw [h]; rfl
  reg n i j _ _ _ := by rw [h]; rfl
  resv k := .inl (by rw [h]; rfl)

theorem OnlyCounts.accessed (h : OnlyCounts s t) : Accessed s t := Accessed.of_frame (by rw [h])

/-- Lines and reservations of one core. -/
theorem accessed_setCore (l : Nat) (c : Core)
    (h : c = { s.core l with cache := c.cache, evict := c.evict, spanCache := c.spanCache,
                             cc := { (s.core l).cc with resv := c.cc.resv } })
    (hresv : c.cc.resv = (s.core l).cc.resv ∨ c.cc.resv = none) : Accessed s (s.setCore l c) where
  frame := rfl
  core k := by
    by_cases hk : k = l
    · rw [hk, State.core_setCore_same, ← h]
    · rw [State.core_setCore_other _ _ hk]
  reg _ _ _ _ _ _ := rfl
  resv k := by
    by_cases hk : k = l
    · rw [State.cc, hk, State.core_setCore_same]
      exact hresv
    · exact .inl (by rw [State.cc, State.core_setCore_other _ _ hk]; rfl)

theorem State.accessed_cancelResv (s : State) (a n : Nat) : Accessed s (s.cancelResv a n) := by
  unfold State.cancelResv State.eachCore
  refine accessed_foldl (fun t l => ?_) _ s
  refine accessed_setCore l _ ?_ ?_ <;> dsimp only <;> split
  · rfl
  · split <;> rfl
  · exact .inl rfl
  · split
    · exact .inr rfl
    · exact .inl rfl

theorem State.accessed_store (s : State) (a : Nat) (bs : List Byte) : Accessed s (s.store a bs) :=
  Accessed.of_frame (by rw [State.store_frame])

theorem State.accessed_ashNow (s : State) (src : W32) (kind severity part unit lcore : Nat) (span : W32) (start length detail : Nat) :
    Accessed s (s.ashNow src kind severity part unit lcore span start length detail) where
  frame := by rw [State.ashNow_frame]
  core k := by rw [State.core_ashNow]
  resv k := .inl (by rw [State.cc, State.core_ashNow]; rfl)
  reg n i j hn hi hj := by
    have hother : ∀ (t : State) w, (t.setReg .STO_ALOG_STATUS 0 0 w).reg n i j = t.reg n i j := fun t w =>
      t.reg_setReg_other w (by simp [hn]) (by omega) (by omega) hi hj
    unfold State.ashNow State.ash
    dsimp only
    rw [State.msix_frame]
    split
    · rfl
    · exact (hother _ _).trans (hother _ _)

theorem State.accessed_put (s : State) (src : W32) (a : Nat) (bs : List Byte) : Accessed s (s.put src a bs) := by
  refine accessed_foldl (fun t c => ?_) _ s
  split
  · exact t.accessed_ashNow ..
  · exact (t.accessed_cancelResv _ _).trans (State.accessed_store ..)

theorem State.accessed_hearthTouch (s : State) (p : Option Nat) (a : Nat) (w al : Bool) :
    Accessed s (s.hearthTouch p a w al).2 :=
  Accessed.of_frame (by rw [State.hearthTouch_frame])

theorem State.accessed_readHome (s : State) (u : Unit) (a n : Nat) (st : Bool) : Accessed s (s.readHome u a n st) :=
  Accessed.of_frame (by rw [State.readHome_frame])

theorem State.accessed_writeHome (s : State) (u : Unit) (a : Nat) (bs : List Byte) : Accessed s (s.writeHome u a bs) := by
  unfold State.writeHome
  split
  · exact s.accessed_put ..
  dsimp only
  refine Accessed.trans ?_ (State.accessed_put ..)
  refine Accessed.trans ?_ (State.onlyCounts_account ..).accessed
  refine Accessed.trans (s.accessed_hearthTouch (s.unitPart u) a true (allocates u true false)) ?_
  refine Accessed.trans (t := ?filled) ?fill ?through
  case through =>
    split
    · split
      · exact (State.onlyCounts_addCount ..).accessed
      · exact Accessed.refl _
    · exact Accessed.refl _
  case fill =>
    split
    · split
      · exact (State.onlyCounts_countPlaced ..).accessed
      · exact Accessed.refl _
    · exact Accessed.refl _

theorem State.accessed_writeHomes (s : State) (u : Unit) (a : Nat) (bs : List Byte) : Accessed s (s.writeHomes u a bs) :=
  accessed_foldl (fun t _ => t.accessed_writeHome ..) _ s

theorem State.accessed_writeBack (s : State) (l : Nat) (c : CLine) : Accessed s (s.writeBack l c) :=
  s.accessed_writeHomes ..

theorem State.accessed_dropEvict (s : State) (l line : Nat) : Accessed s (s.modCore l (·.dropEvict line)) :=
  accessed_setCore l _ rfl (.inl rfl)

theorem State.accessed_setLineState (s : State) (l line : Nat) (st : CState) :
    Accessed s (s.modCore l (·.setLineState line st)) :=
  accessed_setCore l _ rfl (.inl rfl)

theorem State.accessed_dropFrom (s : State) (l line : Nat) : Accessed s (s.dropFrom l line) := accessed_setCore l _ rfl (.inl rfl)

theorem State.accessed_snoopRead (s : State) (l line : Nat) : Accessed s (s.snoopRead l line) := by
  unfold State.snoopRead
  split
  · exact (s.accessed_writeBack ..).trans (State.accessed_dropEvict ..)
  split
  · exact Accessed.refl s
  split
  · exact (s.accessed_writeBack ..).trans (State.accessed_setLineState ..)
  · exact s.accessed_setLineState ..
  · exact Accessed.refl s
  · exact Accessed.refl s

theorem State.accessed_invalidateAt (s : State) (l line : Nat) : Accessed s (s.invalidateAt l line) := by
  unfold State.invalidateAt
  refine Accessed.trans ?_ (State.accessed_dropFrom ..)
  split
  · exact s.accessed_writeBack ..
  split
  · split
    · exact s.accessed_writeBack ..
    · exact Accessed.refl s
  · exact Accessed.refl s

theorem State.accessed_setHolders (s : State) (line : Nat) (ls : List Nat) : Accessed s (s.setHolders line ls) :=
  Accessed.of_frame rfl

theorem State.accessed_settle (s : State) (line : Nat) : Accessed s (s.settle line) := by
  unfold State.settle
  split
  · exact Accessed.refl s
  · refine Accessed.trans ?_ (State.accessed_writeHomes ..)
    exact Accessed.of_frame rfl

theorem State.accessed_recall (s : State) (line : Nat) (w : Bool) : Accessed s (s.recall line w) := by
  unfold State.recall
  dsimp only
  refine (s.accessed_settle line).trans ?_
  split
  · exact (accessed_foldl (fun t l => t.accessed_invalidateAt l line) _ _).trans (State.accessed_setHolders ..)
  · exact accessed_foldl (fun t l => t.accessed_snoopRead l line) _ _

theorem State.accessed_readLine (s : State) (u : Unit) (a n : Nat) (st : Bool) : Accessed s (s.readLine u a n st).2 :=
  (s.accessed_recall ..).trans (State.accessed_readHome ..)

theorem State.accessed_writeLine (s : State) (u : Unit) (a : Nat) (bs : List Byte) : Accessed s (s.writeLine u a bs) :=
  (s.accessed_recall ..).trans (State.accessed_writeHome ..)

theorem State.accessed_readMem (s : State) (u : Unit) (a n : Nat) (st : Bool) : Accessed s (s.readMem u a n st).2 := by
  unfold State.readMem
  refine foldl_keeps (fun q : List Byte × State => Accessed s q.2) _ (fun r p h => ?_) _ ([], s) (Accessed.refl s)
  exact Accessed.trans h (r.2.accessed_readLine u p.1 p.2 st)

theorem State.accessed_writeMem (s : State) (u : Unit) (a : Nat) (bs : List Byte) : Accessed s (s.writeMem u a bs) :=
  accessed_foldl (fun t _ => t.accessed_writeLine ..) _ s

theorem State.accessed_readPieces (s : State) (u : Unit) (l : List (Nat × Nat)) (st : Bool) :
    Accessed s (s.readPieces u l st).2 := by
  unfold State.readPieces
  refine foldl_keeps (fun q : List Byte × State => Accessed s q.2) _ (fun r p h => ?_) _ ([], s) (Accessed.refl s)
  exact Accessed.trans h (r.2.accessed_readMem u p.1 p.2 st)

end Sys2Proof.Machine
end

section
/-!
QPUSH, its requests for a shared record, and its admission (R64, R86, R92, R333).
-/

namespace Sys2Proof.Machine

open Sys2Proof

variable {s t u : State} {l : CoreId}

/-! ### Requests for a shared record (R333) -/

/-- The states differ at most in the requests for a shared record that the cluster `c` holds. -/
def OnlyAsks (s t : State) (c : Nat) : Prop :=
  t = { s with clusters := t.clusters } ∧ (∀ k, k ≠ c → t.cluster k = s.cluster k) ∧
    t.cluster c = { s.cluster c with recordWait := (t.cluster c).recordWait }

theorem OnlyAsks.refl (s : State) (c : Nat) : OnlyAsks s s c := ⟨rfl, fun _ _ => rfl, rfl⟩

theorem OnlyAsks.trans {c : Nat} (h : OnlyAsks s t c) (k : OnlyAsks t u c) : OnlyAsks s u c := by
  obtain ⟨h1, h2, h3⟩ := h
  obtain ⟨k1, k2, k3⟩ := k
  exact ⟨by rw [k1, h1], fun j hj => (k2 j hj).trans (h2 j hj), by rw [k3, h3]⟩

theorem onlyAsks_modCluster (s : State) (c : Nat) (f : Cluster → Cluster)
    (h : f (s.cluster c) = { s.cluster c with recordWait := (f (s.cluster c)).recordWait }) :
    OnlyAsks s (s.modCluster c f) c := by
  refine ⟨rfl, fun k hk => ?_, ?_⟩
  · exact s.cluster_setCluster_other _ hk
  · rw [State.modCluster_eq, State.cluster_setCluster_same]
    exact h

theorem State.onlyAsks_tidyRecords (s : State) (c : Nat) : OnlyAsks s (s.tidyRecords c) c :=
  onlyAsks_modCluster s c _ rfl

theorem State.onlyAsks_askRecord (s : State) (k : Nat) : OnlyAsks s (s.askRecord k) (k / 8) := by
  unfold State.askRecord
  split
  · exact OnlyAsks.refl s _
  · refine (s.onlyAsks_tidyRecords (k / 8)).trans (onlyAsks_modCluster _ _ _ ?_)
    split <;> rfl

/-- A QPUSH that stalls, its requests for a record put in order (R64 steps 1 and 2). -/
theorem State.qpush_good (rd rs1 rs2 : XReg) {a : Nat} (ha : ((s.cc l).xr rs1).toNat = a) (halign : a % 128 = 0)
    (hlo : privBase + 0x10000 ≤ a) (hhi : a < privBase + 0x20000) (hq : isQueue ((s.cc l).xr rs2).toNat = true) :
    s.qpush l rd rs1 rs2 0 = ((s.tidyRecords (l / 8)).modCC l fun c =>
      { c with stall := some (.qpush rd a ((s.cc l).xr rs2).toNat) }).askRecord l := by
  simp [State.qpush, ha, hq, halign, hlo, hhi]

/-! ### Admission (R64 step 5, R91, R92) -/

theorem State.accessed_readSpan {k p n : Nat} {m : W64 × W64} (h : s.readSpan k p n = some (m, t)) : Accessed s t := by
  suffices key : ∀ f, f = State.readSpan → f s k p n = some (m, t) → Accessed s t from key _ rfl h
  intro f hf h
  delta State.readSpan at hf
  rw [hf] at h
  beta_reduce at h
  generalize s.pinnedLocal p _ 16 = found at h
  cases found with
  | none => cases h
  | some ps =>
    dsimp only at h
    generalize Unit.cc _ = who at h
    split at h
    · cases h
    · obtain ⟨-, rfl⟩ := Prod.mk.inj (Option.some.inj h)
      exact s.accessed_readPieces who ps false

/-- Admission's look at a span entry moves the span cache and what a read of memory moves. -/
theorem State.accessed_spanMasks (s : State) (k p n : Nat) : Accessed s (s.spanMasks k p n).2 := by
  unfold State.spanMasks
  generalize hread : s.readSpan k p n = found
  split
  · exact Accessed.refl s
  generalize List.find? _ _ = cached
  cases cached with
  | some e => exact accessed_setCore k _ rfl (.inl rfl)
  | none =>
    cases found with
    | none => exact Accessed.refl s
    | some r => exact (State.accessed_readSpan hread).trans (accessed_setCore k _ rfl (.inl rfl))

theorem State.accessed_admissionFails (s : State) (k p q : Nat) (d : Desc) : Accessed s (s.admissionFails k p q d).2 :=
  s.accessed_spanMasks ..

/-- An access leaves the queues as they were. -/
theorem Accessed.queue (h : Accessed s t) (k q : Nat) : t.queue k q = s.queue k q := by
  rw [State.queue, h.core]
  rfl

/-- Of a control core an access moves the reservation alone. -/
theorem Accessed.cc (h : Accessed s t) (k : Nat) : t.cc k = { s.cc k with resv := (t.cc k).resv } := by
  rw [State.cc, h.core]
  rfl

/-- The state in which admission has checked a descriptor. -/
def State.checked (s : State) (l q : Nat) (d : Desc) : List Fail × State :=
  ((s.countStall l).endAsk l).admissionFails l ((s.partOf l).getD 16) q d

theorem State.offerDesc_eq (s : State) (l q : Nat) (mode : Nat × W32) (d : Desc) :
    s.offerDesc l q mode d = match firstFail (s.checked l q d).1 with
      | some f => .failed f (s.checked l q d).2
      | none => .accepted ((s.queue l q).accepted + 1) ((s.checked l q d).2.enqueue l q mode d) := rfl

theorem State.queue_checked (s : State) (l q : Nat) (d : Desc) (k r : Nat) :
    (s.checked l q d).2.queue k r = s.queue k r :=
  (State.accessed_admissionFails ((s.countStall l).endAsk l) l ((s.partOf l).getD 16) q d).queue k r

theorem State.cc_checked (s : State) (l q : Nat) (d : Desc) (k : Nat) :
    (s.checked l q d).2.cc k = { s.cc k with resv := ((s.checked l q d).2.cc k).resv } :=
  (State.accessed_admissionFails ((s.countStall l).endAsk l) l ((s.partOf l).getD 16) q d).cc k

/-- The fields of a queue that a descriptor has entered. -/
theorem State.queue_enqueue_same (s : State) (l q : Nat) (mode : Nat × W32) (d : Desc) :
    (s.enqueue l q mode d).queue l q =
      { s.queue l q with
        accepted := (s.queue l q).accepted + 1, sigSeq := (stampSeqs q (s.queue l q).sigSeq d).2,
        entries := (s.queue l q).entries ++
          [({ acc := (s.queue l q).accepted + 1, desc := (stampSeqs q (s.queue l q).sigSeq d).1, mode := mode } : QEntry)] } :=
  State.queue_modQueue_same ..

theorem State.queue_enqueue_other {q r : Nat} (s : State) (l : Nat) (mode : Nat × W32) (d : Desc) (h : r ≠ q) :
    (s.enqueue l q mode d).queue l r = s.queue l r := s.queue_modQueue_queue l _ h

theorem State.cc_enqueue (s : State) (l q : Nat) (mode : Nat × W32) (d : Desc) : (s.enqueue l q mode d).cc l = s.cc l := by
  simp [State.enqueue, State.cc, Core.setQueue]

/-- The states differ in registers at most. -/
def OnlyRegs (s t : State) : Prop := t = { s with regs := t.regs }

theorem OnlyRegs.trans (h : OnlyRegs s t) (k : OnlyRegs t u) : OnlyRegs s u := by
  unfold OnlyRegs at *
  rw [k, h]

theorem onlyRegs_setReg (n : RegName) (i j : Nat) (w : W32) : OnlyRegs s (s.setReg n i j w) := rfl

/-- A record of an admission fault is in registers. -/
theorem State.onlyRegs_recordAdmission (s : State) (k origin group q : Nat) (f : Fail) (addr : Nat) :
    OnlyRegs s (s.recordAdmission k origin group q f addr) := by
  unfold State.recordAdmission
  dsimp only
  split
  · exact onlyRegs_setReg ..
  · exact ((onlyRegs_setReg ..).trans (onlyRegs_setReg ..)).trans (onlyRegs_setReg ..)

theorem OnlyCC.queue (h : OnlyCC s t l) (k q : Nat) : t.queue k q = s.queue k q := by
  by_cases hk : k = l
  · rw [State.queue, hk, h.2]
    rfl
  · rw [State.queue, h.1.2.1 k hk]
    rfl

/-- An instruction that retires leaves the reservation. -/
theorem CcRetired.resv_eq {c c' : CC} {rd : XReg} {v pc : W64} (h : CcRetired c c' rd v pc) : c'.resv = c.resv := by
  obtain ⟨-, -, -, -, -, -, -, h⟩ := h
  rw [h]

/-- A trap leaves the reservation. -/
theorem CcTrapped.resv_eq {c c' : CC} {i : Bool} {cause : Nat} {v : W64} (h : CcTrapped c c' i cause v) :
    c'.resv = c.resv := by
  obtain ⟨-, -, -, -, -, -, -, -, -, -, h⟩ := h
  rw [h]

theorem exec_qpushAdmission {rd : XReg} {a sel : Nat} (hstall : (s.cc l).stall = some (.qpush rd a sel))
    (hhalted : (s.cc l).halted = false) (hstopped : (s.cc l).stopped = false) (hfenced : s.fenced l = false)
    (hquiet : s.quiesced l = false) (hstores : (s.cc l).stores = []) (hcan : s.canAccept l sel = true) :
    exec (.qpushAdmission l) s =
      match s.offerDesc l sel (s.mode 0 (.cc l)) (descOf ((s.core l).privBytes (a - privBase) 128)) with
      | .accepted n s' => .next (s'.ccRetire l rd (BitVec.ofNat 64 n))
      | .failed f s' => .next ((s'.recordAdmission l 0 0 sel f a).ccTrap l excAdmission (BitVec.ofNat 64 a)) := by
  have hexec : exec (.qpushAdmission l) s = execQpushAdmission l s := rfl
  rw [hexec, execQpushAdmission]
  simp only [State.cc] at hstall hhalted hstopped hstores
  simp only [hstall, hhalted, hstopped, hfenced, hquiet, hstores, hcan]
  rfl

end Sys2Proof.Machine

open Sys2Proof Sys2Proof.Machine

/-- Settles O6: QPUSH stalls by `qpush_good`, and its admission answers by what `checked` found. -/
theorem qpushIsAdmittedOrFaults : Obligations.QpushIsAdmittedOrFaults := by
  unfold Obligations.QpushIsAdmittedOrFaults
  refine ⟨fun s l rd rs1 rs2 a len h ha halign hlo hhi hq => ?stalls,
    fun s l rd a sel hstall hhalted hstopped hfenced hquiet hstores hcan => ?admission⟩
  case stalls =>
    refine ⟨_, (exec_qpush rd rs1 rs2 0 h).trans (congrArg _ (State.qpush_good rd rs1 rs2 ha halign hlo hhi hq)), ?_⟩
    have htidy := s.onlyAsks_tidyRecords (l / 8)
    generalize s.tidyRecords (l / 8) = u at htidy ⊢
    obtain ⟨hcc, hstall⟩ := stalls (s := u) (l := l) (.qpush rd a ((s.cc l).xr rs2).toNat)
    generalize (u.modCC l fun c => { c with stall := some (.qpush rd a ((s.cc l).xr rs2).toNat) }) = v at hcc hstall ⊢
    have hask := v.onlyAsks_askRecord l
    generalize v.askRecord l = t at hask ⊢
    obtain ⟨hu, huo, hul⟩ := htidy
    obtain ⟨⟨hv, hvo, hvb⟩, hvl⟩ := hcc
    obtain ⟨ht, hto, htl⟩ := hask
    have hcore : ∀ k, t.core k = v.core k := fun k => by rw [ht]; rfl
    have hcluster : ∀ k, v.cluster k = u.cluster k := fun k => by rw [hv]; rfl
    have hcore0 : ∀ k, u.core k = s.core k := fun k => by rw [hu]; rfl
    refine ⟨?_, ?_, ?_, fun k hk => ?_, fun c hc => ?_, ?_⟩
    · rw [hcore, hvl, hstall, hcore0, State.cc, hcore0]
      rfl
    · rw [ht, hv, hu]
    · exact (sameBytes_of_eq (t := u) (by rw [hu]) (by rw [hu])).trans
        (hvb.trans (sameBytes_of_eq (t := t) (by rw [ht]) (by rw [ht])))
    · rw [hcore, hvo k hk, hcore0]
    · rw [hto c hc, hcluster, huo c hc]
    · rw [htl, hcluster, hul]
  case admission =>
    have hexec := exec_qpushAdmission hstall hhalted hstopped hfenced hquiet hstores hcan
    set d := descOf ((s.core l).privBytes (a - privBase) 128) with hd
    have hqueue := s.queue_checked l sel d
    have hcc := s.cc_checked l sel d l
    rw [State.offerDesc_eq] at hexec
    change ∃ t, _ ∧ _ ∧ match firstFail (s.checked l sel d).1 with
      | none => _
      | some _ => _
    generalize s.checked l sel d = r at *
    obtain ⟨fails, u⟩ := r
    cases hfail : firstFail fails with
    | none =>
      rw [hfail] at hexec
      refine ⟨_, hexec, fun q hq => ?_, ?_⟩
      · rw [(u.enqueue l sel (s.mode 0 (.cc l)) d).onlyCC_ccRetire l rd _ 4 |>.queue, State.queue_enqueue_other _ _ _ _ hq, hqueue]
      obtain ⟨hret, honly⟩ := ccRetires (s := u.enqueue l sel (s.mode 0 (.cc l)) d) (l := l) rd
        (BitVec.ofNat 64 ((s.queue l sel).accepted + 1)) 4
      have hq := honly.queue l sel
      rw [State.queue_enqueue_same, hqueue] at hq
      rw [State.cc_enqueue] at hret
      refine ⟨?_, ?_, ?_, ?_⟩
      · rw [hret.resv_eq, ← hcc, show (s.cc l).pc = (u.cc l).pc by rw [hcc]]
        exact hret
      all_goals rw [hq]
      exact ⟨_, rfl, rfl, rfl, rfl⟩
    | some f =>
      rw [hfail] at hexec
      have hrec := u.onlyRegs_recordAdmission l 0 0 sel f a
      refine ⟨_, hexec, ?_⟩
      generalize u.recordAdmission l 0 0 sel f a = v at hrec ⊢
      obtain ⟨htrap, honly⟩ := ccTraps (s := v) (l := l) excAdmission (BitVec.ofNat 64 a)
      have hqueues : ∀ q, (v.ccTrap l excAdmission (BitVec.ofNat 64 a)).queue l q = s.queue l q := fun q => by
        rw [honly.queue, State.queue, hrec, ← hqueue]
        rfl
      refine ⟨fun q _ => hqueues q, ?_, hqueues sel⟩
      rw [htrap.resv_eq, show v.cc l = u.cc l by rw [hrec]; rfl, ← hcc, show u.cc l = v.cc l by rw [hrec]; rfl]
      exact htrap
end

section
/-!
Reads of memory where no control cache holds a line: they give the bytes there, and change tags and counts alone.
-/

namespace Sys2Proof.Machine

open Sys2Proof

variable {s t u : State}

theorem State.bytes_add (s : State) (a m n : Nat) : s.bytes a (m + n) = s.bytes a m ++ s.bytes (a + m) n := by
  simp only [State.bytes, List.range_add, List.map_append, List.map_map, List.append_cancel_left_eq]
  exact List.map_congr_left fun k _ => congrArg s.byte (by simp only []; omega)

theorem SameBytes.bytes_eq (h : SameBytes s t) (a n : Nat) : t.bytes a n = s.bytes a n :=
  List.map_congr_left fun k _ => h (a + k)

/-- What reads its piece, keeps `P` and every byte, reads the whole over the pieces of a cut range. -/
theorem foldl_cutAt_reads {P : State → Prop} {f : List Byte × State → Nat × Nat → List Byte × State} {k : Nat} (hk : 0 < k)
    (hf : ∀ r c, P r.2 → (f r c).1 = r.1 ++ r.2.bytes c.1 c.2 ∧ SameBytes r.2 (f r c).2 ∧ P (f r c).2) {fuel a n : Nat}
    {r : List Byte × State} (hr : P r.2) (hfuel : n + a % k ≤ fuel * k) :
    ((cutAt k fuel a n).foldl f r).1 = r.1 ++ r.2.bytes a n ∧ SameBytes r.2 ((cutAt k fuel a n).foldl f r).2 ∧
      P ((cutAt k fuel a n).foldl f r).2 := by
  induction fuel generalizing r a n with
  | zero =>
    obtain rfl : n = 0 := by omega
    exact ⟨(List.append_nil _).symm, SameBytes.refl _, hr⟩
  | succ fuel ih =>
    unfold cutAt
    by_cases hn : n = 0
    · rw [if_pos hn, hn]
      exact ⟨(List.append_nil _).symm, SameBytes.refl _, hr⟩
    rw [if_neg hn, List.foldl_cons]
    have hlt : a % k < k := Nat.mod_lt _ hk
    have halign : (a + (k - a % k)) % k = 0 := by
      have hsum : a + (k - a % k) = k * (a / k + 1) := by
        have := Nat.div_add_mod a k
        rw [Nat.mul_add, Nat.mul_one]
        omega
      rw [hsum, Nat.mul_mod_right]
    have hrest : n - (k - a % k) + (a + (k - a % k)) % k ≤ fuel * k := by
      rw [halign]
      rw [Nat.add_mul, Nat.one_mul] at hfuel
      omega
    obtain ⟨hfst, hsame, hP⟩ := hf r (a, min n (k - a % k)) hr
    obtain ⟨hfst', hsame', hP'⟩ := ih hP hrest
    refine ⟨?_, hsame.trans hsame', hP'⟩
    rw [hfst', hfst, hsame.bytes_eq, List.append_assoc]
    by_cases hlong : k - a % k ≤ n
    · rw [Nat.min_eq_right hlong, ← State.bytes_add, Nat.add_sub_cancel' hlong]
    · rw [Nat.min_eq_left (by omega), show n - (k - a % k) = 0 by omega]
      simp [State.bytes]

theorem foldl_cuts_reads {P : State → Prop} {f : List Byte × State → Nat × Nat → List Byte × State} {k : Nat} (hk : 0 < k)
    (hf : ∀ r c, P r.2 → (f r c).1 = r.1 ++ r.2.bytes c.1 c.2 ∧ SameBytes r.2 (f r c).2 ∧ P (f r c).2) {a n : Nat}
    {r : List Byte × State} (hr : P r.2) :
    ((cuts k a n).foldl f r).1 = r.1 ++ r.2.bytes a n ∧ SameBytes r.2 ((cuts k a n).foldl f r).2 ∧
      P ((cuts k a n).foldl f r).2 := by
  refine foldl_cutAt_reads hk hf hr ?_
  have := Nat.div_add_mod n k
  have := Nat.mod_lt n hk
  have := Nat.mod_lt a hk
  rw [Nat.add_mul, Nat.mul_comm (n / k)]
  omega

/-- No control cache holds a line, and none is under way. -/
def Quiet (s : State) : Prop := s.presence = [] ∧ s.inFlight = []

theorem Plain.quiet (h : Plain s) : Quiet s := ⟨h.1, h.2.1⟩

/-- The states differ in a read's traces alone: the Hearth's tags and the counts. -/
def OnlyTags (s t : State) : Prop := t = { s with hearth := t.hearth, counts := t.counts }

theorem OnlyTags.refl (s : State) : OnlyTags s s := rfl
theorem OnlyTags.trans (h : OnlyTags s t) (k : OnlyTags t u) : OnlyTags s u := by
  unfold OnlyTags at *; rw [k, h]
theorem OnlyTags.sameBytes (h : OnlyTags s t) : SameBytes s t := sameBytes_of_eq (t := t) (by rw [h]) (by rw [h])
theorem OnlyTags.quiet (h : OnlyTags s t) (hs : Quiet s) : Quiet t := ⟨by rw [h]; exact hs.1, by rw [h]; exact hs.2⟩

theorem State.recall_quiet (hs : Quiet s) (line : Nat) (w : Bool) : s.recall line w = s := by
  obtain ⟨hpresence, hflight⟩ := hs
  have hsettle : s.settle line = s := by unfold State.settle; rw [hflight]; rfl
  have hholders : s.holders line = [] := by unfold State.holders; rw [hpresence]; rfl
  have hclear : SMap.set [] s.presence line [] = s.presence := by rw [hpresence]; rfl
  cases w <;> simp [State.recall, hsettle, hholders, State.setHolders, hclear]

/-- A read gives the bytes that memory holds. -/
theorem State.readMem_quiet (hs : Quiet s) (u : Unit) (a n : Nat) (st : Bool) :
    (s.readMem u a n st).1 = s.bytes a n ∧ OnlyTags s (s.readMem u a n st).2 := by
  unfold State.readMem
  refine (foldl_cuts_reads (P := OnlyTags s) (r := ([], s)) (by omega) (fun r c hr => ?_) (OnlyTags.refl s)).imp id And.right
  rw [State.readLine, State.recall_quiet (hr.quiet hs)]
  have hread : OnlyTags r.2 (r.2.readHome u c.1 c.2 st) := r.2.readHome_frame u c.1 c.2 st
  exact ⟨congrArg _ (hread.sameBytes.bytes_eq ..), hread.sameBytes, hr.trans hread⟩

end Sys2Proof.Machine
end

section
/-!
Reads and writes at a home (R76, R218, R222, R366).
-/

namespace Sys2Proof.Machine

open Sys2Proof

variable {s : State}

/-- A read at the homes: the stop, the stall, or the access. -/
theorem exec_homeRead (u : Unit) (a n : Nat) (stream : Bool) :
    exec (.homeRequest u (.read a n stream)) s =
      if !s.isMemoryRange a n then .fault .noSuchAddress
      else if s.homesAsleep a n then .next s else .next (s.readMem u a n stream).2 := rfl

/-- A write at the homes. -/
theorem exec_homeWrite (u : Unit) (a : Nat) (bs : List Byte) :
    exec (.homeRequest u (.write a bs)) s =
      if !s.isMemoryRange a bs.length then .fault .noSuchAddress
      else if s.homesAsleep a bs.length then .next s else .next (s.writeMem u a bs) := rfl

end Sys2Proof.Machine

open Sys2Proof Sys2Proof.Machine

/-- Settles O13: a request is served by a read or a write of memory, which the quiet caches leave to the home. -/
theorem homesServeReadsAndWrites : Obligations.HomesServeReadsAndWrites := by
  unfold Obligations.HomesServeReadsAndWrites
  refine ⟨fun s u a n stream hmem hpresence hflight hawake => ?read,
    fun s u a bs hmem hpresence hflight harmed hawake => ?write,
    fun s u a n stream bs => ⟨fun hmem => ?_, fun hmem => ?_, fun hmem hasleep => ?_, fun hmem hasleep => ?_⟩⟩
  case read =>
    obtain ⟨-, htags⟩ := State.readMem_quiet ⟨hpresence, hflight⟩ u a n stream
    refine ⟨_, by simp [exec_homeRead, hmem, hawake], htags.sameBytes, fun m i j => ?_, ?_⟩ <;> rw [htags]
    rfl
  case write =>
    obtain ⟨honly, hwrites⟩ := State.writeMem_plain ⟨hpresence, hflight, harmed⟩ u a bs
    exact ⟨_, by simp [exec_homeWrite, hmem, hawake], hwrites.bytes_eq, hwrites.sameBytesBut, honly.reg⟩
  all_goals simp [exec_homeRead, exec_homeWrite, hmem]
  all_goals simp [hasleep]
end

section
/-!
Atomics, load-reserved and store-conditional at the home (R76, R78).
-/

namespace Sys2Proof.Machine

open Sys2Proof

variable {s t : State} {l : CoreId}

/-- An atomic of a core with no store waiting acts at the home, once its line is recalled. -/
theorem State.atHome_cached {a : W64} {n t : Nat} (rl load : Bool) (k : Nat → State → State) (halign : a.toNat % n = 0)
    (hplace : s.ccPlace l a.toNat n = .cached t) (hawake : s.homeAsleep t = false) (hstores : (s.cc l).stores = [])
    (hs : Quiet s) : s.atHome l a n rl load k = k t s := by
  have hnone : (s.cc l).storeTo t = false := by rw [CC.storeTo, hstores]; rfl
  rw [State.atHome, if_neg (by simp [halign]), hplace]
  dsimp only
  rw [if_neg (by simp [hnone, hstores, hawake]), State.recall_quiet hs]

/-- Whether a funct5 is an operation does not rest on its operands. -/
theorem isSome_amoOp {n : Nat} (f5 : Nat) (a b x : BitVec n) : (amoOp f5 a x).isSome = (amoOp f5 b x).isSome := by
  unfold amoOp
  split <;> rfl

theorem isSome_amoValue (f5 n a b : Nat) (x : W64) : (amoValue f5 n a x).isSome = (amoValue f5 n b x).isSome := by
  unfold amoValue
  split <;> simp only [Option.isSome_map] <;> exact isSome_amoOp ..

theorem exec_ccAmo (f5 : BitVec 5) (aq rl dbl : Bool) (rd rs1 rs2 : XReg) {len : Nat}
    (h : CcAt s l (amoWord f5.toNat aq rl dbl rs2 rs1 rd) len) :
    exec (.ccAmo l f5 ⟨aq, rl, dbl⟩ rd rs1 rs2) s = .next (s.ccAmoAt l f5.toNat aq rl dbl rd rs1 rs2) :=
  State.ccIssue_at (fun _ t => t.ccAmoAt l f5.toNat aq rl dbl rd rs1 rs2) h

theorem exec_ccLr (aq rl dbl : Bool) (rd rs1 : XReg) {len : Nat} (h : CcAt s l (amoWord 2 aq rl dbl 0 rs1 rd) len) :
    exec (.ccLr l ⟨aq, rl, dbl⟩ rd rs1) s = .next (s.ccLrAt l rl dbl rd rs1) :=
  State.ccIssue_at (fun _ t => t.ccLrAt l rl dbl rd rs1) h

theorem exec_ccSc (aq rl dbl : Bool) (rd rs1 rs2 : XReg) {len : Nat} (h : CcAt s l (amoWord 3 aq rl dbl rs2 rs1 rd) len) :
    exec (.ccSc l ⟨aq, rl, dbl⟩ rd rs1 rs2) s = .next (s.ccScAt l rl dbl rd rs1 rs2) :=
  State.ccIssue_at (fun _ t => t.ccScAt l rl dbl rd rs1 rs2) h

/-- What a core reads as before once it retired an instruction that gave `v` to rd. -/
theorem CcRetired.pc_xr {c c' : CC} {rd : XReg} {v pc : W64} (h : CcRetired c c' rd v pc) :
    c'.pc = pc ∧ ∀ r : XReg, c'.xr r = if r.val = 0 then 0 else if r = rd then v else c.xr r := by
  obtain ⟨hpc, -, hx, -⟩ := h
  exact ⟨hpc, hx⟩

/-- A core of which the reservation alone has moved retires an instruction. -/
theorem retires_of_resv (h : t.cc l = { s.cc l with resv := (t.cc l).resv }) (rd : XReg) (v : W64) :
    let u := t.ccRetire l rd v
    SameBytes t u ∧ (u.cc l).resv = (t.cc l).resv ∧ (u.cc l).pc = (s.cc l).pc + 4 ∧
      ∀ r : XReg, (u.cc l).xr r = if r.val = 0 then 0 else if r = rd then v else (s.cc l).xr r := by
  obtain ⟨hret, honly⟩ := ccRetires (s := t) (l := l) rd v 4
  obtain ⟨hpc, hx⟩ := hret.pc_xr
  refine ⟨honly.1.2.2, hret.resv_eq, hpc.trans ?_, fun r => ?_⟩
  · rw [h]
    rfl
  · rw [hx, h]
    rfl

/-- A reservation set or given up moves nothing else. -/
theorem State.cc_setResv (s : State) (l : Nat) (r : Option (Nat × Nat)) :
    (s.modCC l fun c => { c with resv := r }).cc l = { s.cc l with resv := r } := s.cc_modCC_same l _

theorem Plain.modCC (hs : Plain s) (k : Nat) (f : CC → CC) : Plain (s.modCC k f) :=
  OnlyStores.plain (s := s) rfl hs

end Sys2Proof.Machine

open Sys2Proof Sys2Proof.Machine

/-- Settles O10: the line is quiet, so the operation acts on memory at once. -/
theorem atomicsActAtTheHome : Obligations.AtomicsActAtTheHome := by
  unfold Obligations.AtomicsActAtTheHome
  intro s l aq rl dbl rd rs1 rs2 t n len hn halign hplace hal hawake hstores hpresence hflight hlost harmed
  have hs : Plain s := ⟨hpresence, hflight, harmed⟩
  refine ⟨fun f5 v h hv => ?amo, fun h => ?lr, fun h => ?sc⟩
  case amo =>
    obtain ⟨v0, hv0⟩ : ∃ v0, amoValue f5.toNat n 0 ((s.cc l).xr rs2) = some v0 := by
      rw [← Option.isSome_iff_exists, isSome_amoValue f5.toNat n 0 (s.load t n), hv]
      rfl
    obtain ⟨-, hwrites⟩ := State.writeMem_plain hs (.cc l) t (leBytes n v)
    obtain ⟨hsame, -, hpc, hx⟩ := retires_of_resv ((s.accessed_writeMem (.cc l) t (leBytes n v)).cc l) rd (atomicValue n (s.load t n))
    have hbytes := hwrites.bytes_eq
    have hbut := hwrites.sameBytesBut
    rw [length_leBytes] at hbytes hbut
    refine ⟨_, (exec_ccAmo f5 aq rl dbl rd rs1 rs2 h).trans (congrArg _ ?_), ?_, ?_, hpc, hx⟩
    · simp only [State.ccAmoAt, ← hn, hv0]
      rw [State.atHome_cached rl false _ halign hplace hawake hstores hs.quiet, hv]
      rfl
    · exact (hsame.bytes_eq t n).trans hbytes
    · exact fun x hx => (hsame x).trans (hbut x hx)
  case lr =>
    obtain ⟨hread, htags⟩ := State.readMem_quiet hs.quiet (.cc l) t n false
    have hexec : s.ccLrAt l rl dbl rd rs1 = (((s.readMem (.cc l) t n).2.modCC l fun c => { c with resv := some (t, n) }).ccRetire l rd
        (atomicValue n (ofLe (s.readMem (.cc l) t n).1))) := by
      simp only [State.ccLrAt, ← hn]
      rw [State.atHome_cached rl true _ halign hplace hawake hstores hs.quiet]
    rw [hread] at hexec
    generalize (s.readMem (.cc l) t n).2 = v at htags hexec
    have hcc : v.cc l = s.cc l := by rw [htags]; rfl
    have hset := v.cc_setResv l (some (t, n))
    obtain ⟨hsame, hresv, hpc, hx⟩ := retires_of_resv (s := s) (l := l) (by rw [hset, hcc]) rd (atomicValue n (s.load t n))
    exact ⟨_, (exec_ccLr aq rl dbl rd rs1 h).trans (congrArg _ hexec), (htags.sameBytes.trans (sameBytes_of_eq rfl rfl)).trans hsame,
      hresv.trans (by rw [hset]), hpc, hx⟩
  case sc =>
    set s' := s.modCC l fun c => { c with resv := none } with hs'
    have hset := s.cc_setResv l none
    have hbytes : SameBytes s s' := sameBytes_of_eq rfl rfl
    have hexec : s.ccScAt l rl dbl rd rs1 rs2 = if (s.cc l).resv.any (fun r => r.1 / 128 == t / 128) then
        (s'.writeMem (.cc l) t (leBytes n ((s.cc l).xr rs2).toNat)).ccRetire l rd 0 else s'.ccRetire l rd 1 := by
      simp only [State.ccScAt, ← hn]
      rw [State.atHome_cached rl false _ halign hplace hawake hstores hs.quiet]
    refine ⟨_, (exec_ccSc aq rl dbl rd rs1 rs2 h).trans (congrArg _ hexec), ?_⟩
    cases hhit : (s.cc l).resv.any (fun r => r.1 / 128 == t / 128) with
    | true =>
      have hold := s'.accessed_writeMem (.cc l) t (leBytes n ((s.cc l).xr rs2).toNat)
      obtain ⟨-, hwrites⟩ := State.writeMem_plain (hs.modCC l _) (.cc l) t (leBytes n ((s.cc l).xr rs2).toNat)
      rw [← hs'] at hwrites
      have hnew := hwrites.bytes_eq
      have hbut := hwrites.sameBytesBut
      rw [length_leBytes] at hnew hbut
      generalize s'.writeMem (.cc l) t (leBytes n ((s.cc l).xr rs2).toNat) = v at hold hnew hbut ⊢
      have hnone : (v.cc l).resv = none := by
        rcases hold.resv l with hr | hr
        · rw [hr, hset]
        · exact hr
      obtain ⟨hsame, hresv, hpc, hx⟩ := retires_of_resv (s := s) (t := v) (l := l) (by rw [hold.cc, hset]) rd 0
      exact ⟨hresv.trans hnone, hpc, fun x hx => (hsame x).trans ((hbut x hx).trans (hbytes x)), hx,
        (hsame.bytes_eq t n).trans hnew⟩
    | false =>
      obtain ⟨hsame, hresv, hpc, hx⟩ := retires_of_resv (s := s) (t := s') (l := l) (by rw [hset]) rd 1
      have hall := hbytes.trans hsame
      exact ⟨hresv.trans (by rw [hset]), hpc, fun x _ => hall x, hx, hall.bytes_eq t n⟩
end

section
/-!
Interrupts of a control core, and the timer bit (R60, R69).
-/

namespace Sys2Proof.Machine

open Sys2Proof

variable {s t : State} {l : CoreId}

/-! ### Registrations dropped -/

/-- A key that is not listed reads as the default. -/
theorem SMap.get_of_notMem {α : Type} (d : α) (m : SMap α) {k : Nat} (h : k ∉ m.map (·.1)) : m.get d k = d := by
  induction m with
  | nil => rfl
  | cons e m ih =>
    rw [List.map_cons, List.mem_cons, not_or] at h
    rw [SMap.get, if_neg (Ne.symm h.1)]
    exact ih h.2

/-- One counter without the registrations of a waiter. -/
def State.dropAt (s : State) (w : Waiter) (k : Nat) : State :=
  let c := s.counter k
  s.setCounter k { c with waiters := c.waiters.filter fun x => x.who ≠ w }

theorem State.dropWaiter_eq (s : State) (w : Waiter) :
    s.dropWaiter w = (s.counters.map (·.1)).foldl (fun s k => s.dropAt w k)
      { s with retries := s.retries.filter fun r => r.2.who ≠ w } := rfl

/-- A counter without registrations of `w`. -/
def State.Free (s : State) (w : Waiter) (k : Nat) : Prop := ∀ x ∈ (s.counter k).waiters, x.who ≠ w

theorem State.free_dropAt_same (s : State) (w : Waiter) (k : Nat) : (s.dropAt w k).Free w k := by
  intro x hx
  rw [State.dropAt, State.counter_setCounter_same] at hx
  simpa using (List.mem_filter.1 hx).2

theorem State.free_dropAt {w : Waiter} {j : Nat} (h : s.Free w j) (k : Nat) : (s.dropAt w k).Free w j := by
  by_cases hj : j = k
  · exact hj ▸ s.free_dropAt_same w k
  · unfold State.Free State.dropAt
    rw [State.counter_setCounter_other _ _ hj]
    exact h

theorem foldl_dropAt_free {w : Waiter} {j : Nat} (ks : List Nat) (h : j ∈ ks ∨ s.Free w j) :
    (ks.foldl (fun s k => s.dropAt w k) s).Free w j := by
  induction ks generalizing s with
  | nil => exact h.resolve_left List.not_mem_nil
  | cons k ks ih =>
    refine ih ?_
    rcases h with h | h
    · rcases List.mem_cons.1 h with rfl | h
      · exact .inr (s.free_dropAt_same w _)
      · exact .inl h
    · exact .inr (State.free_dropAt h k)

/-- A waiter that is dropped is registered at no counter. -/
theorem State.dropWaiter_free (s : State) (w : Waiter) (k : Nat) : (s.dropWaiter w).Free w k := by
  rw [State.dropWaiter_eq]
  refine foldl_dropAt_free _ ?_
  by_cases hk : k ∈ s.counters.map (·.1)
  · exact .inl hk
  · refine .inr fun x hx => ?_
    have hnone : s.counter k = {} := SMap.get_of_notMem _ _ hk
    change x ∈ (s.counter k).waiters at hx
    rw [hnone] at hx
    cases hx

theorem State.dropWaiter_frame (s : State) (w : Waiter) :
    s.dropWaiter w = { s with counters := (s.dropWaiter w).counters, retries := (s.dropWaiter w).retries } := by
  rw [State.dropWaiter_eq]
  refine foldl_keeps (fun t : State => t = { s with counters := t.counters, retries := t.retries }) _ (fun t k h => ?_) _ _ rfl
  rw [h]
  rfl

/-! ### Interrupts (R60, R69) -/

theorem CC.trapped_trap (c : CC) (i : Bool) (cause : Nat) (tval : W64) : CcTrapped c (c.trap i cause tval) i cause tval := by
  refine ⟨?_, ?_, ?_, ?_, ?_, ?_, ?_, c.pc_trap i cause tval, rfl, fun _ => rfl, rfl⟩
  iterate 3 exact c.csr_trap ..
  all_goals
    rw [CC.csr_trap, if_pos rfl]
    simp (disch := decide) only [getLsbD_putBit]
    simp

/-- A core whose stalled instruction is undone. -/
theorem State.undoStall_eq (s : State) (l : CoreId) :
    let t := s.undoStall l
    t = { s with counters := t.counters, retries := t.retries, cores := t.cores, clusters := t.clusters } ∧
      t.cc l = { s.cc l with stall := none } ∧ (∀ k, k ≠ l.val → t.core k = s.core k) ∧ ∀ k, t.Free (.cc l) k := by
  intro t
  have ht : t = ((s.dropWaiter (.cc l)).modCC l fun c => { c with stall := none }).tidyRecords (l / 8) := rfl
  have hdrop := s.dropWaiter_frame (.cc l)
  have hfree := s.dropWaiter_free (.cc l)
  generalize s.dropWaiter (.cc l) = u at hdrop hfree ht
  obtain ⟨⟨hv, hvo, -⟩, -⟩ := onlyCC_modCC u l fun c => { c with stall := none }
  have hcc := u.cc_modCC_same l fun c => { c with stall := none }
  generalize u.modCC l (fun c => { c with stall := none }) = v at hv hvo hcc ht
  obtain ⟨ht', -⟩ := v.onlyAsks_tidyRecords (l / 8)
  rw [← ht] at ht'
  clear_value t
  have hcore : ∀ k, t.core k = v.core k := fun k => by rw [ht']; rfl
  have hcore0 : ∀ k, u.core k = s.core k := fun k => by rw [hdrop]; rfl
  refine ⟨by rw [ht', hv, hdrop], ?_, fun k hk => by rw [hcore, hvo k hk, hcore0], fun k => ?_⟩
  · rw [State.cc, hcore]
    exact hcc.trans (by rw [State.cc, hcore0]; rfl)
  · have hcounter : t.counter k = u.counter k := by rw [ht', hv]; rfl
    unfold State.Free
    rw [hcounter]
    exact hfree k

theorem exec_ccInterrupt {irq : CcIrq} (himaged : s.imaged l = true) (hhalted : (s.cc l).halted = false)
    (hstopped : (s.cc l).stopped = false) (hfenced : s.fenced l = false) (hquiet : s.quiesced l = false)
    (hload : ∀ rd a f3 n, (s.cc l).stall ≠ some (.load rd a f3 n)) (hcsig : ∀ rd h k x, (s.cc l).stall ≠ some (.csig rd h k x))
    (htake : (s.cc l).canTake (irqBit irq) = true) :
    exec (.ccInterrupt l irq) s = .next ((s.undoStall l).modCC l (·.trap true (irqBit irq) 0)) := by
  have hexec : exec (.ccInterrupt l irq) s = execCcInterrupt l irq s := rfl
  rw [hexec, execCcInterrupt]
  simp only [State.cc] at hhalted hstopped hload hcsig htake
  simp only [himaged, hhalted, hstopped, hfenced, hquiet, htake]
  rfl

end Sys2Proof.Machine

open Sys2Proof Sys2Proof.Machine

/-- Settles O11: the stalled instruction is undone, then the trap is taken. -/
theorem controlCoreInterrupts : Obligations.ControlCoreInterrupts := by
  unfold Obligations.ControlCoreInterrupts
  refine ⟨fun s l irq himaged hhalted hstopped hfenced hquiet hload hcsig htake => ?interrupt, fun s l hreached => ?timer⟩
  case interrupt =>
    refine ⟨_, exec_ccInterrupt himaged hhalted hstopped hfenced hquiet hload hcsig htake, ?_⟩
    obtain ⟨hframe, hcc, hcores, hfree⟩ := s.undoStall_eq l
    generalize s.undoStall l = u at *
    obtain ⟨⟨ht, hto, htb⟩, -⟩ := onlyCC_modCC u l (·.trap true (irqBit irq) 0)
    have htrap := u.cc_modCC_same l (·.trap true (irqBit irq) 0)
    generalize u.modCC l (·.trap true (irqBit irq) 0) = t at *
    have hbytes : SameBytes s u := sameBytes_of_eq (t := u) (by rw [hframe]) (by rw [hframe])
    refine ⟨?_, hbytes.trans htb, fun n i j => ?_, fun k hk => (hto k hk).trans (hcores k hk), fun k => ?_⟩
    · rw [htrap, hcc]
      exact CC.trapped_trap { s.cc l with stall := none } true (irqBit irq) 0
    · rw [ht, hframe]
      rfl
    · have hcounter : t.counter k = u.counter k := by rw [ht]; rfl
      rw [hcounter]
      exact hfree k
  case timer =>
    have hexec : exec (.mtimecmpMatch l) s = .next (s.setMip l 7 true) := if_pos hreached
    have hcc := s.cc_modCC_same l fun c => c.setCsr csrMip (putBit (c.csr csrMip) 7 true)
    have hmip : ((s.setMip l 7 true).cc l).csr csrMip = putBit ((s.cc l).csr csrMip) 7 true := by
      rw [State.setMip, hcc, CC.csr_setCsr_same]
    refine ⟨_, hexec, onlyCC_modCC .., ?_, fun i hi => ?_, fun n hn => ?_, ?_⟩
    · rw [hmip, getLsbD_putBit _ _ _ _ (by omega) (by omega), if_pos rfl]
    · rw [hmip]
      by_cases hlt : i < 64
      · rw [getLsbD_putBit _ _ _ _ (by omega) hlt, if_neg hi]
      · rw [BitVec.getLsbD_of_ge _ _ (by omega), BitVec.getLsbD_of_ge _ _ (by omega)]
    · rw [State.setMip, hcc, CC.csr_setCsr_other _ _ hn]
    · rw [State.setMip, hcc]
      rfl
end

section
/-!
The control cache: fills, stores, snoops and write-backs (R71, R74, R75, R77).
-/

namespace Sys2Proof.Machine

open Sys2Proof

variable {s t u : State} {l : CoreId}

/-! ### Bytes and numbers -/

theorem ofLe_lt (bs : List Byte) : ofLe bs < 256 ^ bs.length := by
  induction bs with
  | nil => simp [ofLe]
  | cons b bs ih =>
    rw [ofLe, List.length_cons, Nat.pow_succ]
    have := b.isLt
    omega

theorem leBytes_ofLe (bs : List Byte) : leBytes bs.length (ofLe bs) = bs := by
  induction bs with
  | nil => rfl
  | cons b bs ih =>
    have hb := b.isLt
    rw [List.length_cons, leBytes, ofLe, show (b.toNat + 256 * ofLe bs) / 256 = ofLe bs by omega, ih]
    congr 1
    apply BitVec.eq_of_toNat_eq
    rw [BitVec.toNat_ofNat]
    omega

theorem toNat_ofNat_ofLe {bs : List Byte} {w : Nat} (h : w = 8 * bs.length) : (BitVec.ofNat w (ofLe bs)).toNat = ofLe bs := by
  subst h
  rw [BitVec.toNat_ofNat, Nat.mod_eq_of_lt]
  rw [Nat.pow_mul]
  exact ofLe_lt bs

/-- A line's data spell the bytes it was made of. -/
theorem leBytes_lineData {bs : List Byte} (h : bs.length = 256) : leBytes 256 (lineData bs).toNat = bs := by
  rw [lineData, toNat_ofNat_ofLe (by rw [h]), ← h]
  exact leBytes_ofLe bs

theorem State.length_bytes (s : State) (a n : Nat) : (s.bytes a n).length = n := by simp [State.bytes]

theorem State.drop_take_bytes (s : State) (a m n k : Nat) :
    ((s.bytes a (m + n + k)).drop m).take n = s.bytes (a + m) n := by
  rw [Nat.add_assoc, State.bytes_add, State.bytes_add, List.drop_left' (s.length_bytes _ _), List.take_left' (s.length_bytes _ _)]

/-- A part of a line read from memory is the bytes at its address. -/
theorem State.sliceBytes_lineData (s : State) {a n : Nat} (h : a % 256 + n ≤ 256) :
    sliceBytes (lineData (s.bytes (a / 256 * 256) 256)) (a % 256) n = s.bytes a n := by
  obtain ⟨k, hk⟩ := Nat.exists_eq_add_of_le h
  have hpart := s.drop_take_bytes (a / 256 * 256) (a % 256) n k
  rw [← hk, Nat.div_add_mod'] at hpart
  rw [sliceBytes, leBytes_lineData (s.length_bytes _ _), hpart]

/-! ### Writes at the homes where no golden copy is armed -/

/-- The states differ in what stores at the homes change at most; of the cores, reservations alone. -/
structure Stored (s t : State) : Prop where
  only : OnlyStores s t
  core : ∀ k, t.core k = { s.core k with cc := { (s.core k).cc with resv := (t.core k).cc.resv } }

theorem Stored.refl (s : State) : Stored s s := ⟨OnlyStores.refl s, fun _ => rfl⟩
theorem Stored.trans (h : Stored s t) (k : Stored t u) : Stored s u where
  only := h.only.trans k.only
  core j := by rw [k.core, h.core]

theorem Stored.unarmed (h : Stored s t) (hs : ∀ a, s.armedAt a = none) (a : Nat) : t.armedAt a = none :=
  (h.only.armedAt a).trans (hs a)

theorem OnlyTags.stored (h : OnlyTags s t) : Stored s t where
  only := by unfold OnlyStores; rw [h]
  core k := by rw [h]; rfl

theorem OnlyCounts.onlyTags (h : OnlyCounts s t) : OnlyTags s t := by unfold OnlyTags; rw [h]

theorem State.stored_cancelResv (s : State) (a n : Nat) : Stored s (s.cancelResv a n) where
  only := by unfold OnlyStores; rw [State.cancelResv_frame]
  core := by
    unfold State.cancelResv State.eachCore
    refine foldl_keeps (fun t : State => ∀ k, t.core k = { s.core k with
      cc := { (s.core k).cc with resv := (t.core k).cc.resv } }) _ (fun t l h k => ?_) _ s fun _ => rfl
    by_cases hk : k = l
    · rw [hk, State.modCore_eq, State.core_setCore_same]
      dsimp only
      split
      · exact h l
      · split
        · rw [h l]
        · exact h l
    · rw [State.modCore_eq, State.core_setCore_other _ _ hk]
      exact h k

theorem State.put_unarmed (hs : ∀ a, s.armedAt a = none) (src : W32) (a : Nat) (bs : List Byte) :
    Stored s (s.put src a bs) ∧ WritesBytes s (s.put src a bs) a bs := by
  refine foldl_chunks_writes (P := Stored s) (by omega) (fun t c ht => ?_) (Stored.refl s)
  rw [ht.unarmed hs]
  have hresv := t.stored_cancelResv c.1 c.2.length
  have hstore : Stored (t.cancelResv c.1 c.2.length) ((t.cancelResv c.1 c.2.length).store c.1 c.2) :=
    ⟨by unfold OnlyStores; rw [State.store_frame], fun k => by rw [State.store_frame]; rfl⟩
  refine ⟨ht.trans (hresv.trans hstore), SameBytes.writesBytes ?_ (State.writesBytes_store _ _ _)⟩
  exact sameBytes_of_eq (by rw [State.cancelResv_frame]) (by rw [State.cancelResv_frame])

/-- Before its bytes are put, a write at a home moves tags and counts alone. -/
theorem State.writeHome_eq_put (hs : s.armedAt a = none) (u : Unit) (bs : List Byte) :
    ∃ t src, OnlyTags s t ∧ s.writeHome u a bs = t.put src a bs := by
  unfold State.writeHome
  rw [hs]
  dsimp only
  refine ⟨_, _, ?_, rfl⟩
  have htouch : OnlyTags s (s.hearthTouch (s.unitPart u) a true (allocates u true false)).2 := State.hearthTouch_frame ..
  refine htouch.trans (OnlyCounts.onlyTags (OnlyCounts.trans ?_ (State.onlyCounts_account ..)))
  refine OnlyCounts.trans (b := ?filled) ?fill ?through
  case through =>
    split
    · split
      · exact State.onlyCounts_addCount ..
      · exact OnlyCounts.refl _
    · exact OnlyCounts.refl _
  case fill =>
    split
    · split
      · exact State.onlyCounts_countPlaced ..
      · exact OnlyCounts.refl _
    · exact OnlyCounts.refl _

theorem State.writeHomes_unarmed (hs : ∀ a, s.armedAt a = none) (u : Unit) (a : Nat) (bs : List Byte) :
    Stored s (s.writeHomes u a bs) ∧ WritesBytes s (s.writeHomes u a bs) a bs := by
  refine foldl_chunks_writes (P := Stored s) (by omega) (fun t c ht => ?_) (Stored.refl s)
  obtain ⟨v, src, htags, hput⟩ := State.writeHome_eq_put (ht.unarmed hs c.1) u c.2
  obtain ⟨hstored, hwrites⟩ := State.put_unarmed (htags.stored.unarmed (ht.unarmed hs)) src c.1 c.2
  rw [hput]
  exact ⟨ht.trans (htags.stored.trans hstored), htags.sameBytes.writesBytes hwrites⟩

/-- A line written back is at its home, and no register has moved. -/
theorem State.writeBack_unarmed (hs : ∀ a, s.armedAt a = none) (l : Nat) (x : CLine) :
    Stored s (s.writeBack l x) ∧ (s.writeBack l x).bytes (x.line * 256) 256 = x.bytes ∧
      SameBytesBut s (s.writeBack l x) (x.line * 256) 256 := by
  obtain ⟨hstored, hwrites⟩ := State.writeHomes_unarmed hs (.cc (Fin.ofNat 768 l)) (x.line * 256) x.bytes
  have hlen : x.bytes.length = 256 := length_leBytes _ _
  have hbytes := hwrites.bytes_eq
  have hbut := hwrites.sameBytesBut
  rw [hlen] at hbytes hbut
  exact ⟨hstored, hbytes, hbut⟩

/-! ### The lines of a control cache -/

theorem Core.lineAt_dropLine (c : Core) (line : Nat) : (c.dropLine line).lineAt line = none := by
  rw [Core.lineAt, List.find?_eq_none]
  intro x hx
  simpa using (List.mem_filter.1 hx).2

theorem Core.evictAt_dropEvict (c : Core) (line : Nat) : (c.dropEvict line).evictAt line = none := by
  rw [Core.evictAt, List.find?_eq_none]
  intro x hx
  simpa using (List.mem_filter.1 hx).2

theorem Core.line_of_lineAt {c : Core} {line : Nat} {x : CLine} (h : c.lineAt line = some x) : x.line = line := by
  simpa using List.find?_some h

theorem Core.line_of_evictAt {c : Core} {line : Nat} {x : CLine} (h : c.evictAt line = some x) : x.line = line := by
  simpa using List.find?_some h

theorem Core.lineAt_setLineState {c : Core} {line : Nat} {x : CLine} (h : c.lineAt line = some x) (st : CState) :
    (c.setLineState line st).lineAt line = some { x with st := st } := by
  have hline := Core.line_of_lineAt h
  have hkeeps : ((fun x : CLine => x.line == line) ∘ fun x => if x.line == line then { x with st := st } else x) =
      fun x => x.line == line := by
    funext y
    simp only [Function.comp]
    split <;> rfl
  rw [Core.lineAt] at h
  rw [Core.lineAt, Core.setLineState, List.find?_map, hkeeps, h, Option.map_some, if_pos (by simp [hline])]

/-- A line that is placed is the one the cache holds. -/
theorem State.lineAt_placeLine (s : State) (l : Nat) (x : CLine) :
    ((s.placeLine l x).core l).lineAt x.line = some x := by
  simp [State.placeLine, Core.lineAt]

theorem State.evictAt_placeLine (s : State) (l : Nat) (x : CLine) (line : Nat) :
    ((s.placeLine l x).core l).evictAt line = (s.core l).evictAt line := by
  simp [State.placeLine, Core.evictAt, Core.dropLine]

theorem State.sameBytes_placeLine (s : State) (l : Nat) (x : CLine) : SameBytes s (s.placeLine l x) := sameBytes_of_eq rfl rfl

/-! ### Fills and stores (R71, R74, R75) -/

theorem State.onlyTags_readCcLine (s : State) (k line : Nat) : OnlyTags s (s.readCcLine k line) :=
  OnlyTags.trans (t := s.readHome (.cc (Fin.ofNat 768 k)) (line * 256) 128 false) (s.readHome_frame ..) (State.readHome_frame ..)

theorem State.cc_placeLine (s : State) (k : Nat) (x : CLine) (j : Nat) : (s.placeLine k x).cc j = s.cc j := by
  by_cases hj : j = k
  · simp [State.placeLine, State.cc, hj, Core.dropLine]
  · rw [State.placeLine, State.cc, State.modCore_eq, State.core_setCore_other _ _ hj]
    rfl

/-- What a fill of a line that no cache holds leaves: the line in K, this core its only holder, and every byte as before. -/
theorem State.fetchShared_alone {line : Nat} (hroom : (s.rivals l line).1.length < (s.rivals l line).2) (hholders : s.holders line = [])
    (hflight : SMap.get none s.inFlight line = none) (hawake : s.homesAsleep (line * 256) 256 = false)
    (hhold : s.ccHolds l line = false) :
    ∃ t, s.fetchShared l line = some t ∧ SameBytes s t ∧ t.holders line = [l.val] ∧ t.cc l = s.cc l ∧
      (t.core l).evictAt line = none ∧
      (t.core l).lineAt line = some { line := line, st := .K, data := lineData (s.bytes (line * 256) 256) } := by
  have hmake : s.makeRoom l line = some s := if_pos hroom
  have hsettle : s.settle line = s := by rw [State.settle, hflight]
  have htags := s.onlyTags_readCcLine l line
  have hexec : s.fetchShared l line = some (((s.readCcLine l line).placeLine l
      { line := line, st := .K, data := lineData ((s.readCcLine l line).bytes (line * 256) 256) }).setHolders line [l.val]) := by
    rw [State.fetchShared, hawake, if_neg (by simp), hmake]
    dsimp only
    rw [hsettle, hholders]
    rfl
  rw [htags.sameBytes.bytes_eq] at hexec
  generalize s.readCcLine l line = v at htags hexec
  have hcore : v.core l = s.core l := by rw [htags]; rfl
  have hevict : (s.core l).evictAt line = none := by
    rw [State.ccHolds, Bool.or_eq_false_iff] at hhold
    exact Option.not_isSome_iff_eq_none.1 (by simp [hhold.2])
  refine ⟨_, hexec, htags.sameBytes.trans (sameBytes_of_eq rfl rfl), ?_, ?_, ?_, ?_⟩
  · simp [State.holders, State.setHolders]
  · exact (v.cc_placeLine l _ l).trans (by rw [State.cc, hcore]; rfl)
  · exact (v.evictAt_placeLine l _ line).trans (by rw [hcore, hevict])
  · exact v.lineAt_placeLine l { line := line, st := .K, data := lineData (s.bytes (line * 256) 256) }

/-- A load of a line that the cache holds. -/
theorem State.ccHitLoad_held {a n : Nat} {x : CLine} (hevict : (s.core l).evictAt (a / 256) = none)
    (hline : (s.core l).lineAt (a / 256) = some x) :
    s.ccHitLoad l a n = some (sliceBytes x.data (a % 256) n, s.placeLine l x) := by
  simp only [State.ccHitLoad, hevict, hline]

/-- A store to a line that the cache holds alone. -/
theorem State.ccHitStore_held {a : Nat} {bs : List Byte} {x : CLine} (hevict : (s.core l).evictAt (a / 256) = none)
    (hline : (s.core l).lineAt (a / 256) = some x) (hst : x.st = .D ∨ x.st = .K) :
    s.ccHitStore l a bs = some ((s.cancelResv a bs.length).placeLine l
      { line := a / 256, st := .D, data := patchLine x.data (a % 256) bs }) := by
  rcases hst with hst | hst <;> simp only [State.ccHitStore, hevict, hline, hst]

theorem OnlyCC.lineAt (h : OnlyCC s t l) (line : Nat) : (t.core l).lineAt line = (s.core l).lineAt line := by
  rw [h.2]
  rfl

theorem OnlyCC.holders (h : OnlyCC s t l) (line : Nat) : t.holders line = s.holders line := by
  rw [h.1.1]
  rfl

/-- An aligned load of a power of two up to 8 lies in one line. -/
theorem mod_add_le_line {a : Nat} (f3 : BitVec 3) (h : a % 2 ^ (f3.toNat % 4) = 0) : a % 256 + 2 ^ (f3.toNat % 4) ≤ 256 := by
  have hlt : f3.toNat % 4 < 4 := Nat.mod_lt _ (by omega)
  interval_cases f3.toNat % 4 <;> omega

/-! ### Read snoops (Table 3.4) -/

theorem State.snoopRead_evict {k line : Nat} {w : CLine} (h : (s.core k).evictAt line = some w) :
    s.snoopRead k line = (s.writeBack k w).modCore k (·.dropEvict line) := by
  simp only [State.snoopRead, h]

theorem State.snoopRead_none {k line : Nat} (h : (s.core k).evictAt line = none) (h' : (s.core k).lineAt line = none) :
    s.snoopRead k line = s := by
  simp only [State.snoopRead, h, h']

theorem State.snoopRead_D {k line : Nat} {x : CLine} (h : (s.core k).evictAt line = none)
    (h' : (s.core k).lineAt line = some x) (hst : x.st = .D) :
    s.snoopRead k line = (s.writeBack k x).modCore k (·.setLineState line .S) := by
  simp only [State.snoopRead, h, h', hst]

theorem State.snoopRead_K {k line : Nat} {x : CLine} (h : (s.core k).evictAt line = none)
    (h' : (s.core k).lineAt line = some x) (hst : x.st = .K) : s.snoopRead k line = s.modCore k (·.setLineState line .S) := by
  simp only [State.snoopRead, h, h', hst]

theorem State.snoopRead_shared {k line : Nat} {x : CLine} (h : (s.core k).evictAt line = none)
    (h' : (s.core k).lineAt line = some x) (hst : x.st = .S ∨ x.st = .W) : s.snoopRead k line = s := by
  rcases hst with hst | hst <;> simp only [State.snoopRead, h, h', hst]

theorem State.lineAt_setLineState {k line : Nat} {x : CLine} (h : (s.core k).lineAt line = some x) (st : CState) :
    ((s.modCore k (·.setLineState line st)).core k).lineAt line = some { x with st := st } := by
  rw [State.modCore_eq, State.core_setCore_same]
  exact Core.lineAt_setLineState h st

theorem Stored.lineAt (h : Stored s t) (k line : Nat) : (t.core k).lineAt line = (s.core k).lineAt line := by
  rw [h.core]
  rfl

/-! ### Ownership snoops (R75) -/

theorem exec_ownershipSnoop {line : Nat} (h : (s.core l).supplied line = none) :
    exec (.ownershipSnoop l line) s = .next (s.dropFrom l line) := by
  have hexec : exec (.ownershipSnoop l line) s = execOwnershipSnoop l line s := rfl
  simp only [hexec, execOwnershipSnoop, h]

theorem exec_ownershipSnoop_supplied {line : Nat} {d : BitVec 2048} (h : (s.core l).supplied line = some d) :
    exec (.ownershipSnoop l line) s = .next { s.dropFrom l line with
      inFlight := SMap.set none (s.dropFrom l line).inFlight line (some (l.val, d)) } := by
  have hexec : exec (.ownershipSnoop l line) s = execOwnershipSnoop l line s := rfl
  simp only [hexec, execOwnershipSnoop, h]

/-! ### The commands -/

theorem exec_fill {rd : XReg} {a : Nat} {f3 : BitVec 3} {len : Nat} {t : State} {bs : List Byte} {u : State}
    (hstores : (s.cc l).stores = []) (hstall : (s.cc l).stall = some (.load rd a f3 len)) (ha : a < counterBase)
    (hhold : s.ccHolds l (a / 256) = false) (hfetch : s.fetchShared l (a / 256) = some t)
    (hhit : t.ccHitLoad l a (2 ^ (f3.toNat % 4)) = some (bs, u)) :
    exec (.ccLineFill l) s = .next (u.ccRetire l rd (loadValue f3.toNat bs) len) := by
  have hexec : exec (.ccLineFill l) s = execCcLineFill l s := rfl
  rw [hexec, execCcLineFill, hstores, hstall]
  dsimp only
  rw [if_neg (by simpa using ha), hhold, if_neg (by simp), hfetch]
  dsimp only
  rw [hhit]

theorem exec_store {p : PendStore} {rest : List PendStore} {t : State} (hstores : (s.cc l).stores = p :: rest)
    (hhit : s.ccHitStore l p.addr (leBytes p.width p.data.toNat) = some t) :
    exec (.ccLineFill l) s = .next (t.modCC l fun c => { c with stores := rest }) := by
  have hexec : exec (.ccLineFill l) s = execCcLineFill l s := rfl
  rw [hexec, execCcLineFill, hstores]
  dsimp only
  rw [hhit]

end Sys2Proof.Machine

open Sys2Proof Sys2Proof.Machine

/-- Settles O12: fills and stores by the lines they place, snoops and write-backs by what `writeBack_unarmed` says of the home. -/
theorem controlCacheTransitions : Obligations.ControlCacheTransitions := by
  unfold Obligations.ControlCacheTransitions
  refine ⟨fun s l rd a f3 len hstores hstall ha halign hhold hroom hholders hflight hawake => ?fill,
    fun s l p rest x hstores hevict hline hst => ?store, fun s l line harmed => ?read, fun s l line => ?own,
    fun s l w rest hevict harmed hawake => ?done⟩
  case fill =>
    obtain ⟨t, hfetch, hsame, hholds, hcc, hevict, hline⟩ := State.fetchShared_alone hroom hholders hflight hawake hhold
    have hhit := State.ccHitLoad_held (n := 2 ^ (f3.toNat % 4)) hevict hline
    dsimp only at hhit
    rw [s.sliceBytes_lineData (mod_add_le_line f3 halign)] at hhit
    refine ⟨_, exec_fill hstores hstall ha hhold hfetch hhit, ?_⟩
    have hplace := t.sameBytes_placeLine l
    have hcc' := t.cc_placeLine l
    have hline' := t.lineAt_placeLine l { line := a / 256, st := .K, data := lineData (s.bytes (a / 256 * 256) 256) }
    obtain ⟨hret, honly⟩ := ccRetires (s := t.placeLine l { line := a / 256, st := .K, data := lineData (s.bytes (a / 256 * 256) 256) })
      (l := l) rd (loadValue f3.toNat (s.bytes a (2 ^ (f3.toNat % 4)))) len
    refine ⟨hsame.trans ((hplace _).trans honly.1.2.2), (honly.holders _).trans hholds, (honly.lineAt _).trans hline', ?_⟩
    rw [hcc', hcc] at hret
    exact hret
  case store =>
    have hhit := State.ccHitStore_held (bs := leBytes p.width p.data.toNat) hevict hline hst
    have hcancel := s.stored_cancelResv p.addr (leBytes p.width p.data.toNat).length
    have hbytes : SameBytes s (s.cancelResv p.addr (leBytes p.width p.data.toNat).length) :=
      sameBytes_of_eq (by rw [State.cancelResv_frame]) (by rw [State.cancelResv_frame])
    refine ⟨_, exec_store hstores hhit, ?_⟩
    generalize s.cancelResv p.addr (leBytes p.width p.data.toNat).length = v at hcancel hbytes
    have hline' := v.lineAt_placeLine l
      { line := p.addr / 256, st := .D, data := patchLine x.data (p.addr % 256) (leBytes p.width p.data.toNat) }
    have hcc' := v.cc_placeLine l
      { line := p.addr / 256, st := .D, data := patchLine x.data (p.addr % 256) (leBytes p.width p.data.toNat) } l
    have hplace := v.sameBytes_placeLine l
      { line := p.addr / 256, st := .D, data := patchLine x.data (p.addr % 256) (leBytes p.width p.data.toNat) }
    generalize v.placeLine l _ = y at hline' hcc' hplace
    have honly := onlyCC_modCC y l fun c => { c with stores := rest }
    have hcc := y.cc_modCC_same l fun c => { c with stores := rest }
    refine ⟨hbytes.trans (hplace.trans honly.1.2.2), by rw [hcc], ?_, (honly.lineAt _).trans hline'⟩
    rw [hcc, hcc', State.cc, hcancel.core]
    rfl
  case read =>
    refine ⟨_, rfl, ?_⟩
    cases hevict : (s.core l).evictAt line with
    | some w =>
      obtain rfl := Core.line_of_evictAt hevict
      obtain ⟨hstored, hbytes, hbut⟩ := State.writeBack_unarmed harmed l w
      rw [State.snoopRead_evict hevict]
      generalize s.writeBack l w = v at *
      refine ⟨hstored.only.reg, hbut, fun h => by simp at h, fun _ h => by simp at h, fun w' hw' _ => ?_⟩
      cases hw'
      refine ⟨hbytes, ?_⟩
      rw [State.modCore_eq, State.core_setCore_same]
      exact Core.evictAt_dropEvict _ _
    | none =>
      cases hline : (s.core l).lineAt line with
      | none =>
        rw [State.snoopRead_none hevict hline]
        exact ⟨fun _ _ _ => rfl, fun _ _ => rfl, fun _ _ => rfl, fun _ _ h => by simp at h, fun _ h => by simp at h⟩
      | some x =>
        obtain rfl := Core.line_of_lineAt hline
        cases hst : x.st with
        | D =>
          obtain ⟨hstored, hbytes, hbut⟩ := State.writeBack_unarmed harmed l x
          have hset := State.lineAt_setLineState ((hstored.lineAt l x.line).trans hline) .S
          rw [State.snoopRead_D hevict hline hst]
          generalize s.writeBack l x = v at *
          refine ⟨hstored.only.reg, hbut, fun _ h => by simp at h, fun y _ hy => ?_, fun _ h => by simp at h⟩
          cases hy
          exact ⟨fun _ => ⟨hbytes, hset⟩, fun h => by simp [hst] at h, fun h => by simp [hst] at h⟩
        | K =>
          rw [State.snoopRead_K hevict hline hst]
          refine ⟨fun _ _ _ => rfl, fun _ _ => rfl, fun _ h => by simp at h, fun y _ hy => ?_, fun _ h => by simp at h⟩
          cases hy
          exact ⟨fun h => by simp [hst] at h, fun _ => ⟨sameBytes_of_eq rfl rfl, State.lineAt_setLineState hline .S⟩,
            fun h => by simp [hst] at h⟩
        | S =>
          rw [State.snoopRead_shared hevict hline (.inl hst)]
          refine ⟨fun _ _ _ => rfl, fun _ _ => rfl, fun _ h => by simp at h, fun y _ hy => ?_, fun _ h => by simp at h⟩
          cases hy
          exact ⟨fun h => by simp [hst] at h, fun h => by simp [hst] at h, fun _ => rfl⟩
        | W =>
          rw [State.snoopRead_shared hevict hline (.inr hst)]
          refine ⟨fun _ _ _ => rfl, fun _ _ => rfl, fun _ h => by simp at h, fun y _ hy => ?_, fun _ h => by simp at h⟩
          cases hy
          exact ⟨fun h => by simp [hst] at h, fun h => by simp [hst] at h, fun h => by simp [hst] at h⟩
  case own =>
    have hdrop : ((s.dropFrom l line).core l).lineAt line = none ∧ ((s.dropFrom l line).core l).evictAt line = none := by
      rw [State.dropFrom, State.modCore_eq, State.core_setCore_same]
      exact ⟨(s.core l).lineAt_dropLine line, Core.evictAt_dropEvict _ _⟩
    have hothers : ∀ k, k ≠ l.val → (s.dropFrom l line).core k = s.core k := fun k hk => State.core_setCore_other _ _ hk
    have hcc : (s.dropFrom l line).cc l = s.cc l := by
      simp [State.dropFrom, State.cc, Core.dropLine, Core.dropEvict]
    obtain ⟨hline, hevict⟩ := hdrop
    have hbytes : SameBytes s (s.dropFrom l line) := sameBytes_of_eq rfl rfl
    cases hd : (s.core l).supplied line with
    | none =>
      refine ⟨s.dropFrom l line, exec_ownershipSnoop hd, hbytes, hline, hevict, hothers, hcc, fun d h => ?_, fun _ => rfl⟩
      cases h
    | some d =>
      refine ⟨_, exec_ownershipSnoop_supplied hd, hbytes, hline, hevict, hothers, hcc, fun d' h => ?_, fun h => ?_⟩
      · cases h
        exact SMap.get_set_same none (s.dropFrom l line).inFlight line (some (l.val, d))
      · cases h
  case done =>
    obtain ⟨hstored, hbytes, hbut⟩ := State.writeBack_unarmed harmed l w
    have hexec : exec (.writebackDone l) s = .next ((s.writeBack l w).modCore l (·.dropEvict w.line)) := by
      have h : exec (.writebackDone l) s = execWritebackDone l s := rfl
      rw [h, execWritebackDone, hevict]
      dsimp only
      rw [hawake, if_neg (by simp)]
    refine ⟨_, hexec, ?_⟩
    generalize s.writeBack l w = v at *
    refine ⟨hbytes, hbut, hstored.only.reg, ?_⟩
    rw [State.modCore_eq, State.core_setCore_same]
    exact Core.evictAt_dropEvict _ _
end

section
/-!
Writes of a control core's own registers (R73, R91, R96).
-/

namespace Sys2Proof.Machine

open Sys2Proof

variable {s t u : State}

/-! ### What accesses of memory leave of the places of addresses -/

/-- What places addresses is the same: the configuration, the partitions' maps, and the registers but the ash log's status. -/
structure SamePlaces (s t : State) : Prop where
  cfg : t.cfg = s.cfg
  parts : t.parts = s.parts
  effLo : t.effLo = s.effLo
  reg : ∀ n i j, n ≠ .STO_ALOG_STATUS → i < 4096 → j < 4096 → t.reg n i j = s.reg n i j

theorem SamePlaces.refl (s : State) : SamePlaces s s := ⟨rfl, rfl, rfl, fun _ _ _ _ _ _ => rfl⟩

theorem Accessed.samePlaces (h : Accessed s t) : SamePlaces s t :=
  ⟨by rw [h.frame], by rw [h.frame], by rw [h.frame], h.reg⟩

theorem samePlaces_modCore (s : State) (l : Nat) (f : Core → Core) : SamePlaces s (s.modCore l f) :=
  ⟨rfl, rfl, rfl, fun _ _ _ _ _ _ => rfl⟩

theorem SamePlaces.field (h : SamePlaces s t) {n : RegName} {i j : Nat} (hi lo : Nat) (hn : n ≠ .STO_ALOG_STATUS) (hi' : i < 4096)
    (hj : j < 4096) : t.field n i j hi lo = s.field n i j hi lo := by
  rw [State.field, h.reg n i j hn hi' hj]
  rfl

theorem SamePlaces.place (h : SamePlaces s t) (a : Nat) : t.place a = s.place a := by
  have hring : t.ringBytes = s.ringBytes := by
    unfold State.ringBytes State.variant
    rw [h.field 31 30 (by decide) (by omega) (by omega)]
  unfold State.place State.inRow
  rw [h.cfg, hring]

theorem SamePlaces.isMemoryRange (h : SamePlaces s t) (a n : Nat) : t.isMemoryRange a n = s.isMemoryRange a n := by
  simp only [State.isMemoryRange, State.isMemory, h.place, State.isScratch_congr h.cfg]

theorem SamePlaces.moduleId (h : SamePlaces s t) : t.moduleId = s.moduleId :=
  h.field 17 0 (by decide) (by omega) (by omega)

theorem SamePlaces.pinnedLocal (h : SamePlaces s t) (p a n : Nat) : t.pinnedLocal p a n = s.pinnedLocal p a n := by
  have hlocal : ∀ x, t.localise x = s.localise x := fun x => by rw [State.localise, h.moduleId]; rfl
  have hremote : ∀ x, t.remoteOf x = s.remoteOf x := fun x => by simp only [State.remoteOf, hlocal, h.moduleId]
  have hscratch : t.ownsScratch p a n = s.ownsScratch p a n := by simp only [State.ownsScratch, State.hgroup, h.cfg]
  have hmapped : t.mappedPieces p a n = s.mappedPieces p a n := by
    simp only [State.mappedPieces, State.part, h.parts, hlocal]
  simp only [State.pinnedLocal, State.pinnedPieces, hscratch, hmapped, hremote]

theorem SamePlaces.partOf (h : SamePlaces s t) (l : Nat) : t.partOf l = s.partOf l := by
  simp only [State.partOf, State.partOfCluster, State.partCfg, h.cfg]

theorem window_lt {a l off : Nat} (h : windowOf a = some (l, off)) : l < 768 := by
  unfold windowOf windowBase windowEnd at h
  split at h
  · next hr =>
    simp only [Bool.and_eq_true, decide_eq_true_eq] at hr
    simp only [Option.some.injEq, Prod.mk.injEq] at h
    omega
  · cases h

theorem State.slotOf_lt (s : State) (l : Nat) : s.slotOf l < 16 := by
  unfold State.slotOf State.field bitsOf
  refine lt_of_lt_of_eq (Nat.mod_lt _ (by positivity)) ?_
  rw [show 4 * (l % 8) + 3 + 1 - 4 * (l % 8) = 4 by omega]
  rfl

/-- Every core's registers have indices that the register file tells apart. -/
theorem State.physOf_lt (s : State) {l : Nat} (h : l < 768) : s.physOf l < 4096 := by
  have := s.slotOf_lt l
  unfold State.physOf
  split <;> omega

theorem SamePlaces.physOf (h : SamePlaces s t) {l : Nat} (hl : l < 768) : t.physOf l = s.physOf l := by
  have hslot : t.slotOf l = s.slotOf l := h.field _ _ (by decide) (by omega) (by omega)
  rw [State.physOf, hslot]
  rfl

theorem SamePlaces.ownsWindow (h : SamePlaces s t) (p a n : Nat) : t.ownsWindow p a n = s.ownsWindow p a n := by
  unfold State.ownsWindow
  cases hw : windowOf a with
  | none => rfl
  | some w =>
    obtain ⟨l, off⟩ := w
    have hl := window_lt hw
    have hsize : t.lmSize l = s.lmSize l := by
      rw [State.lmSize, h.physOf hl, h.field 7 4 (by decide) (s.physOf_lt hl) (by omega)]
      rfl
    simp only [hsize, h.partOf]

/-- Where a partition's range lies is not an access's to change. -/
theorem SamePlaces.partPieces (h : SamePlaces s t) (p a n : Nat) : t.partPieces p a n = s.partPieces p a n := by
  simp only [State.partPieces, h.ownsWindow, h.pinnedLocal, h.isMemoryRange]

theorem SamePlaces.pair (h : SamePlaces s t) {lo hi : RegName} {i : Nat} (hn : hi ≠ .STO_ALOG_STATUS) (hi' : i < 4096) :
    t.pair lo hi i = s.pair lo hi i := by
  rw [State.pair, h.effLo, h.reg hi i 0 hn hi' (by omega)]
  rfl

/-! ### The copy of the arena table (R77, R91) -/

theorem State.accessed_peekTargets (s : State) (l : List (Nat × Nat)) : Accessed s (s.peekTargets l).2 := by
  unfold State.peekTargets
  refine accessed_foldl (fun t x => ?_) l s
  split
  · exact Accessed.refl t
  · exact accessed_foldl (fun v line => v.accessed_recall line false) _ t

theorem State.peekTargets_quiet (hs : Quiet s) (l : List (Nat × Nat)) : (s.peekTargets l).2 = s := by
  unfold State.peekTargets
  refine foldl_keeps (· = s) _ (fun t x ht => ?_) l s rfl
  subst ht
  split
  · rfl
  · exact foldl_keeps (· = t) _ (fun v line hv => by rw [hv, State.recall_quiet hs]) _ t rfl

/-- The copy found where the table lies: nothing where its range fails (log entry 43). -/
def State.tableCopy (s : State) (k l : Nat) : List Arena :=
  (((s.partOf l).bind fun p => s.partPieces p (s.pair .CORE_SPAN_BASE_LO .CORE_SPAN_BASE_HI k) 2048).map fun ps =>
    arenasOf (ps.flatMap fun x => s.bytes x.1 x.2)).getD []

theorem SamePlaces.tableCopy (h : SamePlaces s t) {k : Nat} (hk : k < 4096) (l : Nat) :
    t.tableCopy k l = (((s.partOf l).bind fun p => s.partPieces p (s.pair .CORE_SPAN_BASE_LO .CORE_SPAN_BASE_HI k) 2048).map fun ps =>
      arenasOf (ps.flatMap fun x => t.bytes x.1 x.2)).getD [] := by
  simp only [State.tableCopy, h.partOf, h.partPieces, h.pair (lo := .CORE_SPAN_BASE_LO) (hi := .CORE_SPAN_BASE_HI) (by decide) hk]

/-- What the copy leaves: the table in the core, its span cache empty, and else what the snoops of its lines leave. -/
theorem State.copyArenas_spec {k l : Nat} (hk : k < 4096) (hl : s.logicalOf k = some l) :
    ∃ v, Accessed s v ∧ (Quiet s → v = s) ∧
      s.copyArenas k = v.modCore l fun c => { c with arenas := v.tableCopy k l, spanCache := [] } := by
  unfold State.copyArenas
  rw [hl]
  dsimp only
  generalize hps : ((s.partOf l).bind fun p => s.partPieces p (s.pair .CORE_SPAN_BASE_LO .CORE_SPAN_BASE_HI k) 2048) = found
  cases found with
  | none => exact ⟨s, Accessed.refl s, fun _ => rfl, by rw [(SamePlaces.refl s).tableCopy hk, hps]; rfl⟩
  | some ps =>
    have hpeek := s.accessed_peekTargets ps
    refine ⟨_, hpeek, fun hs => State.peekTargets_quiet hs ps, ?_⟩
    rw [hpeek.samePlaces.tableCopy hk, hps]
    rfl

/-! ### Words written -/

/-- Of a register whose fields are plain, a write leaves the written bits. -/
theorem RegName.getLsbD_written {n : RegName} (hc : n.maskOf .w1c = 0) (hs : n.maskOf .w1s = 0) {i : Nat}
    (hrw : (n.maskOf .rw).getLsbD i = true) (old v : W32) : (n.written old v).getLsbD i = v.getLsbD i := by
  have hi : i < 32 := BitVec.lt_of_getLsbD hrw
  have h0 : (0 : W32).getLsbD i = false := BitVec.getLsbD_zero
  simp only [RegName.written, hc, hs, BitVec.getLsbD_or, BitVec.getLsbD_and, BitVec.getLsbD_not, hrw, hi, h0]
  simp

theorem bitsOf_congr {n m : Nat} {x : BitVec n} {y : BitVec m} {hi lo : Nat}
    (h : ∀ i, lo ≤ i → i ≤ hi → x.getLsbD i = y.getLsbD i) : bitsOf x hi lo = bitsOf y hi lo := by
  apply Nat.eq_of_testBit_eq
  intro i
  simp only [bitsOf, Nat.testBit_mod_two_pow, Nat.testBit_shiftRight, BitVec.testBit_toNat]
  by_cases hi' : i < hi + 1 - lo
  · rw [h (lo + i) (by omega) (by omega)]
  · simp [hi']

/-- A register of no field with values to be ignored takes the word as written. -/
theorem State.plainWrite_eq {r : RegRef} (v : W32) (h : r.name.allowed = []) :
    s.plainWrite r v = s.storeReg r (r.name.written (s.regOf r) v) := by
  rw [State.plainWrite, RegName.keepAllowed, h]
  rfl

theorem State.bits_written_baseLo (old : W32) (v : W64) :
    bitsOf (RegName.written .CORE_SPAN_BASE_LO old (v.setWidth 32)) 31 6 = bitsOf v 31 6 := by
  refine bitsOf_congr fun i hlo hhi => ?_
  have hmask : ∀ i, 6 ≤ i → i ≤ 31 → (RegName.maskOf .CORE_SPAN_BASE_LO .rw).getLsbD i = true := by decide
  rw [RegName.getLsbD_written (by decide) (by decide) (hmask i hlo hhi), BitVec.getLsbD_setWidth]
  simp
  omega

theorem State.bits_written_baseHi (old : W32) (v : W64) :
    bitsOf (RegName.written .CORE_SPAN_BASE_HI old ((v >>> 32).setWidth 32)) 9 0 = bitsOf v 41 32 := by
  have hbits : bitsOf (RegName.written .CORE_SPAN_BASE_HI old ((v >>> 32).setWidth 32)) 9 0 = bitsOf (v >>> 32) 9 0 := by
    refine bitsOf_congr fun i hlo hhi => ?_
    have hmask : ∀ i, i ≤ 9 → (RegName.maskOf .CORE_SPAN_BASE_HI .rw).getLsbD i = true := by decide
    rw [RegName.getLsbD_written (by decide) (by decide) (hmask i hhi), BitVec.getLsbD_setWidth]
    simp
    omega
  rw [hbits, bitsOf, bitsOf, BitVec.toNat_ushiftRight]
  rfl

/-- The core's own bytes of the entries that are locked under one of two counts and not under the other. -/
def lockGone (a b off : Nat) : Bool := decide (0x20000 + 256 * min a b ≤ off) && decide (off < 0x20000 + 256 * max a b)

/-- A core without the bytes of entries newly locked or unlocked. -/
def State.clearLocked (s : State) (l a b : Nat) : State :=
  s.modCore l fun c => { c with priv := c.priv.filter fun e => !lockGone a b e.1 }

/-- What a write of CORE_CC_CFG that is allowed and changes it does. -/
theorem State.ccCfgWrite_eq {k l : Nat} {v new : W32} (hl : s.logicalOf k = some l)
    (hnew : RegName.written .CORE_CC_CFG (s.reg .CORE_CC_CFG k) v = new) (hok : lockedOk new = true)
    (hne : new ≠ s.reg .CORE_CC_CFG k) :
    s.ccCfgWrite k v =
      ((s.flushCache l).clearLocked l (s.field .CORE_CC_CFG k 0 5 1) (bitsOf new 5 1)).storeReg { name := .CORE_CC_CFG, i := k } new := by
  subst hnew
  have hcond : (!lockedOk (RegName.written .CORE_CC_CFG (s.regOf { name := .CORE_CC_CFG, i := k }) v) ||
      decide (RegName.written .CORE_CC_CFG (s.regOf { name := .CORE_CC_CFG, i := k }) v = s.regOf { name := .CORE_CC_CFG, i := k })) = false := by
    rw [Bool.or_eq_false_iff]
    exact ⟨by rw [Bool.not_eq_false']; exact hok, decide_eq_false hne⟩
  rw [State.ccCfgWrite, if_neg (by rw [hcond]; simp), hl]
  rfl

theorem State.core_clearLocked (s : State) (l a b : Nat) : (s.clearLocked l a b).core l =
    { s.core l with priv := (s.core l).priv.filter fun e => !lockGone a b e.1 } := State.core_setCore_same ..

theorem State.core_storeReg (s : State) (r : RegRef) (w : W32) (k : Nat) : (s.storeReg r w).core k = s.core k := by
  rw [State.storeReg_frame]
  rfl

/-- A cache with nothing dirty is emptied without a write. -/
theorem State.flushCache_clean {l : Nat} (hevict : (s.core l).evict = []) (hclean : ∀ x ∈ (s.core l).cache, x.st ≠ .D) :
    s.flushCache l = s.modCore l fun c => { c with cache := [], evict := [] } := by
  have hnone : (s.core l).cache.filter (fun x => x.st = CState.D) = [] :=
    List.filter_eq_nil_iff.2 fun x hx => by simpa using hclean x hx
  rw [State.flushCache, hevict, hnone]
  rfl

/-- The cache and the eviction buffer are empty once flushed. -/
theorem State.flushCache_empty (s : State) (l : Nat) :
    ((s.flushCache l).core l).cache = [] ∧ ((s.flushCache l).core l).evict = [] := by
  rw [State.flushCache, State.modCore_eq, State.core_setCore_same]
  exact ⟨rfl, rfl⟩

/-- What was filtered away reads as the default. -/
theorem SMap.get_filter_not {α : Type} (d : α) (m : SMap α) {gone : Nat → Bool} {k : Nat} (h : gone k = true) :
    SMap.get d (m.filter fun e => !gone e.1) k = d := by
  refine SMap.get_of_notMem d _ fun hk => ?_
  obtain ⟨e, he, rfl⟩ := List.mem_map.1 hk
  have := (List.mem_filter.1 he).2
  rw [h] at this
  cases this

/-- Both words of the base in effect, in the bits of an address of a table. -/
theorem State.pair_written {k : Nat} (hk : k < 4096) (v : W64) :
    let u := (s.plainWrite { name := .CORE_SPAN_BASE_LO, i := k } (v.setWidth 32)).plainWrite
      { name := .CORE_SPAN_BASE_HI, i := k } ((v >>> 32).setWidth 32)
    natBits (u.pair .CORE_SPAN_BASE_LO .CORE_SPAN_BASE_HI k) 31 6 = bitsOf v 31 6 ∧
      natBits (u.pair .CORE_SPAN_BASE_LO .CORE_SPAN_BASE_HI k) 41 32 = bitsOf v 41 32 := by
  intro u
  have hlo := State.bits_written_baseLo (s.regOf { name := .CORE_SPAN_BASE_LO, i := k }) v
  set w := RegName.written .CORE_SPAN_BASE_LO (s.regOf { name := .CORE_SPAN_BASE_LO, i := k }) (v.setWidth 32) with hw
  have hu : u = ((s.storeReg { name := .CORE_SPAN_BASE_LO, i := k } w).plainWrite
      { name := .CORE_SPAN_BASE_HI, i := k } ((v >>> 32).setWidth 32)) := by
    rw [hw, ← State.plainWrite_eq (r := { name := .CORE_SPAN_BASE_LO, i := k }) _ rfl]
  rw [State.plainWrite_eq (r := { name := .CORE_SPAN_BASE_HI, i := k }) _ rfl] at hu
  have hhi := State.bits_written_baseHi ((s.storeReg { name := .CORE_SPAN_BASE_LO, i := k } w).regOf { name := .CORE_SPAN_BASE_HI, i := k }) v
  generalize RegName.written .CORE_SPAN_BASE_HI _ _ = y at hu hhi
  have hpair : u.pair .CORE_SPAN_BASE_LO .CORE_SPAN_BASE_HI k = w.toNat + y.toNat * 2 ^ 32 := by
    have h := (s.storeReg { name := .CORE_SPAN_BASE_LO, i := k } w).pair_storeReg_high { name := .CORE_SPAN_BASE_HI, i := k } y
      (lo := .CORE_SPAN_BASE_LO) rfl hk (Nat.zero_lt_succ _)
    have hlow : (s.storeReg { name := .CORE_SPAN_BASE_LO, i := k } w).reg .CORE_SPAN_BASE_LO k 0 = w :=
      s.regOf_storeReg_same { name := .CORE_SPAN_BASE_LO, i := k } w
    rw [hu]
    exact h.trans (by rw [hlow])
  rw [hpair, ← hlo, ← hhi]
  have hw' := w.isLt
  simp only [natBits, bitsOf, Nat.shiftRight_eq_div_pow]
  omega

/-- The map of cores to slots is not a word of a core's own registers. -/
theorem State.logicalOf_plainWrite {r : RegRef} (v : W32) {k : Nat} (hk : k < 4096) (hn : r.name ≠ .CLU_CORE_MAP) (hi : r.i < 4096)
    (hj : r.j < 4096) : (s.plainWrite r v).logicalOf k = s.logicalOf k := by
  refine List.find?_congr fun l hl => ?_
  obtain ⟨i, hi8, rfl⟩ := List.mem_map.1 hl
  have hlt := List.mem_range.1 hi8
  have hreg : (s.plainWrite r v).reg .CLU_CORE_MAP ((8 * (k / 9) + i) / 8) 0 = s.reg .CLU_CORE_MAP ((8 * (k / 9) + i) / 8) 0 :=
    s.reg_storeReg_other r _ (by simp [hn.symm]) hi hj (by omega) (by omega)
  simp only [State.slotOf, State.field, hreg]

/-- The states differ in the register file and the words of pairs in effect alone. -/
def OnlyWords (s t : State) : Prop := t = { s with regs := t.regs, effLo := t.effLo }

theorem OnlyWords.trans (h : OnlyWords s t) (k : OnlyWords t u) : OnlyWords s u := by
  unfold OnlyWords at *
  rw [k, h]

theorem State.onlyWords_plainWrite (s : State) (r : RegRef) (v : W32) : OnlyWords s (s.plainWrite r v) := State.storeReg_frame ..

theorem RegName.written_spanCount (old v : W32) : RegName.written .CORE_SPAN_COUNT old v = v := by
  have hmask : ∀ i, i < 32 → (RegName.maskOf .CORE_SPAN_COUNT .rw).getLsbD i = true := by decide
  exact BitVec.eq_of_getLsbD_eq fun i hi => RegName.getLsbD_written (by decide) (by decide) (hmask i hi) old v

theorem State.spanCountWrite_eq {k l : Nat} (hk : k < 4096) (hl : s.logicalOf k = some l) (v : W32) :
    s.spanCountWrite k v =
      (s.setReg .CORE_SPAN_COUNT k 0 v).modCore l fun c => { c with spanCache := [] } := by
  have hlogical := s.logicalOf_plainWrite (r := { name := .CORE_SPAN_COUNT, i := k }) v hk (show RegName.CORE_SPAN_COUNT ≠ .CLU_CORE_MAP by decide) hk (Nat.zero_lt_succ _)
  have hwrite : s.plainWrite { name := .CORE_SPAN_COUNT, i := k } v = s.setReg .CORE_SPAN_COUNT k 0 v := by
    rw [State.plainWrite_eq _ rfl, RegName.written_spanCount]
    exact s.storeReg_of_rwLow_none _ v rfl
  rw [State.spanCountWrite, hlogical, hl, hwrite]

end Sys2Proof.Machine

open Sys2Proof Sys2Proof.Machine

/-- Settles O14: the flush empties the cache whatever is locked, and the copy of the table is taken where the pair, once in effect, puts
it. -/
theorem controlCoreRegistersTakeEffect : Obligations.ControlCoreRegistersTakeEffect := by
  unfold Obligations.ControlCoreRegistersTakeEffect
  intro s a k l hl
  refine ⟨fun v new hmay hnew => ⟨fun hok hne => ?cfg, fun hbad => ?refused⟩, fun v hmay => ?base, fun v hmay => ?count⟩
  case cfg =>
    have hexec : exec (.ccCfgWrite a k v) s = .next (s.ccCfgWrite k v) := if_pos hmay
    rw [State.ccCfgWrite_eq hl hnew hok hne] at hexec
    obtain ⟨hcache, hevict⟩ := s.flushCache_empty l
    refine ⟨_, hexec, State.regOf_storeReg_same (r := { name := .CORE_CC_CFG, i := k }) .., ?_⟩
    have hclean := State.flushCache_clean (s := s) (l := l)
    generalize s.flushCache l = u at *
    rw [State.core_storeReg, State.core_clearLocked]
    refine ⟨hcache, hevict, fun off hlo hhi => SMap.get_filter_not 0 (u.core l).priv ?_, fun he hd => ?_⟩
    · simp only [lockGone, hlo, hhi, decide_true, Bool.and_self]
    · refine SameBytes.trans (b := u.clearLocked l _ _) ?_ (State.sameBytes_storeReg _ _ _)
      rw [hclean he hd]
      exact sameBytes_of_eq rfl rfl
  case refused =>
    have hexec : exec (.ccCfgWrite a k v) s = .next (s.ccCfgWrite k v) := if_pos hmay
    subst hnew
    rw [hexec, State.ccCfgWrite, if_pos]
    rw [Bool.or_eq_true]
    exact .inl (by rw [Bool.not_eq_true']; exact hbad)
  case base =>
    have hk : k.val < 4096 := by omega
    have hexec : exec (.spanBaseWrite a k v) s =
        .next (((s.plainWrite { name := .CORE_SPAN_BASE_LO, i := k } (v.setWidth 32)).plainWrite
          { name := .CORE_SPAN_BASE_HI, i := k } ((v >>> 32).setWidth 32)).copyArenas k) := if_pos hmay
    obtain ⟨hlo, hhi⟩ := s.pair_written hk v
    have hu := (s.onlyWords_plainWrite { name := .CORE_SPAN_BASE_LO, i := k } (v.setWidth 32)).trans
      (State.onlyWords_plainWrite _ { name := .CORE_SPAN_BASE_HI, i := k } ((v >>> 32).setWidth 32))
    have hlogical : ((s.plainWrite { name := .CORE_SPAN_BASE_LO, i := k } (v.setWidth 32)).plainWrite
        { name := .CORE_SPAN_BASE_HI, i := k } ((v >>> 32).setWidth 32)).logicalOf k = some l := by
      rw [State.logicalOf_plainWrite _ hk (show RegName.CORE_SPAN_BASE_HI ≠ .CLU_CORE_MAP by decide) hk (Nat.zero_lt_succ _),
        State.logicalOf_plainWrite _ hk (show RegName.CORE_SPAN_BASE_LO ≠ .CLU_CORE_MAP by decide) hk (Nat.zero_lt_succ _), hl]
    generalize (s.plainWrite { name := .CORE_SPAN_BASE_LO, i := k } (v.setWidth 32)).plainWrite
      { name := .CORE_SPAN_BASE_HI, i := k } ((v >>> 32).setWidth 32) = u at *
    unfold OnlyWords at hu
    obtain ⟨y, hacc, hquiet, hcopy⟩ := State.copyArenas_spec hk hlogical
    rw [hcopy] at hexec
    have hplaces := samePlaces_modCore y l fun c => { c with arenas := y.tableCopy k l, spanCache := [] }
    have hsame : SameBytes y (y.modCore l fun c => { c with arenas := y.tableCopy k l, spanCache := [] }) := sameBytes_of_eq rfl rfl
    have hcore : (y.modCore l fun c => { c with arenas := y.tableCopy k l, spanCache := [] }).core l =
      { y.core l with arenas := y.tableCopy k l, spanCache := [] } := State.core_setCore_same ..
    have hothers : ∀ i, i ≠ l → (y.modCore l fun c => { c with arenas := y.tableCopy k l, spanCache := [] }).core i = y.core i :=
      fun i hi => State.core_setCore_other _ _ hi
    have hframe : (y.modCore l fun c => { c with arenas := y.tableCopy k l, spanCache := [] }) =
      { y with cores := (y.modCore l fun c => { c with arenas := y.tableCopy k l, spanCache := [] }).cores } := rfl
    generalize (y.modCore l fun c => { c with arenas := y.tableCopy k l, spanCache := [] }) = t at *
    have hp : t.pair .CORE_SPAN_BASE_LO .CORE_SPAN_BASE_HI k = u.pair .CORE_SPAN_BASE_LO .CORE_SPAN_BASE_HI k :=
      (hplaces.pair (by decide) hk).trans (hacc.samePlaces.pair (by decide) hk)
    have hcopied : t.tableCopy k l = y.tableCopy k l := by
      rw [hplaces.tableCopy hk, State.tableCopy]
      simp only [hsame.bytes_eq]
    refine ⟨t, hexec, by rw [hp, hlo], by rw [hp, hhi], by rw [hcore], ?_, fun hpresence hflight => ?_⟩
    · rw [hcore]
      exact hcopied.symm
    · have hy : y = u := hquiet ⟨by rw [hu]; exact hpresence, by rw [hu]; exact hflight⟩
      subst hy
      refine ⟨by rw [hframe, hu], ?_, fun i hi => (hothers i hi).trans (by rw [hu]; rfl)⟩
      exact (sameBytes_of_eq (t := y) (by rw [hu]) (by rw [hu])).trans hsame
  case count =>
    have hexec : exec (.spanCountWrite a k v) s = .next (s.spanCountWrite k v) := if_pos hmay
    rw [State.spanCountWrite_eq (by omega) hl] at hexec
    refine ⟨_, hexec, s.reg_setReg_same .., ?_, rfl, sameBytes_of_eq rfl rfl, fun i hi => State.core_setCore_other _ _ hi⟩
    rw [State.modCore_eq, State.core_setCore_same]
end

section
/-!
The life of an instruction in its queue (R80 to R88, R276, R278, R337).
-/

namespace Sys2Proof.Machine

open Sys2Proof

variable {s t u : State} {l : CoreId} {q acc : Nat}

/-! ### Entries of a queue -/

theorem Queue.find_update (x : Queue) (acc acc' : Nat) {f : QEntry → QEntry} (hf : ∀ e, (f e).acc = e.acc) :
    (x.update acc f).find acc' = (x.find acc').map fun e => if e.acc == acc then f e else e := by
  have hkeeps : ((fun e : QEntry => e.acc == acc') ∘ fun e => if e.acc == acc then f e else e) = fun e => e.acc == acc' := by
    funext e
    simp only [Function.comp]
    split
    · rw [hf]
    · rfl
  rw [Queue.find, Queue.update, List.find?_map, hkeeps]
  rfl

theorem State.entry_modEntry (s : State) (l q acc acc' : Nat) {f : QEntry → QEntry} (hf : ∀ e, (f e).acc = e.acc) :
    (s.modEntry l q acc f).entry l q acc' = (s.entry l q acc').map fun e => if e.acc == acc then f e else e := by
  rw [State.entry, State.modEntry, State.queue_modQueue_same, Queue.find_update _ _ _ hf]
  rfl

theorem State.acc_of_entry {e : QEntry} (h : s.entry l q acc = some e) : e.acc = acc := by
  simpa using List.find?_some h

theorem State.entry_modEntry_same {f : QEntry → QEntry} (hf : ∀ e, (f e).acc = e.acc) {e : QEntry}
    (h : s.entry l q acc = some e) : (s.modEntry l q acc f).entry l q acc = some (f e) := by
  rw [State.entry_modEntry _ _ _ _ _ hf, h, Option.map_some, if_pos (by simp [State.acc_of_entry h])]

/-- The entry that stands at its place, alone with its count. -/
theorem State.entry_of_entries {e : QEntry} {pre post : List QEntry} (h : (s.queue l q).entries = pre ++ e :: post)
    (hacc : ∀ y ∈ pre ++ post, y.acc ≠ e.acc) : s.entry l q e.acc = some e := by
  rw [State.entry, Queue.find, h, List.find?_append, List.find?_eq_none.2, Option.none_or, List.find?_cons_of_pos]
  · simp
  · intro y hy
    simpa using hacc y (List.mem_append_left _ hy)

/-- An entry replaced in place. -/
theorem State.entries_modEntry {e : QEntry} {pre post : List QEntry} (f : QEntry → QEntry)
    (h : (s.queue l q).entries = pre ++ e :: post) (hacc : ∀ y ∈ pre ++ post, y.acc ≠ e.acc) :
    ((s.modEntry l q e.acc f).queue l q).entries = pre ++ f e :: post := by
  have hother : ∀ ys : List QEntry, (∀ y ∈ ys, y.acc ≠ e.acc) →
      ys.map (fun x => if x.acc == e.acc then f x else x) = ys := fun ys hys =>
    (List.map_congr_left fun y hy => if_neg (by simpa using hys y hy)).trans (List.map_id' ys)
  rw [State.modEntry, State.queue_modQueue_same, Queue.update]
  dsimp only
  rw [h, List.map_append, List.map_cons, if_pos (by simp), hother pre fun y hy => hacc y (List.mem_append_left _ hy),
    hother post fun y hy => hacc y (List.mem_append_right _ hy)]

/-- The states differ at most in the queue `q` of core `l` and in the streams. -/
structure OnlyQueue (s t : State) (l q : Nat) : Prop where
  frame : t = { s with cores := t.cores, streams := t.streams }
  core : t.core l = { s.core l with queues := (t.core l).queues }
  others : ∀ k, k ≠ q → t.queue l k = s.queue l k

theorem OnlyQueue.refl (s : State) (l q : Nat) : OnlyQueue s s l q := ⟨rfl, rfl, fun _ _ => rfl⟩

theorem OnlyQueue.trans (h : OnlyQueue s t l q) (k : OnlyQueue t u l q) : OnlyQueue s u l q where
  frame := by rw [k.frame, h.frame]
  core := by rw [k.core, h.core]
  others j hj := (k.others j hj).trans (h.others j hj)

theorem OnlyQueue.sameBytes (h : OnlyQueue s t l q) : SameBytes s t :=
  sameBytes_of_eq (t := t) (by rw [h.frame]) (by rw [h.frame])

theorem OnlyQueue.cc (h : OnlyQueue s t l q) : t.cc l = s.cc l := by
  rw [State.cc, h.core]
  rfl

theorem onlyQueue_modQueue (s : State) (l q : Nat) (f : Queue → Queue) : OnlyQueue s (s.modQueue l q f) l q where
  frame := rfl
  core := by rw [State.modQueue, State.modCore_eq, State.core_setCore_same]; rfl
  others k hk := s.queue_modQueue_queue l f hk

theorem onlyQueue_modEntry (s : State) (l q acc : Nat) (f : QEntry → QEntry) : OnlyQueue s (s.modEntry l q acc f) l q :=
  onlyQueue_modQueue s l q _

/-! ### Trace records that no unit makes (R396) -/

/-- An instruction of a unit that does not trace, pushed under a mode that does not, leaves no record. -/
theorem State.traceInstr_off {e : QEntry} (hmode : ∀ v, traceBit (s.mode 0 v).2 = false) (he : traceBit e.mode.2 = false)
    (kind arg : Nat) : s.traceInstr l q e kind arg = s := by
  unfold State.traceInstr State.traceUnit
  split
  · rfl
  · refine if_neg ?_
    split
    · rw [hmode]
      simp
    · rw [he]
      simp

/-! ### Signals that join a stream (R87, R88) -/

/-- The states differ in what joining signals changes: the streams, and the signals that entries of the queue hold. -/
structure Joins (s t : State) (l q : Nat) : Prop where
  only : OnlyQueue s t l q
  entry : ∀ acc y, s.entry l q acc = some y → ∃ z, t.entry l q acc = some z ∧ z = { y with sigs := z.sigs }

theorem Joins.refl (s : State) (l q : Nat) : Joins s s l q := ⟨OnlyQueue.refl s l q, fun _ y h => ⟨y, h, rfl⟩⟩

theorem Joins.trans (h : Joins s t l q) (k : Joins t u l q) : Joins s u l q where
  only := h.only.trans k.only
  entry acc y hy := by
    obtain ⟨z, hz, hzy⟩ := h.entry acc y hy
    obtain ⟨w, hw, hwz⟩ := k.entry acc z hz
    exact ⟨w, hw, by rw [hwz, hzy]⟩

/-- The signals of one entry join the stream. -/
def State.joinEntry (s : State) (l : CoreId) (q : Nat) (e : QEntry) : State :=
  (e.sigs.foldl (fun s g =>
    s.queueSignal (queueStream l q) (s.mkSig l (queueStream l q) g.seq g.handle g.kind g.operand)) s).modEntry l q e.acc fun x =>
      { x with sigs := [] }

theorem State.joinSignals_eq (s : State) (l : CoreId) (q : Nat) :
    s.joinSignals l q = (s.queue l q).completed.foldl (fun s e => s.joinEntry l q e) s := rfl

/-- Signals that join a stream follow those there, in their order and with their numbers and operands. -/
theorem foldl_queueSignal (gs : List SigSlot) (s : State) (l : CoreId) (st : W32) :
    let t := gs.foldl (fun s g => s.queueSignal st (s.mkSig l st g.seq g.handle g.kind g.operand)) s
    t = { s with streams := t.streams } ∧ ∃ xs, (t.stream st.toNat).unsent = (s.stream st.toNat).unsent ++ xs ∧
      xs.map (·.msg.seq) = gs.map (·.seq) ∧ xs.map (·.msg.operand) = gs.map (·.operand) := by
  induction gs generalizing s with
  | nil => exact ⟨rfl, [], by simp⟩
  | cons g gs ih =>
    obtain ⟨hframe, xs, hxs, hseq, hop⟩ := ih (s.queueSignal st (s.mkSig l st g.seq g.handle g.kind g.operand))
    have hsig : ∀ k, (s.mkSig l st g.seq g.handle k g.operand).msg.seq = g.seq ∧
        (s.mkSig l st g.seq g.handle k g.operand).msg.operand = g.operand := fun k => by
      unfold State.mkSig
      dsimp only
      split <;> exact ⟨rfl, rfl⟩
    refine ⟨hframe.trans rfl, s.mkSig l st g.seq g.handle g.kind g.operand :: xs, ?_, ?_, ?_⟩
    · rw [List.foldl_cons, hxs, State.queueSignal, State.stream_setStream_same, List.append_assoc]
      rfl
    · rw [List.map_cons, hseq, List.map_cons, (hsig _).1]
    · rw [List.map_cons, hop, List.map_cons, (hsig _).2]

/-- An entry's signals join the stream, and the entry holds none. -/
theorem State.joinEntry_spec (s : State) (l : CoreId) (q : Nat) (e : QEntry) :
    let t := s.joinEntry l q e
    Joins s t l q ∧ (∀ acc, t.entry l q acc = (s.entry l q acc).map fun x => if x.acc == e.acc then { x with sigs := [] } else x) ∧
      (e.sigs = [] → t.streams = s.streams) ∧
      ∃ xs, (t.stream (queueStream l q).toNat).unsent = (s.stream (queueStream l q).toNat).unsent ++ xs ∧
        xs.map (·.msg.seq) = e.sigs.map (·.seq) ∧ xs.map (·.msg.operand) = e.sigs.map (·.operand) := by
  intro t
  obtain ⟨hframe, xs, hxs, hseq, hop⟩ := foldl_queueSignal e.sigs s l (queueStream l q)
  have hempty : e.sigs = [] → e.sigs.foldl (fun s g =>
    s.queueSignal (queueStream l q) (s.mkSig l (queueStream l q) g.seq g.handle g.kind g.operand)) s = s := fun h => by rw [h]; rfl
  have ht : t = (e.sigs.foldl (fun s g => s.queueSignal (queueStream l q) (s.mkSig l (queueStream l q) g.seq g.handle g.kind g.operand))
    s).modEntry l q e.acc fun x => { x with sigs := [] } := rfl
  generalize e.sigs.foldl (fun s g =>
    s.queueSignal (queueStream l q) (s.mkSig l (queueStream l q) g.seq g.handle g.kind g.operand)) s = v at *
  clear_value t
  have hentry : ∀ acc, v.entry l q acc = s.entry l q acc := fun acc => by rw [hframe]; rfl
  have hentries : ∀ acc, t.entry l q acc = (s.entry l q acc).map fun x => if x.acc == e.acc then { x with sigs := [] } else x :=
    fun acc => by
      rw [ht, State.entry_modEntry v l q e.acc acc (f := fun x => { x with sigs := [] }) fun _ => rfl, hentry]
  have hv : OnlyQueue s v l q := ⟨by rw [hframe], by rw [hframe]; rfl, fun k _ => by rw [hframe]; rfl⟩
  refine ⟨⟨hv.trans (ht ▸ onlyQueue_modEntry v l q e.acc _), fun acc y hy => ?_⟩, hentries, fun h => ?_, xs, ?_, hseq, hop⟩
  · rw [hentries, hy, Option.map_some]
    by_cases hacc : (y.acc == e.acc) = true
    · rw [if_pos hacc]
      exact ⟨_, rfl, rfl⟩
    · rw [if_neg hacc]
      exact ⟨_, rfl, rfl⟩
  · rw [ht, ← hempty h]
    rfl
  · rw [← hxs, ht]
    rfl

/-- Entries without signals leave the streams, and an entry that is not among them, as they were. -/
theorem foldl_joinEntry_idle {l : CoreId} {q acc : Nat} (ys : List QEntry) (s : State) (h : ∀ y ∈ ys, y.sigs = [] ∧ y.acc ≠ acc) :
    let t := ys.foldl (fun s e => s.joinEntry l q e) s
    Joins s t l q ∧ t.streams = s.streams ∧ t.entry l q acc = s.entry l q acc := by
  induction ys generalizing s with
  | nil => exact ⟨Joins.refl s l q, rfl, rfl⟩
  | cons y ys ih =>
    obtain ⟨hsigs, hacc⟩ := h y (List.mem_cons_self ..)
    obtain ⟨hjoin, hentry, hidle, -⟩ := s.joinEntry_spec l q y
    obtain ⟨hjoin', hstreams', hentry'⟩ := ih (s.joinEntry l q y) fun z hz => h z (List.mem_cons_of_mem _ hz)
    refine ⟨hjoin.trans hjoin', hstreams'.trans (hidle hsigs), ?_⟩
    rw [List.foldl_cons, hentry', hentry]
    cases hfind : s.entry l q acc with
    | none => rfl
    | some x =>
      have hx : x.acc = acc := State.acc_of_entry hfind
      rw [Option.map_some, if_neg (by rw [hx]; simpa using Ne.symm hacc)]

/-- Signals that join change the queue and the streams alone. -/
theorem State.joins_joinSignals (s : State) (l : CoreId) (q : Nat) : Joins s (s.joinSignals l q) l q :=
  foldl_keeps (fun t => Joins s t l q) _ (fun t e h => h.trans (t.joinEntry_spec l q e).1) _ s (Joins.refl s l q)

/-- An entry as its completion leaves it, with the signals `slots` to send. -/
def QEntry.completed (slots : List SigSlot) (e : QEntry) : QEntry :=
  { e with st := .complete, sigs := slots, unacked := slots.map (·.seq) }

section

variable {e : QEntry} {pre post : List QEntry} (hentries : (s.queue l q).entries = pre ++ e :: post)
  (hacc : ∀ y ∈ pre ++ post, y.acc ≠ e.acc)

include hentries hacc

/-- Behind earlier instructions that are complete and have sent their signals, an instruction's signals join the stream in order. -/
theorem State.joinSignals_first (he : e.st = .complete) (hpre : ∀ y ∈ pre, y.st = .complete ∧ y.sigs = [])
    (hpost : ∀ y, post.head? = some y → y.st ≠ .complete) :
    let t := s.joinSignals l q
    ∃ x gs, t.entry l q e.acc = some x ∧ x.sigs = [] ∧
      (t.stream (queueStream l q).toNat).unsent = (s.stream (queueStream l q).toNat).unsent ++ gs ∧
      gs.map (·.msg.seq) = e.sigs.map (·.seq) ∧ gs.map (·.msg.operand) = e.sigs.map (·.operand) := by
  intro t
  have hrest : post.takeWhile (fun y => y.st == .complete) = [] := by
    cases post with
    | nil => rfl
    | cons y ys => exact List.takeWhile_cons_of_neg (by simpa using hpost y rfl)
  have hlist : (s.queue l q).completed = pre ++ [e] := by
    rw [Queue.completed, hentries, List.takeWhile_append_of_pos (fun y hy => by simpa using (hpre y hy).1),
      List.takeWhile_cons_of_pos (by simpa using he), hrest]
  have ht : t = (pre.foldl (fun s e => s.joinEntry l q e) s).joinEntry l q e := by
    show s.joinSignals l q = _
    rw [State.joinSignals_eq, hlist, List.foldl_append]
    rfl
  obtain ⟨-, hstreams, hentry⟩ := foldl_joinEntry_idle (l := l) (q := q) (acc := e.acc) pre s fun y hy =>
    ⟨(hpre y hy).2, hacc y (List.mem_append_left _ hy)⟩
  generalize pre.foldl (fun s e => s.joinEntry l q e) s = v at *
  obtain ⟨-, hentry', -, xs, hxs, hseq, hop⟩ := v.joinEntry_spec l q e
  rw [ht]
  refine ⟨{ e with sigs := [] }, xs, ?_, rfl, ?_, hseq, hop⟩
  · rw [hentry', hentry, State.entry_of_entries hentries hacc, Option.map_some, if_pos (by simp)]
  · rw [hxs, State.stream, hstreams]
    rfl

/-- While an earlier instruction is not complete, an instruction's signals wait. -/
theorem State.joinSignals_waits (hpre : ∀ y ∈ pre, y.st = .complete → y.sigs = []) (hleft : ∃ y ∈ pre, y.st ≠ .complete) :
    let t := s.joinSignals l q
    t.streams = s.streams ∧ t.entry l q e.acc = some e := by
  intro t
  have hlist : (s.queue l q).completed = pre.takeWhile fun y => y.st == .complete := by
    rw [Queue.completed, hentries, List.takeWhile_append, if_neg]
    intro hlen
    have hall := List.takeWhile_eq_self_iff.1 ((List.takeWhile_prefix _).eq_of_length hlen)
    obtain ⟨y, hy, hne⟩ := hleft
    exact hne (by simpa using hall y hy)
  obtain ⟨-, hstreams, hentry⟩ := foldl_joinEntry_idle (l := l) (q := q) (acc := e.acc)
    (pre.takeWhile fun y => y.st == .complete) s fun y hy =>
      ⟨hpre y (List.takeWhile_subset _ hy) (by simpa using List.mem_takeWhile_imp hy),
        hacc y (List.mem_append_left _ (List.takeWhile_subset _ hy))⟩
  have ht : t = (pre.takeWhile fun y => y.st == .complete).foldl (fun s e => s.joinEntry l q e) s := by
    show s.joinSignals l q = _
    rw [State.joinSignals_eq, hlist]
  rw [ht]
  exact ⟨hstreams, hentry.trans (State.entry_of_entries hentries hacc)⟩

end

/-- A completion where nothing traces: the entry is complete, then signals join. -/
theorem State.completeEntry_eq {e : QEntry} (hmode : ∀ v, traceBit (s.mode 0 v).2 = false) (he : traceBit e.mode.2 = false) :
    s.completeEntry l q e [] = (s.modEntry l q e.acc (QEntry.completed e.desc.sigSlots)).joinSignals l q := by
  unfold State.completeEntry
  dsimp only
  rw [State.traceInstr_off (s := s.modEntry l q e.acc _) hmode he]
  rfl

/-! ### Starts (R81, R278) -/

/-- An entry as its start leaves it. -/
def QEntry.started (done : Bool) (base : List Nat) (e : QEntry) : QEntry := { e with st := .running, done := done, pushBase := base }

/-- A start where nothing traces: the entry runs, and its registrations are over. -/
theorem State.markStarted_eq {e : QEntry} (done : Bool) (hmode : ∀ v, traceBit (s.mode 0 v).2 = false)
    (he : traceBit e.mode.2 = false) :
    s.markStarted l q e done = (s.modEntry l q e.acc (QEntry.started done (if q = 2 then s.pushCounts l else []))).dropWaiter
      (entryWaiter l q e.acc) := by
  unfold State.markStarted State.traceStart
  dsimp only
  rw [State.traceInstr_off (s := s.modEntry l q e.acc _) hmode he]
  rfl

theorem State.core_dropWaiter (s : State) (w : Waiter) (k : Nat) : (s.dropWaiter w).core k = s.core k := by
  rw [State.dropWaiter_frame]
  rfl

/-- What a start leaves where nothing traces. -/
theorem State.markStarted_spec {e : QEntry} (done : Bool) (hmode : ∀ v, traceBit (s.mode 0 v).2 = false)
    (he : traceBit e.mode.2 = false) :
    let t := s.markStarted l q e done
    t = { s with cores := t.cores, counters := t.counters, retries := t.retries } ∧
      t.core l = { s.core l with queues := (t.core l).queues } ∧ (∀ k, k ≠ q → t.queue l k = s.queue l k) ∧
      (∀ pre post, (s.queue l q).entries = pre ++ e :: post → (∀ y ∈ pre ++ post, y.acc ≠ e.acc) →
        (t.queue l q).entries = pre ++ e.started done (if q = 2 then s.pushCounts l else []) :: post) ∧
      ∀ k, t.Free (entryWaiter l q e.acc) k := by
  intro t
  have ht : t = _ := State.markStarted_eq (l := l) (q := q) done hmode he
  clear_value t
  obtain ⟨hframe, hcore, hothers⟩ := onlyQueue_modEntry s l q e.acc (QEntry.started done (if q = 2 then s.pushCounts l else []))
  have hentries := fun pre post => s.entries_modEntry (l := l) (q := q) (e := e) (pre := pre) (post := post)
    (QEntry.started done (if q = 2 then s.pushCounts l else []))
  have hstreams : (s.modEntry l q e.acc (QEntry.started done (if q = 2 then s.pushCounts l else []))).streams = s.streams := rfl
  generalize s.modEntry l q e.acc (QEntry.started done (if q = 2 then s.pushCounts l else [])) = v at *
  have hcores : ∀ k, t.core k = v.core k := fun k => by rw [ht, State.core_dropWaiter]
  have hqueue : ∀ k, t.queue l k = v.queue l k := fun k => by rw [State.queue, hcores]; rfl
  refine ⟨?_, by rw [hcores, hcore], fun k hk => (hqueue k).trans (hothers k hk), fun pre post h h' => ?_, fun k => ?_⟩
  · rw [ht, State.dropWaiter_frame, hframe, hstreams]
  · rw [hqueue]
    exact hentries pre post h h'
  · rw [ht]
    exact v.dropWaiter_free _ k

theorem exec_instrStart {q : QSel} {e : QEntry} (hq : isQueue q.val = true) (hold : (s.queue l q).oldestPending = some e)
    (hvoid : e.void = false) (hstart : s.startInstr l q e = some t) : exec (.instrStart l q) s = .next t := by
  have hexec : exec (.instrStart l q) s = execInstrStart l q s := rfl
  rw [hexec, execInstrStart]
  simp only [hq, hold, hvoid, hstart, Bool.not_true, Bool.false_eq_true, if_false]

theorem State.startInstr_nop {e : QEntry} (hop : e.desc.opcode = 0) (hwaits : s.waitsMet l q e = true)
    (hstopped : s.engineStopped l q = false) (hfenced : s.fenced l = false)
    (hpaused : q = 2 → ∀ r ∈ (s.queue l 2).running, r.paused = false) :
    s.startInstr l q e = some ((s.markStarted l q e true).completeEntry l q e []) := by
  have hnone : (q == 2 && (s.queue l 2).running.any QEntry.paused) = false := by
    rw [Bool.and_eq_false_iff]
    by_cases hq : q = 2
    · exact .inr (List.any_eq_false.2 fun r hr => by rw [hpaused hq r hr]; simp)
    · exact .inl (by simpa using hq)
  unfold State.startInstr
  rw [if_pos hop, State.startNop, hwaits, hstopped, hfenced, hnone]
  rfl

theorem State.startInstr_dma {e : QEntry} (hop : e.desc.opcode ≠ 0) (hwaits : s.waitsMet l 2 e = true)
    (hstopped : s.engineStopped l 2 = false) (hfenced : s.fenced l = false) (hrun : (s.queue l 2).running = []) :
    s.startInstr l 2 e = some (s.markStarted l 2 e false) := by
  unfold State.startInstr
  rw [if_neg hop]
  show s.startDma l e = _
  rw [State.startDma, hwaits, hstopped, hfenced, hrun]
  rfl

/-! ### Completion (R88, R338) -/

/-- A running instruction whose work is done completes, as an entry of the same place, descriptor and mode. -/
theorem exec_instrComplete {q : QSel} {e : QEntry} (hentry : s.entry l q e.acc = some e) (hst : e.st = .running)
    (hvoid : e.void = false) (hdone : e.done = true) (hpaused : e.paused = false) (hremote : e.remoteWrites = 0) :
    ∃ e' : QEntry, e'.acc = e.acc ∧ e'.desc = e.desc ∧ e'.mode = e.mode ∧
      exec (.instrComplete l q e.acc) s = .next (s.completeEntry l q e' []) := by
  have hexec : exec (.instrComplete l q e.acc) s = execInstrComplete l q e.acc s := rfl
  rw [hexec, execInstrComplete, hentry]
  dsimp only
  rw [if_neg (by simp [hst, hvoid, hdone, hpaused, hremote])]
  split
  · exact ⟨{ e with wrote := e.desc.mmaM * e.desc.mmaN * outBytes e.desc.ofmt }, rfl, rfl, rfl, rfl⟩
  · exact ⟨e, rfl, rfl, rfl, rfl⟩

/-! ### Commit (R276, R337) -/

/-- The states differ in what a commit changes at most. -/
def OnlyCommit (s t : State) : Prop :=
  t = { s with cores := t.cores, opRecords := t.opRecords, deliveries := t.deliveries, remotes := t.remotes,
               streams := t.streams, regs := t.regs }

theorem OnlyCommit.trans (h : OnlyCommit s t) (k : OnlyCommit t u) : OnlyCommit s u := by
  unfold OnlyCommit at *
  rw [k, h]

/-- A stream with nothing away is released at its homes here alone. -/
theorem State.release_settled {st : W32} (seq : W32) (h : (s.stream st.toNat).away = []) :
    s.release st seq = { s with deliveries := (s.release st seq).deliveries, streams := (s.release st seq).streams } := by
  have haway : ((s.discardRecords none st seq).stream st.toNat).away = [] := h
  unfold State.release
  dsimp only
  rw [haway]
  rfl

/-- A matrix unit's flags merged at the commit of its instruction (R178). -/
def State.mergeFlags (s : State) (l : CoreId) (acc : Nat) : State :=
  (s.setMuFlags l (SMap.get 0 (s.core l).mu.pendFlags acc)).modMU l fun u => { u with pendFlags := SMap.set 0 u.pendFlags acc 0 }

theorem State.mergeFlags_spec (s : State) (l : CoreId) (acc : Nat) :
    let t := s.mergeFlags l acc
    t = { s with cores := t.cores, regs := t.regs } ∧ t.core l = { s.core l with mu := (t.core l).mu } ∧
      ∀ n i j, i < 4096 → j < 4096 → ¬(n = .CORE_FP_FLAGS ∧ i = s.physOf l) → t.reg n i j = s.reg n i j := by
  intro t
  have hset : ∃ w, s.setMuFlags l (SMap.get 0 (s.core l).mu.pendFlags acc) = s ∨
      s.setMuFlags l (SMap.get 0 (s.core l).mu.pendFlags acc) = s.setReg .CORE_FP_FLAGS (s.physOf l) 0 w := by
    unfold State.setMuFlags
    split
    · exact ⟨0, .inl rfl⟩
    · exact ⟨_, .inr rfl⟩
  have ht : t = (s.setMuFlags l (SMap.get 0 (s.core l).mu.pendFlags acc)).modMU l fun u =>
    { u with pendFlags := SMap.set 0 u.pendFlags acc 0 } := rfl
  clear_value t
  obtain ⟨w, hset | hset⟩ := hset
  · rw [hset] at ht
    subst ht
    refine ⟨rfl, ?_, fun _ _ _ _ _ _ => rfl⟩
    rw [State.modMU_eq, State.core_setCore_same]
  · rw [hset] at ht
    refine ⟨by rw [ht]; rfl, ?_, fun n i j hi hj hn => ?_⟩
    · rw [ht, State.modMU_eq, State.core_setCore_same]
      rfl
    · rw [ht]
      refine s.reg_setReg_other w (fun h => hn ?_) (s.physOf_lt l.isLt) (Nat.zero_lt_succ _) hi hj
      simp only [Prod.mk.injEq] at h
      exact ⟨h.1, h.2.1⟩

/-- The state that a commit leaves where nothing traces. -/
def State.committed (s : State) (l : CoreId) (q : QSel) (acc : Nat) : State :=
  let s := s.modQueue l q fun x => { x with entries := x.entries.filter fun y => y.acc != acc }
  let s := s.dropMarks (queueStream l q) acc
  let s := if q.val = 2 then s.dropAnswers l acc else s
  let s := s.release (queueStream l q) ((s.queue l q).committedSeq q)
  if q.val = 1 then s.mergeFlags l acc else s

theorem exec_instrCommit {q : QSel} {e : QEntry} (hentry : s.entry l q e.acc = some e) (hst : e.st = .complete)
    (hvoid : e.void = false) (hacked : e.unacked = []) (hremote : e.remoteWrites = 0) (hslot : e.slot = none) :
    exec (.instrCommit l q e.acc) s = .next ((s.committed l q e.acc).traceInstr l q e 3 0) := by
  have hexec : exec (.instrCommit l q e.acc) s = execInstrCommit l q e.acc s := rfl
  rw [hexec, execInstrCommit, hentry]
  dsimp only
  rw [hslot]
  dsimp only
  rw [if_neg (by simp [hst, hvoid, hacked, hremote])]
  rfl

theorem State.dropMarks_spec (s : State) (st : W32) (acc : Nat) :
    (s.dropMarks st acc) = { s with opRecords := (s.dropMarks st acc).opRecords } ∧
      ∀ h el wd, OpRecord.reduceMark h st acc el wd ∉ (s.dropMarks st acc).opRecords := by
  refine ⟨rfl, fun h el wd hmem => ?_⟩
  have := (List.mem_filter.1 hmem).2
  simp at this

theorem State.committed_spec (s : State) (l : CoreId) (q : QSel) (acc : Nat)
    (haway : (s.stream (queueStream l q).toNat).away = []) :
    let t := s.committed l q acc
    OnlyCommit s t ∧ (t.queue l q).entries = (s.queue l q).entries.filter (fun y => y.acc != acc) ∧
      (∀ h el wd, OpRecord.reduceMark h (queueStream l q) acc el wd ∉ t.opRecords) ∧ t.cc l = s.cc l ∧
      (q.val ≠ 2 → t.remotes = s.remotes) ∧
      ∀ n i j, i < 4096 → j < 4096 → ¬(q.val = 1 ∧ n = .CORE_FP_FLAGS ∧ i = s.physOf l) → t.reg n i j = s.reg n i j := by
  intro t
  obtain ⟨hframe1, hcore1, -⟩ := onlyQueue_modQueue s l q fun x => { x with entries := x.entries.filter fun y => y.acc != acc }
  have hentries : ((s.modQueue l q fun x => { x with entries := x.entries.filter fun y => y.acc != acc }).queue l q).entries =
      (s.queue l q).entries.filter fun y => y.acc != acc := by
    rw [State.queue_modQueue_same]
  have hstreams1 : (s.modQueue l q fun x => { x with entries := x.entries.filter fun y => y.acc != acc }).streams = s.streams := rfl
  have ht : t = s.committed l q acc := rfl
  unfold State.committed at ht
  generalize (s.modQueue l q fun x => { x with entries := x.entries.filter fun y => y.acc != acc }) = s1 at *
  dsimp only at ht
  obtain ⟨hframe2, hmarks⟩ := s1.dropMarks_spec (queueStream l q) acc
  generalize s1.dropMarks (queueStream l q) acc = s2 at *
  have h3 : ∃ s3, s3 = (if q.val = 2 then s2.dropAnswers l acc else s2) ∧ s3 = { s2 with remotes := s3.remotes } ∧
      (q.val ≠ 2 → s3.remotes = s2.remotes) := by
    refine ⟨_, rfl, ?_, fun hq => by rw [if_neg hq]⟩
    split <;> rfl
  obtain ⟨s3, hs3, hframe3, hremotes⟩ := h3
  rw [← hs3] at ht
  have haway3 : (s3.stream (queueStream l q).toNat).away = [] := by
    rw [State.stream, hframe3, hframe2, hstreams1]
    exact haway
  have hframe4 := State.release_settled ((s3.queue l q).committedSeq q) haway3
  generalize s3.release (queueStream l q) ((s3.queue l q).committedSeq q) = s4 at *
  have hcores : ∀ k, s4.core k = s1.core k := fun k => by rw [hframe4, hframe3, hframe2]; rfl
  have hmarks4 : ∀ h el wd, OpRecord.reduceMark h (queueStream l q) acc el wd ∉ s4.opRecords := by
    rw [hframe4, hframe3]
    exact hmarks
  have hcommit1 : OnlyCommit s s1 := by unfold OnlyCommit; rw [hframe1]
  have hcommit2 : OnlyCommit s1 s2 := by unfold OnlyCommit; rw [hframe2]
  have hcommit3 : OnlyCommit s2 s3 := by unfold OnlyCommit; rw [hframe3]
  have hcommit4 : OnlyCommit s s4 :=
    ((hcommit1.trans hcommit2).trans hcommit3).trans (by unfold OnlyCommit; rw [hframe4])
  have hremotes4 : q.val ≠ 2 → s4.remotes = s.remotes := fun hq => by
    rw [hframe4]
    have h2 : s2.remotes = s1.remotes := by rw [hframe2]
    have h1 : s1.remotes = s.remotes := by rw [hframe1]
    exact (hremotes hq).trans (h2.trans h1)
  have hregs4 : ∀ n i j, s4.reg n i j = s.reg n i j := fun n i j => by rw [hframe4, hframe3, hframe2, hframe1]; rfl
  have hslot4 : s4.slotOf l = s.slotOf l := congrArg (fun w => bitsOf w _ _) (hregs4 .CLU_CORE_MAP (l / 8) 0)
  have hphys4 : s4.physOf l = s.physOf l := by rw [State.physOf, hslot4]; rfl
  have hcc4 : s4.cc l = s.cc l := by rw [State.cc, hcores, hcore1]; rfl
  have hqueue4 : s4.queue l q = s1.queue l q := congrArg (fun c => c.queue q) (hcores l)
  rw [← hqueue4] at hentries
  clear hcores hframe1 hframe2 hframe3 hframe4 hstreams1 hqueue4 hmarks hremotes haway3 haway hcore1
  by_cases hmu : q.val = 1
  · rw [if_pos hmu] at ht
    obtain ⟨hframe5, hcore5, hregs5⟩ := s4.mergeFlags_spec l acc
    rw [← ht] at hframe5 hcore5 hregs5
    clear_value t
    have hqueue5 : t.queue l q = s4.queue l q := by rw [State.queue, hcore5]; rfl
    have hcc5 : t.cc l = s4.cc l := by rw [State.cc, hcore5]; rfl
    refine ⟨?_, by rw [hqueue5, hentries], ?_, hcc5.trans hcc4, fun hq => ?_, fun n i j hi hj hn => ?_⟩
    · exact hcommit4.trans (by unfold OnlyCommit; rw [hframe5])
    · rw [hframe5]
      exact hmarks4
    · rw [hframe5]
      exact hremotes4 hq
    · rw [hregs5 n i j hi hj fun h => hn ⟨hmu, h.1, h.2.trans hphys4⟩, hregs4]
  · rw [if_neg hmu] at ht
    rw [ht]
    exact ⟨hcommit4, hentries, hmarks4, hcc4, hremotes4, fun n i j _ _ _ => hregs4 n i j⟩

end Sys2Proof.Machine

open Sys2Proof Sys2Proof.Machine

/-- Settles O15: each command's equation, then what a start, a completion with its joining signals, and a commit leave. -/
theorem instructionsStartCompleteAndCommit : Obligations.InstructionsStartCompleteAndCommit := by
  unfold Obligations.InstructionsStartCompleteAndCommit
  intro s l q e pre post htraced hq hentries hacc hvoid
  have hentry := State.entry_of_entries hentries hacc
  obtain ⟨hmode, hmodes⟩ := htraced
  have he : traceBit e.mode.2 = false := hmodes l q e (by rw [hentries]; simp)
  refine ⟨fun hold hwaits hstopped hfenced => ⟨fun hop hpaused => ?nop, fun hop hdma hrun => ?dma⟩,
    fun hst hdone hpaused hremote hpre hpost => ?complete, fun hst hacked hremote hslot haway => ?commit⟩
  case nop =>
    obtain ⟨hframe, hcore, hothers, hplaced, -⟩ := s.markStarted_spec (l := l) (q := q.val) true hmode he
    have hexec := exec_instrStart hq hold hvoid (State.startInstr_nop hop hwaits hstopped hfenced hpaused)
    have hplaced := hplaced pre post hentries hacc
    generalize s.markStarted l q e true = v at *
    have hvmode : ∀ u, traceBit (v.mode 0 u).2 = false := fun u => by rw [hframe]; exact hmode u
    rw [State.completeEntry_eq hvmode he] at hexec
    have hv : v.entry l q e.acc = some (e.started true _) := State.entry_of_entries hplaced hacc
    have hw := State.entry_modEntry_same (f := QEntry.completed e.desc.sigSlots) (fun _ => rfl) hv
    have honly := onlyQueue_modEntry v l q e.acc (QEntry.completed e.desc.sigSlots)
    have hjoin := (v.modEntry l q e.acc (QEntry.completed e.desc.sigSlots)).joins_joinSignals l q
    obtain ⟨x, hx, hxe⟩ := hjoin.entry _ _ hw
    have hall := honly.trans hjoin.only
    generalize (v.modEntry l q e.acc (QEntry.completed e.desc.sigSlots)).joinSignals l q = t at *
    have hvbytes : SameBytes s v := sameBytes_of_eq (t := v) (by rw [hframe]) (by rw [hframe])
    refine ⟨t, x, hexec, hx, by rw [hxe]; rfl, by rw [hxe]; rfl, by rw [hxe]; rfl, by rw [hall.frame, hframe],
      hvbytes.trans hall.sameBytes, ?_, fun k hk => (hall.others k hk).trans (hothers k hk)⟩
    rw [hall.cc, State.cc, hcore]
    rfl
  case dma =>
    obtain ⟨hframe, hcore, hothers, hplaced, hfree⟩ := s.markStarted_spec (l := l) (q := q.val) false hmode he
    have hstart : s.startInstr l q e = some (s.markStarted l q e false) := by
      rw [hdma] at hwaits hstopped ⊢
      exact State.startInstr_dma hop hwaits hstopped hfenced hrun
    have hexec := exec_instrStart hq hold hvoid hstart
    have hplaced := hplaced pre post hentries hacc
    rw [if_pos hdma] at hplaced
    generalize s.markStarted l q e false = t at *
    have ht : t.entry l q e.acc = some (e.started false (s.pushCounts l)) := State.entry_of_entries hplaced hacc
    refine ⟨t, _, hexec, ht, rfl, rfl, rfl, rfl, hframe, sameBytes_of_eq (t := t) (by rw [hframe]) (by rw [hframe]), ?_,
      fun k w hw => hfree k w hw, hothers⟩
    rw [State.cc, hcore]
    rfl
  case complete =>
    obtain ⟨e', hacc', hdesc', hmode', hexec⟩ := exec_instrComplete hentry hst hvoid hdone hpaused hremote
    rw [State.completeEntry_eq hmode (hmode' ▸ he), hacc', hdesc'] at hexec
    have honly := onlyQueue_modEntry s l q e.acc (QEntry.completed e.desc.sigSlots)
    have hplaced := s.entries_modEntry (QEntry.completed e.desc.sigSlots) hentries hacc
    have hstreams : (s.modEntry l q e.acc (QEntry.completed e.desc.sigSlots)).streams = s.streams := rfl
    generalize s.modEntry l q e.acc (QEntry.completed e.desc.sigSlots) = v at *
    have hv : v.entry l q e.acc = some (e.completed e.desc.sigSlots) := State.entry_of_entries hplaced hacc
    have hjoin := v.joins_joinSignals l q
    obtain ⟨x, hx, hxe⟩ := hjoin.entry _ _ hv
    have hall := honly.trans hjoin.only
    have hfirst := State.joinSignals_first hplaced hacc rfl
    have hwait := State.joinSignals_waits hplaced hacc hpre
    generalize v.joinSignals l q = t at *
    refine ⟨t, x, hexec, hx, by rw [hxe]; rfl, by rw [hxe]; rfl, by rw [hxe]; rfl, hall.frame, hall.sameBytes, hall.cc,
      fun hdone => ?_, fun hleft => ?_⟩
    · obtain ⟨y, gs, hy, hnone, hgs, hseq, hop⟩ := hfirst (fun y hy => ⟨hdone y hy, hpre y hy (hdone y hy)⟩) hpost
      refine ⟨gs, ?_, hseq, hop, ?_⟩
      · rw [hgs, State.stream, hstreams]
        rfl
      · rw [Option.some.inj (hx.symm.trans hy), hnone]
    · obtain ⟨hsame, hy⟩ := hwait hleft
      exact ⟨hsame.trans hstreams, by rw [Option.some.inj (hx.symm.trans hy)]; rfl⟩
  case commit =>
    obtain ⟨hcommit, hgone, hmarks, hcc, hremotes, hregs⟩ := s.committed_spec l q e.acc haway
    have hexec := exec_instrCommit hentry hst hvoid hacked hremote hslot
    generalize s.committed l q e.acc = t at *
    have htmode : ∀ u, traceBit (t.mode 0 u).2 = false := fun u => by rw [hcommit]; exact hmode u
    rw [State.traceInstr_off htmode he] at hexec
    have hleft : (s.queue l q).entries.filter (fun y => y.acc != e.acc) = pre ++ post := by
      have hkeep : ∀ ys : List QEntry, (∀ y ∈ ys, y.acc ≠ e.acc) → ys.filter (fun y => y.acc != e.acc) = ys := fun ys hys =>
        List.filter_eq_self.2 fun y hy => by simpa using hys y hy
      rw [hentries, List.filter_append, List.filter_cons_of_neg (by simp),
        hkeep pre fun y hy => hacc y (List.mem_append_left _ hy), hkeep post fun y hy => hacc y (List.mem_append_right _ hy)]
    rw [hleft] at hgone
    refine ⟨t, hexec, ?_, hgone, hmarks, hcommit, sameBytes_of_eq (t := t) (by rw [hcommit]) (by rw [hcommit]), hcc, hremotes, hregs⟩
    rw [State.entry, Queue.find, hgone, List.find?_eq_none]
    intro y hy
    simpa using hacc y hy
end

section
/-!
Counter waits, signals and MU pushes of a group (R93, R115, R116, R154 to R156, R275).
-/

namespace Sys2Proof.Machine

open Sys2Proof

variable {s t u : State} {l : CoreId} {gi : GroupId} {w : TWord} {g : Group} {b : Block}

/-! ### Fault records of a vector engine (R125) -/

/-- The states differ in what a record of a fault changes at most: registers, the ash log, and the interrupt that tells of it. -/
def OnlyRecords (s t : State) : Prop :=
  t = { s with regs := t.regs, freeCtr := t.freeCtr, sto := t.sto, msixPend := t.msixPend, hostLink := t.hostLink, out := t.out }

theorem OnlyRecords.refl (s : State) : OnlyRecords s s := rfl
theorem OnlyRecords.trans (h : OnlyRecords s t) (k : OnlyRecords t u) : OnlyRecords s u := by
  unfold OnlyRecords at *
  rw [k, h]

theorem OnlyRegs.onlyRecords (h : OnlyRegs s t) : OnlyRecords s t := by unfold OnlyRecords; rw [h]

theorem State.onlyRecords_ashOpen (s : State) (src : W32) (part lcore : Nat) (span : W32) (detail : Nat) :
    OnlyRecords s (s.ashOpen src part lcore span detail) := by
  refine OnlyRecords.trans (t := s.nextFree.nextFree) rfl ?_
  have h := State.ashNow_frame s.nextFree.nextFree src (Config.freeNat s.freeCtr % 2 ^ 16) (Config.freeNat (s.freeCtr + 1) % 4) part 0
    lcore span 0 0 detail
  unfold OnlyRecords State.ashOpen
  rw [h]

theorem State.onlyRecords_msixVf (s : State) (p vec : Nat) : OnlyRecords s (s.msixVf p vec) := by
  unfold OnlyRecords
  rw [State.msixVf_frame]

theorem State.onlyRecords_recordVeFault (s : State) (l slot group lane code addr : Nat) (span : W32) :
    OnlyRecords s (s.recordVeFault l slot group lane code addr span) := by
  unfold State.recordVeFault
  dsimp only
  generalize hv : (if (s.reg .CORE_VE_FAULT (s.physOf l)).getLsbD 31 = true then (_ : State) else _) = v
  have hrecord : OnlyRecords s v := by
    subst hv
    split
    · exact OnlyRegs.onlyRecords (onlyRegs_setReg ..)
    · exact OnlyRegs.onlyRecords (((onlyRegs_setReg ..).trans (onlyRegs_setReg ..)).trans (onlyRegs_setReg ..))
  split
  · exact (hrecord.trans (State.onlyRecords_ashOpen ..)).trans (State.onlyRecords_msixVf ..)
  · exact hrecord.trans (State.onlyRecords_ashOpen ..)

/-- A group fault halts the group. -/
theorem State.halts_groupFault (s : State) (l gi : Nat) (g : Group) (b : Block) (code lane addr : Nat) :
    Halts s (s.groupFault l gi g b code lane addr) l gi g code := by
  unfold State.groupFault
  obtain ⟨⟨-, hcores, hbytes⟩, -, hgroups⟩ := onlyGroup_setGroup s l gi (some { g with status := .halted code, fills := [] })
  have hgroup := s.group_setGroup_same l gi (some { g with status := .halted code, fills := [] })
  generalize s.setGroup l gi (some { g with status := .halted code, fills := [] }) = v at *
  have hrec := v.onlyRecords_recordVeFault l b.slot gi lane code addr b.span
  generalize v.recordVeFault l b.slot gi lane code addr b.span = t at *
  have hcore : ∀ k, t.core k = v.core k := fun k => by rw [hrec]; rfl
  have hsame : ∀ k, t.group l k = v.group l k := fun k => by rw [State.group, hcore]; rfl
  exact ⟨hbytes.trans (sameBytes_of_eq (t := t) (by rw [hrec]) (by rw [hrec])), (hsame gi).trans hgroup,
    fun k hk => (hsame k).trans (hgroups k hk), fun k hk => (hcore k).trans (hcores k hk)⟩

/-! ### The issue of a group's word (R128, R346) -/

/-- What a group's instruction finds once its issue is counted: all as before, but the work that its engine counts. -/
structure Issued (s t : State) (l : Nat) : Prop where
  frame : t = { s with cores := t.cores }
  others : ∀ k, k ≠ l → t.core k = s.core k
  core : t.core l = { s.core l with nominal := (t.core l).nominal }

theorem State.issued_countIssue (s : State) (l : Nat) (g : Group) : Issued s (s.countIssue l g) l :=
  ⟨(s.countIssue_frame l g).1, (s.countIssue_frame l g).2.1, (s.countIssue_frame l g).2.2⟩

theorem Issued.sameBytes {l : Nat} (h : Issued s t l) : SameBytes s t := sameBytes_of_eq (t := t) (by rw [h.frame]) (by rw [h.frame])
theorem Issued.ve {l : Nat} (h : Issued s t l) : (t.core l).ve = (s.core l).ve := by rw [h.core]
theorem Issued.cc {l : Nat} (h : Issued s t l) : t.cc l = s.cc l := by rw [State.cc, h.core]; rfl
theorem Issued.group {l : Nat} (h : Issued s t l) (k : Nat) : t.group l k = s.group l k := by rw [State.group, h.ve]; rfl
theorem Issued.onlyCore {l : Nat} (h : Issued s t l) : OnlyCore s t l := ⟨h.frame, h.others, h.sameBytes⟩

theorem Halts.ofIssue {l gi code : Nat} (h : Halts t u l gi g code) (k : Issued s t l) : Halts s u l gi g code := by
  obtain ⟨hbytes, hgroup, hgroups, hcores⟩ := h
  exact ⟨k.sameBytes.trans hbytes, hgroup, fun j hj => (hgroups j hj).trans (k.group j), fun j hj => (hcores j hj).trans (k.others j hj)⟩

/-! ### Counter waits of groups (R115, R154) -/

/-- A group that goes on with the value observed. -/
def Group.woken (g : Group) (dst : Option Nat) (v : W64) : Group :=
  match dst with
  | some r => ({ g with status := .ready } : Group).putU r v
  | none => { g with status := .ready }

theorem Group.putU_frame (g : Group) (r : Nat) (x : W64) : g.putU r x = { g with u := (g.putU r x).u } := by
  unfold Group.putU
  split <;> rfl

/-- The uniform registers of a group that goes on. -/
theorem Group.woken_spec (g : Group) (dst : Option Nat) (v : W64) :
    g.woken dst v = { g with u := (g.woken dst v).u, status := .ready } ∧
      ∀ r, r < 255 → (g.woken dst v).ureg r = if some r = dst then v else g.ureg r := by
  cases dst with
  | none => exact ⟨rfl, fun r _ => rfl⟩
  | some d =>
    refine ⟨Group.putU_frame _ d v, fun r hr => ?_⟩
    rw [Group.woken, Group.ureg_putU _ _ _ _ hr]
    simp only [Option.some.injEq]
    rfl

theorem State.groupWake_eq {l gi : Nat} (h : s.group l gi = some g) (dst : Option Nat) (inval : Bool) (v : W64) :
    s.groupWake l gi dst inval v =
      if inval then (s.setGroup l gi (some (g.woken dst v))).modVE l fun x => { x with l1 := [] }
      else s.setGroup l gi (some (g.woken dst v)) := by
  unfold State.groupWake State.modGroup
  rw [h]
  cases dst <;> rfl

/-- What a wake leaves. -/
theorem State.groupWake_spec {l gi : Nat} (h : s.group l gi = some g) (dst : Option Nat) (inval : Bool) (v : W64) :
    let t := s.groupWake l gi dst inval v
    OnlyCore s t l ∧ t.group l gi = some (g.woken dst v) ∧ (∀ k, k ≠ gi → t.group l k = s.group l k) ∧
      (t.core l).ve.l1 = if inval then [] else (s.core l).ve.l1 := by
  intro t
  have ht : t = _ := State.groupWake_eq h dst inval v
  clear_value t
  obtain ⟨hcore, hl, hgroups⟩ := onlyGroup_setGroup s l gi (some (g.woken dst v))
  have hgroup := s.group_setGroup_same l gi (some (g.woken dst v))
  generalize s.setGroup l gi (some (g.woken dst v)) = y at *
  have hl1 : (y.core l).ve.l1 = (s.core l).ve.l1 := by rw [hl]
  cases inval with
  | false =>
    rw [if_neg (by simp)] at ht
    subst ht
    exact ⟨hcore, hgroup, hgroups, hl1⟩
  | true =>
    rw [if_pos rfl] at ht
    subst ht
    have hve : ((y.modVE l fun x => { x with l1 := [] }).core l).ve = { (y.core l).ve with l1 := [] } := by
      rw [State.modVE_eq, State.core_setCore_same]
    have hsame : ∀ k, (y.modVE l fun x => { x with l1 := [] }).group l k = y.group l k := fun k => by
      rw [State.group, hve]
      rfl
    refine ⟨hcore.trans ⟨rfl, fun k hk => State.core_setCore_other _ _ hk, sameBytes_of_eq rfl rfl⟩, (hsame gi).trans hgroup,
      fun k hk => (hsame k).trans (hgroups k hk), by rw [hve]; rfl⟩

theorem State.traceWait_group_off (s : State) (l : CoreId) (v : W64) (h : traceBit (s.mode 0 (.ve l)).2 = false) :
    s.traceWait l true v = s := by
  simp only [State.traceWait, State.traceUnit, if_true, h]
  split <;> rfl

/-- What a counter wait and a signal of a group read of the machine, before its issue is counted and after. -/
theorem Issued.coreHandle {l : Nat} (h : Issued s t l) (k : Nat) : t.coreHandle l k = s.coreHandle l k := by rw [h.frame]; rfl
theorem Issued.waitMet {l : Nat} (h : Issued s t l) (who : Waiter) (k : Nat) (x : W64) : t.waitMet who k x = s.waitMet who k x := by
  rw [h.frame]; rfl
theorem Issued.value {l : Nat} (h : Issued s t l) (k : Nat) : t.value k = s.value k := by rw [h.frame]; rfl

/-- The destination that a word names for a value observed. -/
def uniformDst (w : TWord) : Option Nat := if w.ud then some w.dst.toNat else none

theorem some_eq_uniformDst (w : TWord) (r : Nat) : some r = uniformDst w ↔ w.ud = true ∧ r = w.dst.toNat := by
  unfold uniformDst
  cases w.ud <;> simp

section

variable {h : Nat} {x : W64} (hrun : Runs s 0x240 l gi w g b) (hact : w.acting g ≠ [])
  (hh : (w.valA g true 0).toNat % 2 ^ 24 = h) (hx : w.valB g true 0 = x)

include hrun hact hh hx

theorem exec_groupCwait :
    exec (.groupCwait l gi w) s =
      if !s.coreHandle l h then .next ((s.countIssue l g).groupFault l gi g b 1 0 h)
      else if s.waitMet (.group l gi) (counterOf l h) x then
        .next ((((s.countIssue l g).finish l gi w g).groupWake l gi (uniformDst w) (w.opx.getLsbD 0) (s.value (counterOf l h))).traceWait
          l true (s.value (counterOf l h)))
      else
        .next ((((s.countIssue l g).finish l gi w g).setGroup l gi (some { g.advance w with
            status := .waiting (uniformDst w) (counterOf l h) x (w.opx.getLsbD 0) })).registerWait
          { who := .group l gi, expected := x } (counterOf l h)) := by
  have hexec : exec (.groupCwait l gi w) s = execGroupCwait l gi w s := rfl
  have hissue := s.issued_countIssue l g
  rw [hexec, execGroupCwait, s.threadIssue_runs _ hrun, if_neg (by simpa using hact)]
  dsimp only
  rw [hh, hx, hissue.coreHandle, hissue.waitMet, hissue.value]
  rfl

/-- A wait that is satisfied lets its group go on. -/
theorem groupCwait_met (hok : s.coreHandle l h = true) (hmet : s.waitMet (.group l gi) (counterOf l h) x = true)
    (htrace : traceBit (s.mode 0 (.ve l)).2 = false) :
    ∃ t, exec (.groupCwait l gi w) s = .next t ∧ OnlyCore s t l ∧
      t.group l gi = some ((g.advance w).woken (uniformDst w) (s.value (counterOf l h))) ∧
      (t.core l).ve.l1 = (if w.opx.getLsbD 0 then [] else (s.core l).ve.l1) ∧ ∀ j, j ≠ gi.val → t.group l j = s.group l j := by
  have hexec := exec_groupCwait hrun hact hh hx
  rw [hok, if_neg (by simp), if_pos hmet] at hexec
  have hissue := s.issued_countIssue l g
  generalize s.countIssue l g = v at *
  obtain ⟨hcore, hve, hgroups⟩ := v.onlyGroup_finish l gi w g
  have hgroup := v.finish_group l gi w g
  generalize v.finish l gi w g = y at *
  obtain ⟨honly, hwoken, hothers, hl1⟩ := State.groupWake_spec hgroup (uniformDst w) (w.opx.getLsbD 0) (s.value (counterOf l h))
  generalize y.groupWake l gi (uniformDst w) (w.opx.getLsbD 0) (s.value (counterOf l h)) = t at *
  have hall := (hissue.onlyCore.trans hcore).trans honly
  rw [State.traceWait_group_off t l _ (by rw [State.mode, hall.1]; exact htrace)] at hexec
  refine ⟨t, hexec, hall, hwoken, ?_, fun j hj => (hothers j hj).trans ((hgroups j hj).trans (hissue.group j))⟩
  have hy : (y.core l).ve.l1 = (s.core l).ve.l1 := by rw [hve, ← hissue.ve]
  rw [hl1, hy]

/-- A wait that is not satisfied registers at its home. -/
theorem groupCwait_unmet (hok : s.coreHandle l h = true) (hmet : s.waitMet (.group l gi) (counterOf l h) x = false)
    (howner : s.ownerElsewhere (counterOf l h) = none) (hroom : s.waitsAt (counterHome (counterOf l h)) < waitDepth) :
    ∃ t, exec (.groupCwait l gi w) s = .next t ∧ SameBytes s t ∧ SameRegs s t ∧
      t.group l gi = some { g with pc := g.pc + w.bytes, fills := [],
                                   status := .waiting (uniformDst w) (counterOf l h) x (w.opx.getLsbD 0) } ∧
      (∃ y ∈ (t.counter (counterOf l h)).waiters, y.who = .group l gi ∧ y.expected = x) ∧
      ∀ j, j ≠ gi.val → t.group l j = s.group l j := by
  have hexec := exec_groupCwait hrun hact hh hx
  rw [hok, if_neg (by simp), hmet, if_neg (by simp)] at hexec
  have hissue := s.issued_countIssue l g
  generalize s.countIssue l g = v at *
  obtain ⟨hcore, -, hgroups⟩ := v.onlyGroup_finish l gi w g
  generalize v.finish l gi w g = y at *
  have hset := onlyGroup_setGroup y l gi (some { g.advance w with
    status := .waiting (uniformDst w) (counterOf l h) x (w.opx.getLsbD 0) })
  have hgroup := y.group_setGroup_same l gi (some { g.advance w with
    status := .waiting (uniformDst w) (counterOf l h) x (w.opx.getLsbD 0) })
  generalize y.setGroup l gi (some { g.advance w with
    status := .waiting (uniformDst w) (counterOf l h) x (w.opx.getLsbD 0) }) = z at *
  have hall := (hissue.onlyCore.trans hcore).trans hset.1
  have hothers : ∀ j, j ≠ gi.val → z.group l j = s.group l j := fun j hj =>
    (hset.2.2 j hj).trans ((hgroups j hj).trans (hissue.group j))
  have hz : z.registerWait { who := .group l gi, expected := x } (counterOf l h) =
      z.addWaiter { who := .group l gi, expected := x } (counterOf l h) := by
    refine State.registerWait_room _ ?_ ?_
    · rw [hall.1]
      exact howner
    · rw [hall.1]
      exact hroom
  rw [hz] at hexec
  have hadd := z.addWaiter_frame { who := .group l gi, expected := x } (counterOf l h)
  have hmem := z.mem_addWaiter { who := .group l gi, expected := x } (counterOf l h)
  generalize z.addWaiter { who := .group l gi, expected := x } (counterOf l h) = t at *
  have hsame : ∀ j, t.group l j = z.group l j := fun j => by rw [hadd]; rfl
  refine ⟨t, hexec, hall.2.2.trans (sameBytes_of_eq (t := t) (by rw [hadd]) (by rw [hadd])), fun n i j => ?_,
    (hsame gi).trans hgroup, hmem, fun j hj => (hsame j).trans (hothers j hj)⟩
  rw [hadd, hall.1]
  rfl

end

/-! ### Signals of groups (R116, R155, R275) -/

theorem Issued.targetOk {l : Nat} (h : Issued s t l) (p kind k : Nat) : t.targetOk p kind k = s.targetOk p kind k := by
  rw [h.frame]; rfl
theorem Issued.partOf {l : Nat} (h : Issued s t l) (k : Nat) : t.partOf k = s.partOf k := by rw [h.frame]; rfl

/-- What a signal made ready bears. -/
theorem State.mkSig_spec (s : State) (l : Nat) (st seq : W32) (handle kind : Nat) (x : W64) :
    let sig := s.mkSig l st seq handle kind x
    sig.msg.operand = x ∧ sig.msg.seq = seq ∧ sig.msg.kind = kindOf kind := by
  unfold State.mkSig
  dsimp only
  split
  · next hk => exact ⟨rfl, rfl, by rw [hk]; rfl⟩
  · exact ⟨rfl, rfl, rfl⟩

/-- A group that has queued its next signal. -/
def Group.signals (g : Group) (w : TWord) : Group :=
  { (if w.ud then g.putU w.dst.toNat (BitVec.ofNat 64 g.csigN) else g).advance w with
    csigN := g.csigN + 1, status := .signalling (groupSeq g.gi g.csigN) }

theorem Group.signals_spec (g : Group) (w : TWord) :
    g.signals w = { g with u := (g.signals w).u, pc := g.pc + w.bytes, fills := [],
                           status := .signalling (groupSeq g.gi g.csigN), csigN := g.csigN + 1 } ∧
      ∀ r, r < 255 → (g.signals w).ureg r = if w.ud = true ∧ r = w.dst.toNat then BitVec.ofNat 64 g.csigN else g.ureg r := by
  have hu : (g.signals w).u = (if w.ud then g.putU w.dst.toNat (BitVec.ofNat 64 g.csigN) else g).u := rfl
  refine ⟨?_, fun r hr => ?_⟩
  · rw [hu]
    unfold Group.signals
    split
    · rw [Group.putU_frame]
      rfl
    · rfl
  · rw [Group.ureg, hu]
    cases w.ud with
    | false => simp only [Bool.false_eq_true, if_false, false_and]; rfl
    | true =>
      simp only [if_true, true_and]
      exact Group.ureg_putU g _ r _ hr

section

variable {h : Nat} {x : W64} (hrun : Runs s 0x241 l gi w g b) (hact : w.acting g ≠ [])
  (hh : (w.valA g true 0).toNat % 2 ^ 24 = h) (hx : w.valB g true 0 = x)

include hrun hact hh

theorem exec_groupCsig_fault {p : Nat} (hp : s.partOf l = some p) (hok : s.targetOk p (w.opxBits 1 0) h = false) :
    exec (.groupCsig l gi w) s = .next ((s.countIssue l g).groupFault l gi g b 1 0 h) := by
  have hexec : exec (.groupCsig l gi w) s = execGroupCsig l gi w s := rfl
  have hissue := s.issued_countIssue l g
  rw [hexec, execGroupCsig, s.threadIssue_runs _ hrun, if_neg (by simpa using hact)]
  dsimp only
  rw [hh, hissue.partOf, hp]
  simp only [hissue.targetOk, hok]
  rfl

include hx

theorem exec_groupCsig_good {p : Nat} (hp : s.partOf l = some p) (hok : s.targetOk p (w.opxBits 1 0) h = true)
    (hn : g.csigN < 2 ^ 27) :
    exec (.groupCsig l gi w) s =
      .next (((s.countIssue l g).setGroup l gi (some (g.signals w))).queueSignal (blockStream b.core b.gen g.block)
        ((s.countIssue l g).mkSig l (blockStream b.core b.gen g.block) (groupSeq g.gi g.csigN) h (w.opxBits 1 0) x)) := by
  have hexec : exec (.groupCsig l gi w) s = execGroupCsig l gi w s := rfl
  have hissue := s.issued_countIssue l g
  rw [hexec, execGroupCsig, s.threadIssue_runs _ hrun, if_neg (by simpa using hact)]
  dsimp only
  rw [hh, hx, hissue.partOf, hp]
  have hfew : decide (csigBits ≤ g.csigN) = false := decide_eq_false (by unfold csigBits; omega)
  simp only [hissue.targetOk, hok, hfew]
  rfl

/-- A signal of a group joins its block's stream. -/
theorem groupCsig_queues {p : Nat} (hp : s.partOf l = some p) (hok : s.targetOk p (w.opxBits 1 0) h = true)
    (hn : g.csigN < 2 ^ 27) :
    ∃ t sig, exec (.groupCsig l gi w) s = .next t ∧ t.group l gi = some (g.signals w) ∧
      (t.stream (blockStream b.core b.gen g.block).toNat).unsent =
        (s.stream (blockStream b.core b.gen g.block).toNat).unsent ++ [sig] ∧
      sig.msg.operand = x ∧ sig.msg.seq = groupSeq g.gi g.csigN ∧ sig.msg.kind = kindOf (w.opxBits 1 0) ∧
      t = { s with cores := t.cores, streams := t.streams } ∧ SameBytes s t ∧ ∀ j, j ≠ gi.val → t.group l j = s.group l j := by
  have hexec := exec_groupCsig_good hrun hact hh hx hp hok hn
  obtain ⟨hop, hseq, hkind⟩ := (s.countIssue l g).mkSig_spec l (blockStream b.core b.gen g.block) (groupSeq g.gi g.csigN) h
    (w.opxBits 1 0) x
  generalize (s.countIssue l g).mkSig l (blockStream b.core b.gen g.block) (groupSeq g.gi g.csigN) h (w.opxBits 1 0) x = sig at *
  have hissue := s.issued_countIssue l g
  generalize s.countIssue l g = v at *
  obtain ⟨hcore, -, hgroups⟩ := onlyGroup_setGroup v l gi (some (g.signals w))
  have hgroup := v.group_setGroup_same l gi (some (g.signals w))
  generalize v.setGroup l gi (some (g.signals w)) = y at *
  have hall := hissue.onlyCore.trans hcore
  refine ⟨_, sig, hexec, hgroup, ?_, hop, hseq, hkind, ?_, hall.2.2.trans (sameBytes_of_eq rfl rfl), fun j hj =>
    (hgroups j hj).trans (hissue.group j)⟩
  · rw [State.queueSignal, State.stream_setStream_same, hall.1]
    rfl
  · rw [State.queueSignal, hall.1]
    rfl

end

/-! ### MU pushes of groups (R156) -/

/-- An MQPUSH stalls its group. -/
theorem mqpush_stalls (hrun : Runs s 0x280 l gi w g b) (hact : w.acting g ≠ []) :
    ∃ t, exec (.mqpush l gi w) s = .next t ∧ SameBytes s t ∧ t = { s with cores := t.cores, clusters := t.clusters } ∧
      (∀ k, k ≠ l.val → t.core k = s.core k) ∧ t.cc l = s.cc l ∧ (∀ j, j ≠ gi.val → t.group l j = s.group l j) ∧
      t.group l gi = some { g with status := .mqStall w.srcA.toNat (uniformDst w) } := by
  have hexec : exec (.mqpush l gi w) s = .next ((((s.countIssue l g).tidyRecords (l / 8)).setGroup l gi (some { g with
      status := .mqStall w.srcA.toNat (uniformDst w) })).askRecord l) := by
    have h : exec (.mqpush l gi w) s = execMqpush l gi w s := rfl
    rw [h, execMqpush, s.threadIssue_runs _ hrun, if_neg (by simpa using hact)]
    rfl
  have hissue := s.issued_countIssue l g
  generalize s.countIssue l g = v at *
  obtain ⟨htidy, -⟩ := v.onlyAsks_tidyRecords (l / 8)
  generalize v.tidyRecords (l / 8) = y at *
  obtain ⟨⟨hset, hcores, hbytes⟩, hl, hgroups⟩ := onlyGroup_setGroup y l gi (some { g with
    status := .mqStall w.srcA.toNat (uniformDst w) })
  have hgroup := y.group_setGroup_same l gi (some { g with status := .mqStall w.srcA.toNat (uniformDst w) })
  generalize y.setGroup l gi (some { g with status := .mqStall w.srcA.toNat (uniformDst w) }) = z at *
  obtain ⟨hask, -⟩ := z.onlyAsks_askRecord l
  generalize z.askRecord l = t at *
  have hzt : ∀ k, t.core k = z.core k := fun k => by rw [hask]; rfl
  have hyv : ∀ k, y.core k = v.core k := fun k => by rw [htidy]; rfl
  have hcc : z.cc l = y.cc l := by rw [State.cc, hl]; rfl
  refine ⟨t, hexec, ?_, ?_, fun k hk => ?_, ?_, fun j hj => ?_, ?_⟩
  · exact ((hissue.sameBytes.trans (sameBytes_of_eq (t := y) (by rw [htidy]) (by rw [htidy]))).trans hbytes).trans
      (sameBytes_of_eq (t := t) (by rw [hask]) (by rw [hask]))
  · rw [hask, hset, htidy, hissue.frame]
  · rw [hzt, hcores k hk, hyv, hissue.others k hk]
  · rw [State.cc, hzt, ← State.cc, hcc, State.cc, hyv]
    exact hissue.cc
  · rw [State.group, hzt, ← State.group, hgroups j hj, State.group, hyv]
    exact hissue.group j
  · rw [State.group, hzt]
    exact hgroup

/-! ### SIGNAL_SEND for a group (R116, R275) -/

/-- What the number of a block's stream says. -/
theorem bits_blockStream (l : CoreId) (gen : Nat) {r : Nat} (hr : r < 256) :
    streamCore (blockStream l gen r) = l ∧ bitsOf (blockStream l gen r) 7 0 = r ∧ (blockStream l gen r).getLsbD 31 = true := by
  have hl := l.isLt
  have hnat : (blockStream l gen r).toNat = 2 ^ 31 + l.val * 2 ^ 16 + gen % 256 * 256 + r := by
    rw [blockStream, BitVec.toNat_ofNat, Nat.mod_eq_of_lt (by omega)]
  refine ⟨Fin.ext ?_, ?_, ?_⟩
  · simp only [streamCore, bitsOf, hnat, Fin.ofNat, Nat.shiftRight_eq_div_pow]
    omega
  · simp only [bitsOf, hnat, Nat.shiftRight_eq_div_pow]
    omega
  · rw [BitVec.getLsbD, hnat, Nat.testBit_eq_decide_div_mod_eq, decide_eq_true_eq]
    omega

/-- A lookup in a list whose values are mapped. -/
theorem SMap.get_map_values {α : Type} (d : α) (f : α → α) (hd : f d = d) (m : SMap α) (k : Nat) :
    SMap.get d (m.map fun e => (e.1, f e.2)) k = f (SMap.get d m k) := by
  induction m with
  | nil => exact hd.symm
  | cons e m ih =>
    simp only [List.map_cons, SMap.get]
    split
    · rfl
    · exact ih

/-- A group once a signal `seq` of block `r` has left. -/
def Group.signalled (r : Nat) (seq : W32) (g : Group) : Group :=
  if g.block = r ∧ g.status = .signalling seq then { g with status := .ready } else g

theorem State.signalled_spec (s : State) (l : CoreId) (gen : Nat) {r : Nat} (hr : r < 256) (seq : W32) :
    let t := s.signalled (blockStream l gen r) seq
    t = { s with cores := t.cores } ∧ ∀ k, t.group l k = (s.group l k).map (Group.signalled r seq) := by
  obtain ⟨hcore, hblock, hbit⟩ := bits_blockStream l gen hr
  have heq : s.signalled (blockStream l gen r) seq = s.modVE l fun v =>
      { v with groups := v.groups.map fun e => (e.1, e.2.map (Group.signalled r seq)) } := by
    rw [State.signalled, hcore, hblock, hbit]
    rfl
  intro t
  have ht : t = _ := heq
  clear_value t
  subst ht
  refine ⟨rfl, fun k => ?_⟩
  rw [State.group, State.modVE_eq, State.core_setCore_same]
  exact SMap.get_map_values none (Option.map (Group.signalled r seq)) rfl _ k

theorem exec_signalSend_queued {st : W32} {x sig : Sig} {rest : List Sig} (hunsent : (s.stream st.toNat).unsent = x :: rest)
    (hsig : s.stamped st x = sig) (hready : s.sourceReady st sig.msg.seq sig.msg.system = true)
    (hfollow : s.mayFollow (s.stream st.toNat) sig = true) :
    exec (.signalSend st) s =
      .next (((s.setStream st.toNat { s.stream st.toNat with unsent := rest }).sendSignal st sig).signalled st sig.msg.seq) := by
  have hexec : exec (.signalSend st) s = execSignalSend st s := rfl
  simp [hexec, execSignalSend, hunsent, hsig, hready, hfollow]

/-- A signal that leaves for a home of this module is on its way. -/
theorem State.sendSignal_here (s : State) (st : W32) {sig : Sig} (hhome : homeModule sig.home = none) :
    let t := s.sendSignal st sig
    t = { s with streams := t.streams } ∧ (t.stream st.toNat).unsent = (s.stream st.toNat).unsent ∧
      sig ∈ (t.stream st.toNat).sent := by
  intro t
  have ht : t = s.setStream st.toNat { s.stream st.toNat with
      sent := if (s.stream st.toNat).sent.contains sig then (s.stream st.toNat).sent else (s.stream st.toNat).sent ++ [sig] } := by
    show s.sendSignal st sig = _
    simp only [State.sendSignal, hhome, SStream.note_here _ hhome]
  rw [ht, State.stream_setStream_same]
  refine ⟨rfl, rfl, ?_⟩
  show sig ∈ if (s.stream st.toNat).sent.contains sig then _ else _
  split
  · next hmem => simpa using hmem
  · simp

/-! ### MQPUSH_ADMISSION (R93, R156) -/

theorem exec_mqpushAdmission {src : Nat} {dst : Option Nat} (hg : s.group l gi = some g)
    (hb : s.block (l / 8) g.block = some b) (hst : g.status = .mqStall src dst) (hstopped : (s.core l).ve.stopped = false)
    (hfenced : s.fenced l = false) (hcan : s.canAccept l 1 = true) :
    exec (.mqpushAdmission l gi) s =
      match s.offerDesc l 1 (s.mode 0 (.cc l)) (groupDesc g src) with
      | .accepted n s' =>
        .next (s'.setGroup l gi (some (({ g with pc := g.pc + 8 } : Group).woken dst (BitVec.ofNat 64 n))))
      | .failed f s' => .next (((s'.recordAdmission l 1 gi 1 f g.pc).setMip l 16 true).groupFault l gi g b 7 0 g.pc) := by
  have hexec : exec (.mqpushAdmission l gi) s = execMqpushAdmission l gi s := rfl
  rw [hexec, execMqpushAdmission, hg]
  dsimp only
  rw [hst, hb]
  dsimp only
  rw [hstopped, hfenced, hcan]
  generalize s.offerDesc l 1 (s.mode 0 (.cc l)) (groupDesc g src) = r
  cases r with
  | accepted n v => cases dst <;> rfl
  | failed f v => rfl

/-- An interrupt made pending. -/
theorem State.mip_setMip (s : State) (l bit : Nat) (hbit : bit < 64) :
    OnlyCC s (s.setMip l bit true) l ∧ (((s.setMip l bit true).cc l).csr csrMip).getLsbD bit = true := by
  refine ⟨onlyCC_modCC s l _, ?_⟩
  rw [State.setMip, State.cc_modCC_same, CC.csr, CC.setCsr, SMap.get_set_same, getLsbD_putBit _ _ _ _ hbit hbit]
  simp

/-- A group fault leaves the control core and the queues. -/
theorem State.groupFault_rest (s : State) (l gi : Nat) (g : Group) (b : Block) (code lane addr : Nat) :
    let t := s.groupFault l gi g b code lane addr
    t.cc l = s.cc l ∧ ∀ q, t.queue l q = s.queue l q := by
  intro t
  have ht : t = s.groupFault l gi g b code lane addr := rfl
  unfold State.groupFault at ht
  obtain ⟨-, hcore, -⟩ := onlyGroup_setGroup s l gi (some { g with status := .halted code, fills := [] })
  generalize s.setGroup l gi (some { g with status := .halted code, fills := [] }) = v at *
  have hrec := v.onlyRecords_recordVeFault l b.slot gi lane code addr b.span
  rw [← ht] at hrec
  clear_value t
  have htv : t.core l = v.core l := by rw [hrec]; rfl
  refine ⟨?_, fun q => ?_⟩
  · rw [State.cc, htv, hcore]
    rfl
  · rw [State.queue, htv, hcore]
    rfl

end Sys2Proof.Machine

open Sys2Proof Sys2Proof.Machine

/-- Settles O34: a clause per word, the signal that leaves, and an admission by what `checked` found. -/
theorem waitsSignalsAndPushesOfGroups : Obligations.WaitsSignalsAndPushesOfGroups := by
  unfold Obligations.WaitsSignalsAndPushesOfGroups
  refine ⟨fun s l gi w g b h x hact hh hx =>
      ⟨fun hrun => ⟨fun hbad => ?waitFault, fun hok hmet htrace => ?met, fun hok hmet howner hroom => ?unmet⟩,
        fun hrun => ⟨fun p hp hbad => ?signalFault, fun p hp hok hn => ?signal⟩, fun hrun => mqpush_stalls hrun hact⟩,
    fun s l gi g b x sig rest st hg hst hblock hunsent hsig hstatus hready hfollow hhome => ?send,
    fun s l gi g b src dst hg hb hst hstopped hfenced hcan => ?admission⟩
  case waitFault =>
    have hexec := exec_groupCwait hrun hact hh hx
    rw [hbad, if_pos (by simp)] at hexec
    exact ⟨_, hexec, (State.halts_groupFault ..).ofIssue (s.issued_countIssue l g)⟩
  case met =>
    obtain ⟨t, hexec, honly, hgroup, hl1, hothers⟩ := groupCwait_met hrun hact hh hx hok hmet htrace
    obtain ⟨hframe, hregs⟩ := (g.advance w).woken_spec (uniformDst w) (s.value (counterOf l h))
    refine ⟨t, _, hexec, honly, hgroup, hframe, fun r hr => ?_, hl1, hothers⟩
    rw [hregs r hr]
    simp only [some_eq_uniformDst]
    rfl
  case unmet => exact groupCwait_unmet hrun hact hh hx hok hmet howner hroom
  case signalFault =>
    exact ⟨_, exec_groupCsig_fault hrun hact hh hp hbad, (State.halts_groupFault ..).ofIssue (s.issued_countIssue l g)⟩
  case signal =>
    obtain ⟨t, sig, hexec, hgroup, hunsent, hop, hseq, hkind, hframe, hbytes, hothers⟩ := groupCsig_queues hrun hact hh hx hp hok hn
    obtain ⟨hsignals, hregs⟩ := g.signals_spec w
    exact ⟨t, _, sig, hexec, hgroup, by rw [hseq]; exact hsignals, hregs, hunsent, hop, hseq, hkind, hframe, hbytes, hothers⟩
  case send =>
    have hexec := exec_signalSend_queued hunsent hsig hready hfollow
    subst hst
    obtain ⟨hframe, hleft, hsent⟩ := (s.setStream (blockStream l b.gen g.block).toNat
      { s.stream (blockStream l b.gen g.block).toNat with unsent := rest }).sendSignal_here (blockStream l b.gen g.block) hhome
    rw [State.stream_setStream_same] at hleft
    generalize (s.setStream (blockStream l b.gen g.block).toNat
      { s.stream (blockStream l b.gen g.block).toNat with unsent := rest }).sendSignal (blockStream l b.gen g.block) sig = v at *
    obtain ⟨hv, hgroups⟩ := v.signalled_spec l b.gen hblock sig.msg.seq
    generalize v.signalled (blockStream l b.gen g.block) sig.msg.seq = t at *
    have hstreams : ∀ k, t.stream k = v.stream k := fun k => by rw [hv]; rfl
    refine ⟨t, hexec, ?_, by rw [hstreams, hleft], by rw [hstreams]; exact hsent, ?_, ?_⟩
    · rw [hgroups, State.group, hframe]
      show (s.group l gi).map _ = _
      rw [hg, Option.map_some, Group.signalled, if_pos ⟨rfl, hstatus⟩]
    · exact sameBytes_of_eq (t := t) (by rw [hv, hframe]; rfl) (by rw [hv, hframe]; rfl)
    · rw [hv, hframe]
      rfl
  case admission =>
    have hexec := exec_mqpushAdmission hg hb hst hstopped hfenced hcan
    have hqueue := s.queue_checked l 1 (groupDesc g src)
    rw [State.offerDesc_eq] at hexec
    have hchecked : ((s.countStall l).endAsk l).admissionFails l ((s.partOf l).getD 16) 1 (groupDesc g src) =
      s.checked l 1 (groupDesc g src) := rfl
    rw [hchecked]
    generalize s.checked l 1 (groupDesc g src) = r at *
    obtain ⟨fails, u⟩ := r
    cases hfail : firstFail fails with
    | none =>
      rw [hfail] at hexec
      dsimp only at hexec
      have hsame := u.queue_enqueue_same l 1 (s.mode 0 (.cc l)) (groupDesc g src)
      have hother : ∀ q, q ≠ 1 → _ := fun q hq => u.queue_enqueue_other l (s.mode 0 (.cc l)) (groupDesc g src) hq
      generalize u.enqueue l 1 (s.mode 0 (.cc l)) (groupDesc g src) = v at *
      obtain ⟨hframe, hregs⟩ := ({ g with pc := g.pc + 8 } : Group).woken_spec dst (BitVec.ofNat 64 ((s.queue l 1).accepted + 1))
      obtain ⟨-, hcore, -⟩ := onlyGroup_setGroup v l gi (some (({ g with pc := g.pc + 8 } : Group).woken dst
        (BitVec.ofNat 64 ((s.queue l 1).accepted + 1))))
      have hgroup := v.group_setGroup_same l gi (some (({ g with pc := g.pc + 8 } : Group).woken dst
        (BitVec.ofNat 64 ((s.queue l 1).accepted + 1))))
      generalize v.setGroup l gi (some (({ g with pc := g.pc + 8 } : Group).woken dst
        (BitVec.ofNat 64 ((s.queue l 1).accepted + 1)))) = t at *
      have hqueues : ∀ q, t.queue l q = v.queue l q := fun q => by rw [State.queue, hcore]; rfl
      refine ⟨t, hexec, fun q hq => by rw [hqueues, hother q hq, hqueue], ⟨_, hgroup, hframe, hregs⟩, ?_⟩
      rw [hqueues, hsame, hqueue]
      exact ⟨rfl, _, rfl, rfl, rfl⟩
    | some f =>
      rw [hfail] at hexec
      dsimp only at hexec
      have hrec := u.onlyRegs_recordAdmission l 1 gi 1 f g.pc
      generalize u.recordAdmission l 1 gi 1 f g.pc = v at *
      obtain ⟨honly, hmip⟩ := v.mip_setMip l 16 (by decide)
      generalize v.setMip l 16 true = y at *
      obtain ⟨-, hgroup, -⟩ := y.halts_groupFault l gi g b 7 0 g.pc
      obtain ⟨hcc, hqueues⟩ := y.groupFault_rest l gi g b 7 0 g.pc
      generalize y.groupFault l gi g b 7 0 g.pc = t at *
      have hall : ∀ q, t.queue l q = s.queue l q := fun q => by
        rw [hqueues, honly.queue, State.queue, hrec, ← hqueue]
        rfl
      exact ⟨t, hexec, fun q _ => hall q, hgroup, hall 1, by rw [hcc]; exact hmip⟩
end

section
/-!
The time base: its ticks, its upstream module, its pulse and its reference (R68, R308 to R311, R357, R358).
-/

namespace Sys2Proof.Machine

open Sys2Proof

variable {s t u : State}

/-! ### What a record and a packet leave -/

theorem OnlyRecords.rest (h : OnlyRecords s t) :
    SameBytes s t ∧ t.cores = s.cores ∧ t.counters = s.counters ∧ t.ports = s.ports ∧ t.time = s.time :=
  ⟨sameBytes_of_eq (t := t) (by rw [h]) (by rw [h]), by rw [h], by rw [h], by rw [h], by rw [h]⟩

theorem OnlySends.rest (h : OnlySends s t) : SameBytes s t ∧ t.cores = s.cores ∧ t.counters = s.counters ∧ t.time = s.time :=
  ⟨sameBytes_of_eq (t := t) (by rw [h]) (by rw [h]), by rw [h], by rw [h], by rw [h]⟩

theorem State.onlyRecords_ashNow (s : State) (src : W32) (kind severity part unit lcore : Nat) (span : W32)
    (start length detail : Nat) : OnlyRecords s (s.ashNow src kind severity part unit lcore span start length detail) := by
  have h := s.ashNow_frame src kind severity part unit lcore span start length detail
  unfold OnlyRecords
  rw [h]

theorem State.onlyRecords_timeAsh (s : State) (detail : Nat) : OnlyRecords s (s.timeAsh detail) := s.onlyRecords_ashOpen ..

/-- The newest record of the ash log bears a detail. -/
def Told (t : State) (detail : BitVec 192) : Prop := ∃ r, t.sto.ash.getLast? = some r ∧ r.detail = detail

theorem State.told_timeAsh (s : State) (detail : Nat) : Told (s.timeAsh detail) (BitVec.ofNat 192 detail) :=
  ⟨_, State.ash_last .., rfl⟩

/-! ### Packets of the time class (R298, R308) -/

theorem State.port_sendFlit_other {p q : Nat} (s : State) (f : Flit) (h : q ≠ p) : (s.sendFlit p f).port q = s.port q :=
  s.port_setPort_other _ h

/-- What a port sends leaves every other port and every message that has left. -/
theorem State.pumpPort_spec (p fuel : Nat) (s : State) :
    let t := State.pumpPort p fuel s
    (∀ q, q ≠ p → t.port q = s.port q) ∧ ∀ o ∈ s.out, o ∈ t.out := by
  induction fuel generalizing s with
  | zero => exact ⟨fun _ _ => rfl, fun _ h => h⟩
  | succ fuel ih =>
    unfold State.pumpPort
    dsimp only
    split
    · exact ⟨fun _ _ => rfl, fun _ h => h⟩
    split
    · exact ⟨fun _ _ => rfl, fun _ h => h⟩
    · next f i _ =>
      refine ⟨fun q hq => ((ih _).1 q hq).trans ?_, fun o ho => (ih _).2 o ?_⟩
      · exact (State.port_sendFlit_other _ _ hq).trans (s.port_setPort_other _ hq)
      · exact List.mem_cons_of_mem _ ho

/-- A packet sent is among what has left, and other ports stay. -/
theorem State.sendPacket_spec (s : State) (p : Nat) (pk : Packet) :
    let t := s.sendPacket p pk
    OnlySends s t ∧ Out.packet p pk ∈ t.out ∧ ∀ q, q ≠ p → t.port q = s.port q := by
  refine ⟨s.onlySends_sendPacket p pk, ?_, fun q hq => ?_⟩
  · exact (State.pumpPort_spec ..).2 _ (List.mem_cons_self ..)
  · exact ((State.pumpPort_spec ..).1 q hq).trans (State.port_setPort_other _ _ hq)

/-- A packet of the time class has left by port `p`, addressed to the module that `s` has as the port's peer. -/
def Sends (s t : State) (p op : Nat) (bs : List Byte) : Prop :=
  (∃ pk, Out.packet p pk ∈ t.out ∧ pk.op = BitVec.ofNat 6 op ∧ pk.data = bs ∧
    ∀ k, (s.port p).peer = some k → pk.dst = BitVec.ofNat 18 k.module.toNat) ∧ ∀ q, q ≠ p → t.port q = s.port q

theorem State.sendTime_spec (s : State) (p op : Nat) (bs : List Byte) :
    OnlySends s (s.sendTime p op bs) ∧ Sends s (s.sendTime p op bs) p op bs := by
  unfold State.sendTime
  dsimp only
  obtain ⟨hsends, hmem, hother⟩ := s.sendPacket_spec p (s.mkPacket (match (s.port p).peer with
    | some k => k.module.toNat
    | none => 0) op 0 0 bs.length 0 (baseVc op) bs)
  refine ⟨hsends, ⟨_, hmem, rfl, rfl, fun k hk => ?_⟩, hother⟩
  rw [hk]
  rfl

/-- A packet taken from a port leaves the rest, other ports and the peer. -/
theorem State.takeTime_spec (s : State) (p op : Nat) :
    let t := s.takeTime p op
    t = { s with ports := t.ports } ∧ (t.port p).peer = (s.port p).peer ∧ ∀ q, q ≠ p → t.port q = s.port q := by
  unfold State.takeTime
  split
  · exact ⟨rfl, rfl, fun _ _ => rfl⟩
  · next pk _ =>
    refine ⟨rfl, ?_, fun q hq => ?_⟩
    · rw [State.freeFlits, State.port_setPort_same, State.port_setPort_same]
    · exact (State.port_setPort_other _ _ hq).trans (State.port_setPort_other _ _ hq)

/-! ### Ticks (R68, R309, R357) -/

/-- A fold over distinct keys acts at each key once. -/
theorem foldl_pointwise {β γ : Type} (view : β → Nat → γ) (act : β → Nat → β) (f : Nat → γ → γ)
    (hsame : ∀ b k, view (act b k) k = f k (view b k)) (hother : ∀ b k j, j ≠ k → view (act b k) j = view b j)
    (ks : List Nat) (hnodup : ks.Nodup) (b : β) (j : Nat) :
    view (ks.foldl act b) j = if j ∈ ks then f j (view b j) else view b j := by
  induction ks generalizing b with
  | nil => simp
  | cons k ks ih =>
    obtain ⟨hnot, hks⟩ := List.nodup_cons.1 hnodup
    rw [List.foldl_cons, ih hks]
    by_cases hj : j = k
    · subst hj
      rw [if_neg hnot, if_pos (List.mem_cons_self ..), hsame]
    · rw [hother b k j hj]
      simp only [List.mem_cons, hj, false_or]

/-- The copies of the time base moved each by its own amount. -/
theorem gtb_foldl (f : Nat → W64) (m : SMap W64) (d : DieId) :
    SMap.get 0 ((List.range 4).foldl (fun m k => SMap.set 0 m k (SMap.get 0 m k + f k)) m) d = SMap.get 0 m d + f d := by
  rw [foldl_pointwise (SMap.get 0) _ (fun k v => v + f k) (fun m k => SMap.get_set_same ..)
    (fun m k j hj => SMap.get_set_other _ _ _ hj) _ List.nodup_range]
  exact if_pos (List.mem_range.2 d.isLt)

theorem State.gtb_shiftGtb (s : State) (x : Int) (d : DieId) : (s.shiftGtb x).gtb d = s.gtb d + BitVec.ofInt 64 x :=
  gtb_foldl (fun _ => BitVec.ofInt 64 x) s.time.gtb d

/-- A core's BUSY counts advanced by `f` where its engines work. -/
def Core.countedBusy (f : Nat) (c : Core) : Core :=
  { c with busy := [1, 2, 3].foldl (fun m e => if c.busyEngine e then SMap.set 0 m e (SMap.get 0 m e + f) else m) c.busy }

theorem Core.busy_countedBusy (f : Nat) (c : Core) {e : Nat} (h1 : 1 ≤ e) (h3 : e ≤ 3) :
    SMap.get 0 (c.countedBusy f).busy e = SMap.get 0 c.busy e + if c.busyEngine e then f else 0 := by
  have hfold := foldl_pointwise (SMap.get 0)
    (fun m e => if c.busyEngine e then SMap.set 0 m e (SMap.get 0 m e + f) else m)
    (fun e n => n + if c.busyEngine e then f else 0) ?_ ?_ [1, 2, 3] (by decide) c.busy e
  · exact hfold.trans (if_pos (by simp; omega))
  · intro m k
    split
    · exact SMap.get_set_same ..
    · rfl
  · intro m k j hj
    split
    · exact SMap.get_set_other _ _ _ hj
    · rfl

/-- One core's BUSY counts advanced in `v` by its region's clock in `s`. -/
def State.countCore (s v : State) (l : Nat) : State := v.modCore l (Core.countedBusy (s.mhz (l / 48)))

theorem State.core_countCore_same (s v : State) (l : Nat) : (s.countCore v l).core l = (v.core l).countedBusy (s.mhz (l / 48)) := by
  rw [State.countCore, State.modCore_eq, State.core_setCore_same]

theorem State.core_countCore_other {l j : Nat} (s v : State) (h : j ≠ l) : (s.countCore v l).core j = v.core j :=
  v.core_setCore_other _ h

/-- BUSY advances at every core listed, by its region's clock. -/
theorem State.countBusy_eq (s : State) : s.countBusy = (s.cores.map (·.1)).foldl s.countCore s := by
  have hfold : ∀ (ls : List Nat) (v : State), (∀ r, v.mhz r = s.mhz r) →
      ls.foldl (fun v l => v.modCore l (Core.countedBusy (v.mhz (l / 48)))) v = ls.foldl s.countCore v := by
    intro ls
    induction ls with
    | nil => exact fun _ _ => rfl
    | cons l ls ih =>
      intro v hv
      rw [List.foldl_cons, List.foldl_cons, State.countCore, hv]
      exact ih _ hv
  exact hfold _ s fun _ => rfl

theorem State.busyEngine_of_notMem {l : Nat} (h : l ∉ s.cores.map (·.1)) (e : Nat) : (s.core l).busyEngine e = false := by
  have hcore : s.core l = {} := SMap.get_of_notMem _ _ h
  rw [hcore]
  cases he : e == 1 <;> simp [Core.busyEngine, SMap.get]

theorem State.countBusy_spec (s : State) :
    let t := s.countBusy
    t = { s with cores := t.cores } ∧ (∀ l, t.core l = { s.core l with busy := (t.core l).busy }) ∧
      ((s.cores.map (·.1)).Nodup → ∀ l e, 1 ≤ e → e ≤ 3 → SMap.get 0 (t.core l).busy e =
        SMap.get 0 (s.core l).busy e + if (s.core l).busyEngine e then s.mhz (l / 48) else 0) := by
  intro t
  have ht : t = _ := s.countBusy_eq
  clear_value t
  subst ht
  refine ⟨?_, fun l => ?_, fun hnodup l e h1 h3 => ?_⟩
  · exact foldl_keeps (fun v => v = { s with cores := v.cores }) s.countCore (fun v l h => by rw [h]; rfl) _ s rfl
  · refine foldl_keeps (fun v => v.core l = { s.core l with busy := (v.core l).busy }) s.countCore (fun v k h => ?_) _ s rfl
    by_cases hk : l = k
    · subst hk
      rw [State.core_countCore_same, h]
      rfl
    · rw [State.core_countCore_other _ _ hk, h]
  · rw [foldl_pointwise State.core s.countCore (fun l => Core.countedBusy (s.mhz (l / 48))) s.core_countCore_same
      (fun v k j hj => s.core_countCore_other v hj) _ hnodup]
    split
    · exact Core.busy_countedBusy _ _ h1 h3
    · next hnot => rw [State.busyEngine_of_notMem hnot, if_neg (by simp), Nat.add_zero]

/-- The records of a second's corrected errors. -/
theorem State.flushCorrected_spec (s : State) :
    let t := s.flushCorrected
    t.corrected = [] ∧ SameBytes s t ∧ t.cores = s.cores ∧ t.counters = s.counters ∧ t.ports = s.ports ∧ t.time = s.time ∧
      (s.corrected ≠ [] → ∃ r, t.sto.ash.getLast? = some r ∧ r.kind = 1 ∧ r.severity = 0) := by
  have hrec := foldl_keeps (fun t => OnlyRecords s t)
    (fun s (e : CeUnit × Nat) => s.ashNow s.srcStoker 0x01 0 0xFF e.1.unit 0xFFFF 0 e.1.row 1 (e.2 + e.1.kind * 2 ^ 64))
    (fun v e h => h.trans (v.onlyRecords_ashNow ..)) s.corrected s (OnlyRecords.refl s)
  obtain ⟨hbytes, hcores, hcounters, hports, htime⟩ := hrec.rest
  refine ⟨rfl, hbytes.trans (sameBytes_of_eq rfl rfl), hcores, hcounters, hports, htime, fun hne => ?_⟩
  obtain ⟨es, e, he⟩ : ∃ es e, s.corrected = es ++ [e] := ⟨_, _, (List.dropLast_append_getLast hne).symm⟩
  unfold State.flushCorrected
  dsimp only
  rw [he, List.foldl_append]
  exact ⟨_, State.ash_last .., rfl, rfl⟩

/-- The correction that a tick takes of a slew: a step back only when no copy is held. -/
def Time.correction (x : Time) : Int := if x.step < 0 && !x.hold.isEmpty then 0 else x.step

/-- The time after a tick. -/
def Time.ticked (x : Time) : Time :=
  { x.count x.correction with offset := x.offset - x.correction, phase := (x.phase + 1) % slewTicks }

theorem Time.gtb_ticked (x : Time) (d : DieId) :
    SMap.get 0 x.ticked.gtb d =
      SMap.get 0 x.gtb d + BitVec.ofInt 64 (if x.hold.contains d.val then x.correction else 1 + x.correction) :=
  gtb_foldl (fun k => BitVec.ofInt 64 (if x.hold.contains k then x.correction else 1 + x.correction)) x.gtb d

theorem Time.correction_of_offset_zero {x : Time} (h : x.offset = 0) : x.correction = 0 := by
  have hstep : x.step = 0 := by simp [Time.step, h]
  simp [Time.correction, hstep]

theorem Time.correction_due {x : Time} (hdue : (x.phase + 1) % 5000 = 0) (hhold : x.hold = []) :
    (0 < x.offset → x.correction = 1) ∧ (x.offset < 0 → x.correction = -1) := by
  have hstep : x.step = if 0 < x.offset then 1 else if x.offset < 0 then -1 else 0 := by
    rw [Time.step, if_neg (by simpa [slewTicks] using hdue)]
  refine ⟨fun h => ?_, fun h => ?_⟩
  · rw [Time.correction, hhold, hstep, if_pos h]
    rfl
  · rw [Time.correction, hhold, hstep, if_neg (show ¬ 0 < x.offset by omega), if_pos h]
    rfl

theorem State.tick_eq (s : State) :
    let w := { s with time := s.time.ticked }.countBusy
    s.tick = if w.gtb.toNat % 10 ^ 9 = 0 ∧ !w.corrected.isEmpty then w.flushCorrected else w := rfl

/-- What a tick leaves. -/
theorem State.tick_spec (s : State) :
    let t := s.tick
    t.time = s.time.ticked ∧ SameBytes s t ∧ t.counters = s.counters ∧ t.ports = s.ports ∧
      (∀ l, t.core l = { s.core l with busy := (t.core l).busy }) ∧
      ((s.cores.map (·.1)).Nodup → ∀ l e, 1 ≤ e → e ≤ 3 → SMap.get 0 (t.core l).busy e =
        SMap.get 0 (s.core l).busy e + if (s.core l).busyEngine e then s.mhz (l / 48) else 0) ∧
      (s.corrected = [] ∨ t.gtb.toNat % 10 ^ 9 ≠ 0 → t = { s with time := t.time, cores := t.cores }) ∧
      (t.gtb.toNat % 10 ^ 9 = 0 → t.corrected = [] ∧
        (s.corrected ≠ [] → ∃ r, t.sto.ash.getLast? = some r ∧ r.kind = 1 ∧ r.severity = 0)) := by
  intro t
  have ht : t = _ := s.tick_eq
  clear_value t
  obtain ⟨hframe, hcore, hbusy⟩ := ({ s with time := s.time.ticked } : State).countBusy_spec
  generalize ({ s with time := s.time.ticked } : State).countBusy = w at *
  have hw : w = { s with time := w.time, cores := w.cores } := by rw [hframe]
  have htime : w.time = s.time.ticked := by rw [hframe]
  have hcorr : w.corrected = s.corrected := by rw [hframe]
  have hwbytes : SameBytes s w := sameBytes_of_eq (t := w) (by rw [hframe]) (by rw [hframe])
  by_cases hflush : w.gtb.toNat % 10 ^ 9 = 0 ∧ (!w.corrected.isEmpty) = true
  · rw [if_pos hflush] at ht
    obtain ⟨hnone, hbytes, hcores, hcounters, hports, htime', hlast⟩ := w.flushCorrected_spec
    rw [← ht] at hnone hbytes hcores hcounters hports htime' hlast
    have hcore' : ∀ l, t.core l = w.core l := fun l => by rw [State.core, hcores]; rfl
    have hgtb : t.gtb = w.gtb := by rw [State.gtb, htime']; rfl
    have hne : s.corrected ≠ [] := by simpa [hcorr] using hflush.2
    refine ⟨htime'.trans htime, hwbytes.trans hbytes, by rw [hcounters, hframe], by rw [hports, hframe], fun l => ?_, fun hnodup l => ?_,
      fun h => ?_, fun _ => ⟨hnone, fun _ => hlast (hcorr ▸ hne)⟩⟩
    · rw [hcore']
      exact hcore l
    · rw [hcore']
      exact hbusy hnodup l
    · rw [hgtb] at h
      exact (h.elim hne fun h => h hflush.1).elim
  · rw [if_neg hflush] at ht
    subst ht
    refine ⟨htime, hwbytes, by rw [hframe], by rw [hframe], hcore, hbusy, fun _ => hw, fun hsecond => ?_⟩
    have hempty : s.corrected = [] := by
      have := fun h => hflush ⟨hsecond, h⟩
      simpa [hcorr] using this
    exact ⟨hcorr.trans hempty, fun h => absurd hempty h⟩

/-- The copies of the time base after a tick. -/
theorem State.gtb_tick (s : State) (d : DieId) : s.tick.gtb d =
    s.gtb d + BitVec.ofInt 64 (if s.time.hold.contains d.val then s.time.correction else 1 + s.time.correction) := by
  obtain ⟨htime, -⟩ := s.tick_spec
  rw [State.gtb, htime]
  exact s.time.gtb_ticked d

/-- With nothing to slew every copy advances by one, but one that is held. -/
theorem State.gtb_tick_steady (hoffset : s.time.offset = 0) (d : DieId) :
    s.tick.gtb d = if d.val ∈ s.time.hold then s.gtb d else s.gtb d + 1 := by
  rw [State.gtb_tick, Time.correction_of_offset_zero hoffset]
  by_cases hmem : d.val ∈ s.time.hold
  · rw [if_pos (by simpa using hmem), if_pos hmem]
    exact BitVec.add_zero _
  · rw [if_neg (by simpa using hmem), if_neg hmem]
    rfl

/-- A correction of a slew: every copy advances by two, or by none. -/
theorem State.gtb_tick_slew (hdue : (s.time.phase + 1) % 5000 = 0) (hhold : s.time.hold = []) :
    (0 < s.time.offset → (∀ d : DieId, s.tick.gtb d = s.gtb d + 2) ∧ s.tick.time.offset = s.time.offset - 1) ∧
      (s.time.offset < 0 → (∀ d : DieId, s.tick.gtb d = s.gtb d) ∧ s.tick.time.offset = s.time.offset + 1) := by
  obtain ⟨htime, -⟩ := s.tick_spec
  obtain ⟨hpos, hneg⟩ := Time.correction_due hdue hhold
  refine ⟨fun h => ⟨fun d => ?_, by rw [htime, Time.ticked, hpos h]⟩,
    fun h => ⟨fun d => ?_, by rw [htime, Time.ticked, hneg h]; exact sub_neg_eq_add ..⟩⟩
  · rw [State.gtb_tick, hpos h, hhold]
    rfl
  · rw [State.gtb_tick, hneg h, hhold]
    exact BitVec.add_zero _

/-! ### What the sources of time leave -/

/-- Bytes, cores and counters are as before. -/
def Undisturbed (s t : State) : Prop := SameBytes s t ∧ t.cores = s.cores ∧ t.counters = s.counters

theorem Undisturbed.trans (h : Undisturbed s t) (k : Undisturbed t u) : Undisturbed s u :=
  ⟨h.1.trans k.1, k.2.1.trans h.2.1, k.2.2.trans h.2.2⟩

theorem undisturbed_time (s : State) (x : Time) : Undisturbed s { s with time := x } := ⟨sameBytes_of_eq rfl rfl, rfl, rfl⟩

theorem OnlyRecords.undisturbed (h : OnlyRecords s t) : Undisturbed s t := ⟨h.rest.1, h.rest.2.1, h.rest.2.2.1⟩
theorem OnlySends.undisturbed (h : OnlySends s t) : Undisturbed s t := ⟨h.rest.1, h.rest.2.1, h.rest.2.2.1⟩

/-- The command ends in a state that has `q`, with ports, bytes, cores and counters as before. -/
def Ends (s : State) (i : Instr) (q : State → Prop) : Prop :=
  ∃ t, exec i s = .next t ∧ Undisturbed s t ∧ t.ports = s.ports ∧ q t

/-- A change of the time that is recorded. -/
theorem ends_timeAsh {i : Instr} {x : Time} {n : Nat} (h : exec i s = .next ({ s with time := x }.timeAsh n)) :
    Ends s i fun t => t.time = x ∧ Told t (BitVec.ofNat 192 n) := by
  have hrec := State.onlyRecords_timeAsh { s with time := x } n
  obtain ⟨-, -, -, hports, htime⟩ := hrec.rest
  exact ⟨_, h, hrec.undisturbed, hports, htime, State.told_timeAsh ..⟩

theorem ends_ashNow {i : Instr} {x : Time} {kind severity : Nat} (hkind : kind < 2 ^ 16)
    (h : exec i s = .next ({ s with time := x }.ashNow s.srcStoker kind severity)) :
    Ends s i fun t => t.time = x ∧ Logged t kind severity := by
  have hrec := State.onlyRecords_ashNow { s with time := x } s.srcStoker kind severity 0xFF 0 0xFFFF 0 0 0 0
  obtain ⟨-, -, -, hports, htime⟩ := hrec.rest
  exact ⟨_, h, hrec.undisturbed, hports, htime, State.logged_ashNow _ _ _ _ _ _ _ _ _ _ _ hkind⟩

/-! ### The upstream module (R308, R309, R311) -/

/-- A follower's stamp goes upstream. -/
theorem exec_timeSyncSend_upstream {p : Nat} (hrole : s.cfg.timeRole = 0) (hup : s.upstream = some p) :
    exec .timeSyncSend s =
      .next ({ s with time := { s.time with holdover := false } }.sendTime p opTimeSync (leBytes 8 (s.gtb (p / 9)).toNat)) := by
  have hexec : exec .timeSyncSend s = execTimeSyncSend s := rfl
  rw [hexec, execTimeSyncSend, if_neg (not_not.2 hrole), hup]

theorem timeSyncSend_leaves {p : Nat} (hrole : s.cfg.timeRole = 0) (hup : s.upstream = some p) :
    ∃ t, exec .timeSyncSend s = .next t ∧ Undisturbed s t ∧ t.time = { s.time with holdover := false } ∧
      t = { s with time := t.time, ports := t.ports, counts := t.counts, out := t.out } ∧
      Sends s t p opTimeSync (leBytes 8 (s.gtb (p / 9)).toNat) := by
  obtain ⟨hsends, hleft⟩ := State.sendTime_spec { s with time := { s.time with holdover := false } } p opTimeSync
    (leBytes 8 (s.gtb (p / 9)).toNat)
  exact ⟨_, exec_timeSyncSend_upstream hrole hup, hsends.undisturbed, hsends.rest.2.2.2, by rw [hsends], hleft⟩

/-- With no upstream a follower goes into holdover once. -/
theorem exec_timeSyncSend_alone (hrole : s.cfg.timeRole = 0) (hup : s.upstream = none) :
    exec .timeSyncSend s = if s.time.holdover then .next s else .next ({ s with time := { s.time with holdover := true } }.timeAsh 1) := by
  have hexec : exec .timeSyncSend s = execTimeSyncSend s := rfl
  rw [hexec, execTimeSyncSend, if_neg (not_not.2 hrole), hup]

/-- A request is answered on its port with both stamps. -/
theorem timeSync_answers {p : PortId} (t1 t2 : W64) (hactive : s.portActive p = true) :
    ∃ t, exec (.timeSync p t1 t2) s = .next t ∧ Undisturbed s t ∧
      t = { s with ports := t.ports, counts := t.counts, out := t.out } ∧
      Sends s t p opTimeReply (leBytes 8 t2.toNat ++ leBytes 8 (s.gtb (p / 9)).toNat) := by
  have hexec : exec (.timeSync p t1 t2) s =
      .next ((s.takeTime p opTimeSync).sendTime p opTimeReply (leBytes 8 t2.toNat ++ leBytes 8 (s.gtb (p / 9)).toNat)) := by
    have h : exec (.timeSync p t1 t2) s = execTimeSync p t1 t2 s := rfl
    rw [h, execTimeSync, if_pos hactive]
  obtain ⟨htake, hpeer, hothers⟩ := s.takeTime_spec p opTimeSync
  generalize s.takeTime p opTimeSync = v at *
  obtain ⟨hsends, ⟨pk, hpk, hop, hdata, hdst⟩, hports⟩ := v.sendTime_spec p opTimeReply
    (leBytes 8 t2.toNat ++ leBytes 8 (s.gtb (p / 9)).toNat)
  have hv : Undisturbed s v := ⟨sameBytes_of_eq (t := v) (by rw [htake]) (by rw [htake]), by rw [htake], by rw [htake]⟩
  exact ⟨_, hexec, hv.trans hsends.undisturbed, by rw [hsends, htake], ⟨pk, hpk, hop, hdata, fun k hk => hdst k (hpeer.trans hk)⟩,
    fun q hq => (hports q hq).trans (hothers q hq)⟩

theorem State.takeOffset_outright (s : State) (d : Int) (hready : s.sto.ready = false) (hlocked : s.time.locked = false) :
    s.takeOffset d = { s.shiftGtb d with time := { (s.shiftGtb d).time with offset := 0, locked := true } } := by
  rw [State.takeOffset, if_pos (by simp [hready, hlocked])]

/-- An offset that is slewed out, and recorded when it is large after ready. -/
theorem State.takeOffset_slewed (s : State) (d : Int) (h : s.sto.ready = true ∨ s.time.locked = true) :
    let t := s.takeOffset d
    OnlyRecords { s with time := { s.time with offset := d, locked := true } } t ∧
      (s.sto.ready = true → 100000 < d.natAbs → Told t 2) := by
  intro t
  have ht : t = if s.sto.ready && decide (100000 < d.natAbs) then
      { s with time := { s.time with offset := d, locked := true } }.timeAsh 2
    else { s with time := { s.time with offset := d, locked := true } } := by
    show s.takeOffset d = _
    rw [State.takeOffset, if_neg (by rcases h with h | h <;> simp [h])]
  rw [ht]
  split
  · exact ⟨State.onlyRecords_timeAsh .., fun _ _ => State.told_timeAsh ..⟩
  · next hsmall => exact ⟨OnlyRecords.refl _, fun h1 h2 => absurd (by simp [h1, h2]) hsmall⟩

/-- The state once a reply's packet is taken and its offset is in hand. -/
theorem exec_timeReply_upstream {p : PortId} (t1 t2 t3 t4 : W64) {d : Int} (hd : d = ((t2 - t1).toInt - (t4 - t3).toInt).tdiv 2)
    (hup : s.upstream = some p.val) :
    let v := (s.takeTime p opTimeReply).takeOffset d
    exec (.timeReply p t1 t2 t3 t4) s = .next { v with time := { v.time with lastSync := v.gtb } } := by
  have hexec : exec (.timeReply p t1 t2 t3 t4) s = execTimeReply p t1 t2 t3 t4 s := rfl
  rw [hexec, execTimeReply, if_neg (not_not.2 hup), hd]
  rfl

/-- A reply moves the time outright at the first lock before ready; later offsets are slewed out. -/
theorem timeReply_leaves {p : PortId} (t1 t2 t3 t4 : W64) {d : Int} (hd : d = ((t2 - t1).toInt - (t4 - t3).toInt).tdiv 2)
    (hup : s.upstream = some p.val) :
    ∃ t, exec (.timeReply p t1 t2 t3 t4) s = .next t ∧ Undisturbed s t ∧ (∀ q, q ≠ p.val → t.port q = s.port q) ∧
      t.time.locked = true ∧ t.time.lastSync = t.gtb ∧
      (s.sto.ready = false → s.time.locked = false → (∀ k : DieId, t.gtb k = s.gtb k + BitVec.ofInt 64 d) ∧ t.time.offset = 0) ∧
      (s.sto.ready = true ∨ s.time.locked = true → t.time.gtb = s.time.gtb ∧ t.time.offset = d) ∧
      (s.sto.ready = true → 100000 < d.natAbs → Told t 2) := by
  have hexec := exec_timeReply_upstream t1 t2 t3 t4 hd hup
  obtain ⟨htake, -, hothers⟩ := s.takeTime_spec p opTimeReply
  generalize s.takeTime p opTimeReply = v at *
  have hv : Undisturbed s v := ⟨sameBytes_of_eq (t := v) (by rw [htake]) (by rw [htake]), by rw [htake], by rw [htake]⟩
  have hvtime : v.time = s.time := by rw [htake]
  have hvsto : v.sto = s.sto := by rw [htake]
  by_cases hfirst : s.sto.ready = false ∧ s.time.locked = false
  · obtain ⟨hready, hlocked⟩ := hfirst
    rw [State.takeOffset_outright v d (hvsto ▸ hready) (hvtime ▸ hlocked)] at hexec
    refine ⟨_, hexec, hv.trans ⟨sameBytes_of_eq rfl rfl, rfl, rfl⟩, hothers, rfl, rfl, fun _ _ => ⟨fun k => ?_, rfl⟩,
      fun h => ?_, fun h => ?_⟩
    · refine (v.gtb_shiftGtb d k).trans ?_
      rw [State.gtb, hvtime]
      rfl
    · simp [hready, hlocked] at h
    · simp [hready] at h
  · have hslew : s.sto.ready = true ∨ s.time.locked = true :=
      (not_and_or.1 hfirst).imp Bool.eq_true_of_not_eq_false Bool.eq_true_of_not_eq_false
    obtain ⟨hrec, htold⟩ := v.takeOffset_slewed d (by rw [hvsto, hvtime]; exact hslew)
    generalize v.takeOffset d = u at *
    obtain ⟨-, -, -, hports, htime⟩ := hrec.rest
    have hu : u.time = { s.time with offset := d, locked := true } := by rw [htime, hvtime]
    refine ⟨_, hexec, (hv.trans hrec.undisturbed).trans (undisturbed_time ..), fun q hq => ?_, ?_, rfl,
      fun hr hl => absurd ⟨hr, hl⟩ hfirst, fun _ => ⟨?_, ?_⟩, fun hr hlarge => htold (hvsto ▸ hr) hlarge⟩
    · refine Eq.trans ?_ (hothers q hq)
      rw [State.port, hports]
      rfl
    · show u.time.locked = true
      rw [hu]
    · show u.time.gtb = s.time.gtb
      rw [hu]
    · show u.time.offset = d
      rw [hu]

/-! ### The pulse input (R310) -/

/-- The nearest whole second lies at `secondOffset`. -/
theorem State.secondOffset_spec (s : State) :
    ((s.gtb.toNat : Int) + s.secondOffset) % 10 ^ 9 = 0 ∧ s.secondOffset.natAbs ≤ 500000000 ∧ 0 ≤ (s.gtb.toNat : Int) + s.secondOffset := by
  unfold State.secondOffset
  dsimp only
  generalize s.gtb.toNat = n
  split
  · refine ⟨?_, ?_, ?_⟩ <;> simp only [Int.ofNat_eq_natCast] <;> omega
  · refine ⟨?_, ?_, ?_⟩ <;> simp only [Int.ofNat_eq_natCast] <;> omega

/-- A time base moved by a small offset. -/
theorem toNat_add_ofInt (x : W64) (d : Int) (hlo : 0 ≤ (x.toNat : Int) + d) (hhi : (x.toNat : Int) + d < 2 ^ 64) :
    ((x + BitVec.ofInt 64 d).toNat : Int) = x.toNat + d := by
  rw [BitVec.toNat_add, BitVec.toNat_ofInt]
  push_cast
  omega

theorem exec_ppsEdge (hrole : s.cfg.timeRole = 1) (hpulse : s.cfg.pulse = true) :
    ∃ v, exec .ppsEdge s = .next { v with time := { v.time with pps := some v.gtb, ppsLost := false } } ∧
      (s.sto.ready = false → s.time.pps = none → v = s.shiftGtb s.secondOffset) ∧
      (¬(s.sto.ready = false ∧ s.time.pps = none) →
        OnlyRecords { s with time := { s.time with offset := s.secondOffset } } v ∧
          (s.sto.ready = true → 100000 < s.secondOffset.natAbs → Told v 2)) := by
  have hexec : exec .ppsEdge s = execPpsEdge s := rfl
  rw [hexec, execPpsEdge, if_neg (by simp [hrole, hpulse])]
  dsimp only
  by_cases hfirst : s.sto.ready = false ∧ s.time.pps = none
  · rw [if_pos (by simp [hfirst.1, hfirst.2])]
    exact ⟨_, rfl, fun _ _ => rfl, fun h => absurd hfirst h⟩
  · rw [if_neg (fun h => hfirst (by simpa using h))]
    refine ⟨_, rfl, fun hr hp => absurd ⟨hr, hp⟩ hfirst, fun _ => ?_⟩
    split
    · exact ⟨State.onlyRecords_timeAsh .., fun _ _ => State.told_timeAsh ..⟩
    · next hsmall => exact ⟨OnlyRecords.refl _, fun h1 h2 => absurd (by simp [h1, h2]) hsmall⟩

/-- The first pulse before ready puts the time on the nearest whole second. -/
theorem ppsEdge_first (ht : t = s.shiftGtb s.secondOffset) (hrange : s.gtb.toNat < 2 ^ 63) :
    t.gtb.toNat % 10 ^ 9 = 0 ∧ t.gtb.toNat ≤ s.gtb.toNat + 500000000 ∧ s.gtb.toNat ≤ t.gtb.toNat + 500000000 ∧
      ∀ k : DieId, t.gtb k = s.gtb k + (t.gtb - s.gtb) := by
  obtain ⟨hsecond, hnear, hpos⟩ := s.secondOffset_spec
  have hgtb : ∀ k : DieId, t.gtb k = s.gtb k + BitVec.ofInt 64 s.secondOffset := ht ▸ s.gtb_shiftGtb s.secondOffset
  clear ht
  generalize s.secondOffset = d at *
  have hzero : t.gtb = s.gtb + BitVec.ofInt 64 d := hgtb 0
  have hnat : (t.gtb.toNat : Int) = s.gtb.toNat + d := by
    rw [hzero]
    exact toNat_add_ofInt _ _ hpos (by omega)
  refine ⟨by omega, by omega, by omega, fun k => ?_⟩
  rw [hgtb, hzero, add_sub_cancel_left]

/-- What a pulse leaves at the root. -/
theorem ppsEdge_leaves (hrole : s.cfg.timeRole = 1) (hpulse : s.cfg.pulse = true) (hrange : s.gtb.toNat < 2 ^ 63) :
    Ends s .ppsEdge fun t => t.time.pps = some t.gtb ∧ t.time.ppsLost = false ∧
      (s.sto.ready = false → s.time.pps = none → t.gtb.toNat % 10 ^ 9 = 0 ∧
        t.gtb.toNat ≤ s.gtb.toNat + 500000000 ∧ s.gtb.toNat ≤ t.gtb.toNat + 500000000 ∧
        ∀ k : DieId, t.gtb k = s.gtb k + (t.gtb - s.gtb)) ∧
      (s.sto.ready = true ∨ s.time.pps ≠ none → t.time.gtb = s.time.gtb ∧
        ((s.gtb.toNat : Int) + t.time.offset) % 10 ^ 9 = 0 ∧ t.time.offset.natAbs ≤ 500000000) ∧
      (s.sto.ready = true → 100000 < t.time.offset.natAbs → Told t 2) := by
  obtain ⟨v, hexec, hset, hslew⟩ := exec_ppsEdge hrole hpulse
  obtain ⟨hsecond, hnear, -⟩ := s.secondOffset_spec
  by_cases hfirst : s.sto.ready = false ∧ s.time.pps = none
  · obtain ⟨hready, hpps⟩ := hfirst
    have hv := hset hready hpps
    have hmoved := ppsEdge_first hv hrange
    have hshift : v = { s with time := v.time } := by rw [hv]; rfl
    clear hv hset hslew
    have hgtb : ∀ k, State.gtb { v with time := { v.time with pps := some v.gtb, ppsLost := false } } k = v.gtb k := fun _ => rfl
    refine ⟨_, hexec, ⟨sameBytes_of_eq (by rw [hshift]) (by rw [hshift]), by rw [hshift], by rw [hshift]⟩, by rw [hshift], rfl, rfl,
      fun _ _ => ?_, fun h => ?_, fun h => ?_⟩
    · simp only [hgtb]
      exact hmoved
    · simp [hready, hpps] at h
    · simp [hready] at h
  · obtain ⟨hrec, htold⟩ := hslew hfirst
    obtain ⟨-, -, -, hports, htime⟩ := hrec.rest
    have hoffset : v.time.offset = s.secondOffset := by rw [htime]
    refine ⟨_, hexec, hrec.undisturbed.trans (undisturbed_time ..), hports, rfl, rfl, fun hr hp => absurd ⟨hr, hp⟩ hfirst,
      fun _ => ⟨?_, ?_, ?_⟩, fun hr hlarge => htold hr (hoffset ▸ hlarge)⟩
    · show v.time.gtb = s.time.gtb
      rw [htime]
    · show ((s.gtb.toNat : Int) + v.time.offset) % 10 ^ 9 = 0
      rw [hoffset]
      exact hsecond
    · show v.time.offset.natAbs ≤ _
      rw [hoffset]
      exact hnear

/-- A pulse, or its loss, means nothing where no pulse is used. -/
theorem exec_pulse_unused (hno : s.cfg.timeRole ≠ 1 ∨ s.cfg.pulse = false) :
    exec .ppsEdge s = .next s ∧ exec .ppsLossTimeout s = .next s := by
  have hoff : (decide (s.cfg.timeRole ≠ 1) || !s.cfg.pulse) = true := by simpa using hno
  have hedge : exec .ppsEdge s = execPpsEdge s := rfl
  have hloss : exec .ppsLossTimeout s = execPpsLossTimeout s := rfl
  rw [hedge, hloss, execPpsEdge, execPpsLossTimeout, hoff]
  exact ⟨rfl, rfl⟩

theorem exec_ppsLossTimeout (hrole : s.cfg.timeRole = 1) (hpulse : s.cfg.pulse = true) :
    exec .ppsLossTimeout s =
      if s.time.ppsLost then .next s else .next ({ s with time := { s.time with ppsLost := true, offset := 0 } }.timeAsh 3) := by
  have hexec : exec .ppsLossTimeout s = execPpsLossTimeout s := rfl
  simp [hexec, execPpsLossTimeout, hrole, hpulse]

/-! ### The copies of the dies (R357) -/

/-- A copy that is behind gains a tick, and one that is ahead leaves its next one out. -/
theorem gtbDieCheck_leaves (s : State) (d : DieId) :
    ∃ t, exec (.gtbDieCheck d) s = .next t ∧ t = { s with time := t.time } ∧ SameBytes s t ∧
      t.time = { s.time with gtb := t.time.gtb, hold := t.time.hold } ∧ (∀ k : DieId, k ≠ d → t.gtb k = s.gtb k) ∧
      (s.gtb d = s.gtb → t = s) ∧ (0 < (s.gtb - s.gtb d).toInt → t.gtb d = s.gtb d + 1 ∧ t.time.hold = s.time.hold) ∧
      ((s.gtb - s.gtb d).toInt < 0 → t.time.gtb = s.time.gtb ∧ d.val ∈ t.time.hold) := by
  have hexec : exec (.gtbDieCheck d) s = execGtbDieCheck d s := rfl
  rw [hexec, execGtbDieCheck]
  dsimp only
  by_cases heq : s.gtb d = s.gtb
  · rw [if_pos heq, heq, BitVec.sub_self]
    exact ⟨s, rfl, rfl, SameBytes.refl s, rfl, fun _ _ => rfl, fun _ => rfl, fun h => by simp at h, fun h => by simp at h⟩
  rw [if_neg heq]
  by_cases hbehind : 0 < (s.gtb - s.gtb d).toInt
  · rw [if_pos hbehind]
    exact ⟨_, rfl, rfl, sameBytes_of_eq rfl rfl, rfl, fun k hk => SMap.get_set_other _ _ _ fun h => hk (Fin.ext h), fun h => absurd h heq,
      fun _ => ⟨SMap.get_set_same .., rfl⟩, fun h => by omega⟩
  rw [if_neg hbehind]
  by_cases hheld : s.time.hold.contains d.val = true
  · rw [if_pos hheld]
    exact ⟨s, rfl, rfl, SameBytes.refl s, rfl, fun _ _ => rfl, fun _ => rfl, fun h => absurd h hbehind,
      fun _ => ⟨rfl, by simpa using hheld⟩⟩
  · rw [if_neg hheld]
    exact ⟨_, rfl, rfl, sameBytes_of_eq rfl rfl, rfl, fun _ _ => rfl, fun h => absurd h heq, fun h => absurd h hbehind,
      fun _ => ⟨rfl, by simp⟩⟩

/-! ### The reference (R358) -/

theorem exec_refclkLoss (s : State) : exec .refclkLoss s =
    if s.time.refOk then .next ({ s with time := { s.time with refOk := false } }.ashNow s.srcStoker 0x0F 2) else .next s := rfl

theorem exec_refclkReturn (s : State) : exec .refclkReturn s =
    if s.time.refOk then .next s else .next ({ s with time := { s.time with refOk := true } }.ashNow s.srcStoker 0x0F 0) := rfl

end Sys2Proof.Machine

open Sys2Proof Sys2Proof.Machine

/-- Settles O52: what a tick leaves, and for each source of time the offset taken and the record or packet that leaves. -/
theorem timeFollowsItsSources : Obligations.TimeFollowsItsSources := by
  unfold Obligations.TimeFollowsItsSources
  intro s quiet ends told sends
  refine ⟨fun hidle => ?tick, fun hrole => ?noFollower,
    fun hrole => ⟨fun p hup => timeSyncSend_leaves hrole hup, fun hup => ⟨fun hhold => ?held, fun hhold => ?lost⟩⟩,
    fun p t1 t2 => ⟨fun hdown => ?down, timeSync_answers t1 t2⟩,
    fun p t1 t2 t3 t4 d hd => ⟨fun hup => ?elsewhere, timeReply_leaves t1 t2 t3 t4 hd⟩, exec_pulse_unused,
    fun hrole hpulse hrange => ⟨ppsEdge_leaves hrole hpulse hrange, fun hlost => ?known, fun hlost => ?loss⟩, gtbDieCheck_leaves s,
    fun href => ⟨?stays, ?refLoss⟩, fun href => ⟨?stays', ?refReturn⟩⟩
  case tick =>
    obtain ⟨htime, hbytes, hcounters, hports, hcore, hbusy, hsame, hflush⟩ := s.tick_spec
    refine ⟨s.tick, by rw [step, hidle], hbytes, hcounters, hports, hcore, fun hnodup l => hbusy hnodup l, State.gtb_tick_steady,
      fun hdue hpos hhold => (State.gtb_tick_slew hdue hhold).1 hpos, fun hdue hneg hhold => (State.gtb_tick_slew hdue hhold).2 hneg,
      by rw [htime]; rfl, hsame, hflush⟩
  case noFollower =>
    have hexec : exec .timeSyncSend s = execTimeSyncSend s := rfl
    rw [hexec, execTimeSyncSend, if_pos hrole]
  case held => rw [exec_timeSyncSend_alone hrole hup, if_pos hhold]
  case lost => exact ends_timeAsh (by rw [exec_timeSyncSend_alone hrole hup, if_neg (by simp [hhold])])
  case down =>
    have hexec : exec (.timeSync p t1 t2) s = execTimeSync p t1 t2 s := rfl
    rw [hexec, execTimeSync, if_neg (by simp [hdown])]
  case elsewhere =>
    have hexec : exec (.timeReply p t1 t2 t3 t4) s = execTimeReply p t1 t2 t3 t4 s := rfl
    rw [hexec, execTimeReply, if_pos hup]
  case known => rw [exec_ppsLossTimeout hrole hpulse, if_pos hlost]
  case loss => exact ends_timeAsh (by rw [exec_ppsLossTimeout hrole hpulse, if_neg (by simp [hlost])])
  case stays => rw [exec_refclkReturn, if_pos href]
  case refLoss => exact ends_ashNow (by decide) (by rw [exec_refclkLoss, if_pos href])
  case stays' => rw [exec_refclkLoss, if_neg (by simp [href])]
  case refReturn => exact ends_ashNow (by decide) (by rw [exec_refclkReturn, if_neg (by simp [href])])
end

section
/-!
A state in which a COPY does not end as O38 says. R222 and R223 let a slice serve a line that it holds while the power domain of
the line's stack is not ON (R366), so the destination of a COPY can be reached before the COPY reads its source and be asleep after
it: the read allocates the source's line, and in a set of one way that gives up the destination's.
-/

namespace Sys2Proof.Machine

open Sys2Proof

/-! ### The counterexample -/

/-- The source lies on stack 0 and the destination on stack 1; their lines, 0 and 196,656, are of one slice and one set. -/
def evictDst : Nat := 0x1801800

/-- A COPY of one row of 16 bytes from address 0 of context 7. -/
def evictEntry : QEntry :=
  { acc := 4, st := .running
    desc := BitVec.ofNat 1024 (0x301 + evictDst <<< (8 * 80) + 16 <<< (8 * 88) + 7 <<< (8 * 92) + 7 <<< (8 * 93) + 1 <<< (8 * 94)) }

/-- Context 7 maps every address of the row's two ranges to itself. -/
def evictRange : XEntry := { ctx := 7, start := 0, len := 2 ^ 30, target := 0, part := 0 }

/-- Partition 3 holds cluster 0. -/
def evictPart : PartCfg :=
  { clusters := 1, vf := false, s2root := 0, s2count := 0, modBase := 0, modCount := 0, rgnBase := 0, rgnCount := 0, sysBase := 0,
    sysCount := 0, barBase := 0, barCount := 0 }

/-- Every power domain is ON but that of stack 1; the slice holds the destination's line in the one way that its group allows. -/
def evictState : State :=
  { State.reset with
    regs := (List.range 49).map fun d => (({ name := .MOD_PWR_STATE, i := d } : RegRef).key, if d = 21 then 0 else 2)
    cfg := { parts := [(3, some evictPart)]
             interleave := [{ base := 0, len := nearEnd, offset := 0, mode := 1, set := 0, granule := 12 }]
             hearth := [(0, { masks := List.replicate 16 1 })] }
    hearth := [(0, [(evictDst / 128, false, 0)])]
    cores := [(5, { queues := [(2, { entries := [evictEntry] })], l1x := [evictRange] })] }

theorem plain_evictState : Plain evictState := ⟨rfl, rfl, fun _ => rfl⟩

theorem started_evictEntry : DmaStarted evictState 5 3 evictEntry 1 := by
  unfold DmaStarted
  decide +kernel

/-- The fields of the COPY: one row of 16 bytes, and its two ranges. -/
theorem fields_evictEntry :
    let d := evictEntry.desc
    d.copyRows = 1 ∧ d.fld 88 4 = 16 ∧ d.fld 92 1 = 7 ∧ d.fld 72 8 = 0 ∧ d.fld 93 1 = 7 ∧ d.fld 80 8 = evictDst := by decide +kernel

/-- A range in one page of memory, which context 7 maps to itself, is reached while its homes are awake. -/
theorem evictState_reaches {a : Nat} (hlocal : evictState.localise a = a) (hremote : evictState.remoteOf a = none)
    (hmem : evictState.isMemory a = true) (hhere : evictState.targetHere a 16 = true)
    (hawake : evictState.targetStalls a 16 = false) (hwindow : windowOf a = none) (hrange : a + 16 ≤ 2 ^ 30)
    (hpage : a % 4096 + 16 ≤ 4096) : DeReaches evictState 5 3 7 a 16 a := by
  have hthrough : evictState.throughEntry 3 evictRange a = .here a (min (2 ^ 30 - a) (4096 - a % 4096)) a := by
    simp [State.throughEntry, evictRange, hlocal, hremote, hmem]
  refine ⟨hremote, hawake, hhere, fun k off h => ?_, by decide, ?_⟩
  · rw [hwindow] at h
    cases h
  · rw [if_neg (fun h => absurd h.1 (by decide))]
    refine ⟨⟨evictRange, List.mem_singleton.2 rfl, rfl, Nat.zero_le a, ?_⟩, fun e he _ => ?_⟩
    · show a < 0 + 2 ^ 30
      omega
    · obtain rfl := List.mem_singleton.1 he
      exact ⟨_, _, hthrough, by omega⟩

theorem reaches_evictSrc : DeReaches evictState 5 3 7 0 16 0 :=
  evictState_reaches (by decide +kernel) (by decide +kernel) (by decide +kernel) (by decide +kernel) (by decide +kernel)
    (by decide) (by decide) (by decide)

theorem reaches_evictDst : DeReaches evictState 5 3 7 evictDst 16 evictDst :=
  evictState_reaches (by decide +kernel) (by decide +kernel) (by decide +kernel) (by decide +kernel) (by decide +kernel)
    (by decide) (by decide) (by decide)

/-- The read of the source takes the slice's one way, and the instruction waits for its destination. -/
theorem waits_evictEntry : ((evictState.runDma 5 4 1).entry 5 2 4).map (·.done) = some false := by decide +kernel

end Sys2Proof.Machine

open Sys2Proof Sys2Proof.Machine

/-- Refutes O38: both ranges of the COPY in `evictState` are reached, but its read evicts the destination's line from the Hearth, the
write then stalls on the destination's stack, which is OFF, and the instruction is not done. -/
theorem not_dmaMovesRowsAndElements : ¬ Obligations.DmaMovesRowsAndElements := by
  intro hall
  obtain ⟨hcopy, -⟩ := hall evictState 5 3 evictEntry 1 plain_evictState
  obtain ⟨hrows, hlen, hsctx, hsrc, hdctx, hdst⟩ := fields_evictEntry
  rw [hsctx, hsrc, hdctx, hdst] at hcopy
  obtain ⟨t, hexec, -, -, -, y, hentry, hdone, -⟩ := hcopy started_evictEntry 0 evictDst 16 (by decide) (by decide) hrows hlen rfl
    reaches_evictSrc reaches_evictDst
  have hrun : exec (.copy 5 4) evictState = .next (evictState.runDma 5 4 1) := rfl
  obtain rfl := Host.Outcome.next.inj (hrun.symm.trans hexec)
  have hwaits := waits_evictEntry
  rw [show (evictState.runDma 5 4 1).entry 5 2 4 = some y from hentry, Option.map_some, hdone] at hwaits
  cases hwaits
end

section
/-!
Thread words that do not issue, and words that the verifier rejects (R125, R135, R158).
-/

namespace Sys2Proof.Machine

open Sys2Proof

variable {s : State} {l : CoreId} {gi : GroupId} {w : TWord} {g : Group} {b : Block}

/-! ### What stands before an instruction's effect -/

theorem State.threadIssue_absent {op : Nat} (k : State → Group → Block → Res) (h : s.group l gi = none) :
    s.threadIssue op l gi w k = .next s := by
  simp only [State.threadIssue, h]

section

variable {op : Nat} (k : State → Group → Block → Res) (hg : s.group l gi = some g) (hb : s.block (l / 8) g.block = some b)
include hg hb

/-- The checks of an issue, in their order, for a group that its core holds. -/
theorem State.threadIssue_eq : s.threadIssue op l gi w k =
    if !s.groupRuns l g || !s.atWord op l g b w then .next s
    else if !wordOk op (launchFld b.body 97 1) (launchFld b.body 80 4) w then .refused .malformedWord
    else k (s.countIssue l g) g b := by
  unfold State.threadIssue
  rw [hg]; dsimp only; rw [hb]

theorem State.threadIssue_idle (h : s.groupRuns l g = false) : s.threadIssue op l gi w k = .next s := by
  rw [State.threadIssue_eq k hg hb, if_pos (by simp [h])]

theorem State.threadIssue_elsewhere (h : s.atWord op l g b w = false) : s.threadIssue op l gi w k = .next s := by
  rw [State.threadIssue_eq k hg hb, if_pos (by simp [h])]

theorem State.threadIssue_malformed (hr : s.groupRuns l g = true) (hat : s.atWord op l g b w = true)
    (h : wordOk op (launchFld b.body 97 1) (launchFld b.body 80 4) w = false) :
    s.threadIssue op l gi w k = .refused .malformedWord := by
  rw [State.threadIssue_eq k hg hb, if_neg (by simp [hr, hat]), if_pos (by simp [h])]

end

/-- An instruction is an issue of its word with opcode `p.1`, followed by an effect of its own. -/
def Issues (p : Nat × (CoreId → GroupId → TWord → Instr)) : Prop :=
  ∀ l gi w s, ∃ k, exec (p.2 l gi w) s = s.threadIssue p.1 l gi w k

/-- Integer instructions (Table 5.5). -/
theorem issues_of_mem_integer : ∀ p ∈ threadOps.take 20, Issues p := by
  simp only [threadOps, Issues, List.cons_append, List.nil_append, List.take_succ_cons, List.take_zero,
    List.forall_mem_cons, List.not_mem_nil, false_implies, implies_true, and_true]
  and_intros
  all_goals
    intro l gi w s
    unfold exec
    simp only [State.intOp, execNop, execIadd, execIsub, execImul, execImulhi, execImad, execIdiv, execIrem, execImin, execImax,
      execIabs, execBlut, execShl, execShr, execPopc, execClz, execBrev, execBfe, execBfi, execMov]
    exact ⟨_, rfl⟩

/-- Floating-point instructions and conversions (Tables 5.6 and 5.7). -/
theorem issues_of_mem_float : ∀ p ∈ (threadOps.drop 20).take 24, Issues p := by
  simp only [threadOps, Issues, List.cons_append, List.nil_append, List.drop_succ_cons, List.drop_zero, List.take_succ_cons,
    List.take_zero, List.forall_mem_cons, List.not_mem_nil, false_implies, implies_true, and_true]
  and_intros
  all_goals
    intro l gi w s
    unfold exec
    simp only [State.floatOp, execFadd, execFmul, execFfma, execFmin, execFmax, execFrcp, execFrsq, execFsqrt, execFexp2,
      execFlog2, execFsin, execFcos, execHadd2, execHmul2, execHfma2, execHmin2, execHmax2, execCvt, execCvti, execCvtx,
      execMxscale, execCvts, execPack6, execUnpk6]
    exact ⟨_, rfl⟩

/-- Instructions of predicates, control, memory, lanes, synchronisation and the rest (Tables 5.8 to 5.11). -/
theorem issues_of_mem_rest : ∀ p ∈ (threadOps.drop 20).drop 24, Issues p := by
  simp only [threadOps, Issues, List.cons_append, List.nil_append, List.drop_succ_cons, List.drop_zero,
    List.forall_mem_cons, List.not_mem_nil, false_implies, implies_true, and_true]
  and_intros
  all_goals
    intro l gi w s
    unfold exec
    exact ⟨_, rfl⟩

theorem issues_of_mem_threadOps {p : Nat × (CoreId → GroupId → TWord → Instr)} (h : p ∈ threadOps) : Issues p := by
  rw [← List.take_append_drop 20 threadOps, ← List.take_append_drop 24 (threadOps.drop 20), List.mem_append, List.mem_append] at h
  rcases h with h | h | h
  · exact issues_of_mem_integer p h
  · exact issues_of_mem_float p h
  · exact issues_of_mem_rest p h

end Sys2Proof.Machine

open Sys2Proof Sys2Proof.Machine

/-- Settles O20: every thread instruction begins with the checks of `threadIssue`. That a word which cannot issue has no effect, and
which words the verifier rejects, are the model's choices (log entries 37, 38 and 45). -/
theorem malformedAndIdleThreadWordsDoNothing : Obligations.MalformedAndIdleThreadWordsDoNothing := by
  unfold Obligations.MalformedAndIdleThreadWordsDoNothing
  intro p hp s l gi w
  obtain ⟨k, hexec⟩ := issues_of_mem_threadOps hp l gi w s
  rw [hexec]
  exact ⟨State.threadIssue_absent k, fun g b hg hb =>
    ⟨State.threadIssue_idle k hg hb, State.threadIssue_elsewhere k hg hb, State.threadIssue_malformed k hg hb⟩⟩
end

section
/-!
Integer instructions of Table 5.5: the bit operations of the model against those of the statements (R100, R130, R132, R133).
-/

namespace Sys2Proof.Machine

open Sys2Proof

variable {s : State} {l : CoreId} {gi : GroupId} {w : TWord} {g : Group} {b : Block}

/-! ### Bits of a word -/

theorem getLsbD_bitsFrom {n : Nat} (f : Nat → Bool) {k : Nat} (hk : k < n) : (bitsFrom n f).getLsbD k = f k := by
  have upTo : ∀ (is : List Nat) (r : BitVec n), (is.foldl (fun r i => if f i then r ||| BitVec.twoPow n i else r) r).getLsbD k =
      (r.getLsbD k || (decide (k ∈ is) && f k)) := by
    intro is
    induction is with
    | nil => simp
    | cons a is ih =>
      intro r
      rw [List.foldl_cons, ih]
      by_cases hak : a = k
      · subst hak
        cases hf : f a <;> simp [hk]
      · cases hf : f a <;> simp [BitVec.getLsbD_twoPow, hak, Ne.symm hak]
  rw [bitsFrom, upTo]
  simp [hk]

theorem reverseBits_eq_reverse (n : Nat) (x : BitVec n) : reverseBits n x = x.reverse := by
  refine BitVec.eq_of_getLsbD_eq fun k hk => ?_
  rw [reverseBits, getLsbD_bitsFrom _ hk, BitVec.getLsbD_reverse, BitVec.getMsbD_eq_getLsbD]
  simp [hk]

theorem popcount_eq_length_filter (x n : Nat) : popcount x n = ((List.range n).filter fun i => x.testBit i).length := by
  induction n with
  | zero => rfl
  | succ n ih =>
    rw [popcount, ih, List.range_succ, List.filter_append, List.length_append, Nat.shiftRight_eq_div_pow, ← Nat.toNat_testBit]
    cases h : x.testBit n <;> simp [h]

theorem countOnes_eq_length_filter (n : Nat) (x : BitVec n) :
    countOnes n x = BitVec.ofNat n ((List.range n).filter fun i => x.getLsbD i).length := by
  simp only [countOnes, popcount_eq_length_filter, BitVec.testBit_toNat]

/-- The numbers below `n` up to the first one, `k`, at which `p` fails. -/
theorem length_takeWhile_range {n k : Nat} {p : Nat → Bool} (hk : k ≤ n) (hbelow : ∀ i, i < k → p i = true)
    (hat : k < n → p k = false) : ((List.range n).takeWhile p).length = k := by
  obtain ⟨m, rfl⟩ := Nat.exists_eq_add_of_le hk
  rw [List.range_add, List.takeWhile_append_of_pos fun i hi => hbelow i (List.mem_range.1 hi), List.length_append,
    List.length_range]
  cases m with
  | zero => rfl
  | succ m => simp [List.range_succ_eq_map, hat (by omega)]

/-- Zeros are counted down to the highest bit that is set. -/
theorem countZeros_eq_length_takeWhile (n : Nat) (x : BitVec n) :
    countZeros n x = BitVec.ofNat n ((List.range n).takeWhile fun i => !x.getLsbD (n - 1 - i)).length := by
  unfold countZeros
  congr 1
  simp only [← BitVec.testBit_toNat]
  by_cases h0 : x.toNat = 0
  · rw [if_pos h0]
    exact (length_takeWhile_range (Nat.le_refl n) (fun i _ => by simp [h0]) (fun h => absurd h (Nat.lt_irrefl n))).symm
  · rw [if_neg h0]
    have htop : x.toNat.log2 < n := (Nat.log2_lt h0).2 x.isLt
    refine (length_takeWhile_range (by omega) (fun i hi => ?_) (fun _ => ?_)).symm
    · have hhigh : x.toNat < 2 ^ (n - 1 - i) := (Nat.log2_lt h0).1 (by omega)
      simp [Nat.testBit_lt_two_pow hhigh]
    · rw [show n - 1 - (n - 1 - x.toNat.log2) = x.toNat.log2 by omega]
      simp [Nat.testBit_log2 h0]

/-! ### The effect of an integer instruction -/

/-- A word that computes a value in each acting lane writes its destination, and its group alone has changed. -/
theorem computes_of_exec {i : Instr} {op : Nat} {wide : Bool} {f : IntOp} (hrun : Runs s op l gi w g b)
    (hexec : exec i s = s.threadIssue op l gi w fun s g _ => .next (s.compute l gi w g wide (f.lane w g wide))) :
    ∃ t h, exec i s = .next t ∧ OnlyGroup s t l gi ∧ t.group l gi = some h ∧ Wrote w g h wide (f.lane w g wide) := by
  obtain ⟨h, hgroup, hwrote, honly⟩ := (s.countIssue l g).compute_wrote l gi w g wide (f.lane w g wide)
  exact ⟨_, h, hexec.trans (s.threadIssue_runs _ hrun), honly.ofIssue, hgroup, hwrote⟩

end Sys2Proof.Machine

open Sys2Proof Sys2Proof.Machine

/-- Settles O22: each instruction computes the operation that Table 5.5 names, by the equations above where the model spells it
otherwise. A field that leaves the operand is free (log entry 18). -/
theorem integerBitsAndCopies : Obligations.IntegerBitsAndCopies := by
  unfold Obligations.IntegerBitsAndCopies
  intro s l gi w g b
  refine ⟨fun hrun => ?_, ?_⟩
  · have hexec : exec (.nop l gi w) s = execNop l gi w s := rfl
    rw [hexec, execNop, s.threadIssue_runs _ hrun]
    exact ⟨_, rfl, (State.onlyGroup_finish ..).ofIssue, State.finish_group ..⟩
  simp only [← countOnes_eq_length_filter, ← countZeros_eq_length_takeWhile, ← reverseBits_eq_reverse]
  and_intros
  all_goals exact fun hrun => computes_of_exec hrun rfl
end

section
/-!
A state in which the EXIT of a group's last threads does not leave the control core as it was. The block that ends makes a trace
record (R396), which is a write of the vector engine to the trace ring of its partition; a write to a line cancels every reservation
on it (R78), and the control core of the same core may hold one there.
-/

namespace Sys2Proof.Machine

open Sys2Proof

/-! ### The counterexample -/

/-- A kernel of 16 bytes at partition address 0x1000, with 16 registers. -/
def exitBlock : Block :=
  { core := 5, slot := 0, st := .resident, index := 0, publisher := 5, pslot := 0, gen := 0, lmSize := 0, groups := [7], span := 0
    body := BitVec.ofNat 448 (0x1000 + 16 <<< 64 + 16 <<< 200) }

def exitGroup : Group := { block := 0, gi := 0 }
def exitWord : TWord := { srcA := 0, srcB := 0, srcC := 0 }

/-- Every power domain is ON. The vector engine of core 5 traces into a ring of one record at partition address 0, which lies at
0x2000, and the core's control core holds a reservation there. -/
def exitState : State :=
  { State.reset with
    regs := (List.range 49).map fun d => (({ name := .MOD_PWR_STATE, i := d } : RegRef).key, 2)
    cfg := { parts := [(3, some evictPart)], interleave := evictState.cfg.interleave }
    parts := [(3, { pinned := [{ start := 0, len := 0x2000, target := 0x2000 }] })]
    modes := [(modeKey 0 (.ve 5), (0, 0x800))]
    obsBudget := 32
    clusters := [(0, { blocks := [(0, some exitBlock)] })]
    cores := [(5, { cc := { resv := some (0x2000, 4) }, ve := { groups := [(7, some exitGroup)] } })] }.store 0x3000
    (leBytes 8 (exitWord.encode 0x103).toNat)

theorem runs_exitWord : Runs exitState 0x103 5 7 exitWord exitGroup exitBlock := by
  unfold Runs
  decide +kernel

/-- The group ends with all of its threads, its block with it, and the record of that takes the reservation. -/
theorem resv_exitState : (((exitState.countIssue 5 exitGroup).dropGroup 5 7).releaseBarrier 5 0 0).cc 5 ≠ exitState.cc 5 := by
  decide +kernel

end Sys2Proof.Machine

open Sys2Proof Sys2Proof.Machine

/-- Refutes O29: in `exitState` the EXIT of the only group's threads ends its block, and the trace record of that end cancels the
reservation of the control core, which the statement has stay as it was. -/
theorem not_controlFlowOfGroups : ¬ Obligations.ControlFlowOfGroups := by
  intro hall
  obtain ⟨-, -, -, -, hexit, -⟩ := hall exitState 5 7 exitWord exitGroup exitBlock
  obtain ⟨-, hlast⟩ := hexit runs_exitWord (by decide) (by decide) rfl
  obtain ⟨t, hexec, -, hcc⟩ := hlast (by decide)
  have hrun : exec (.exit 5 7 exitWord) exitState = execExit 5 7 exitWord exitState := rfl
  rw [hrun, execExit, exitState.threadIssue_runs _ runs_exitWord] at hexec
  obtain rfl := Host.Outcome.next.inj hexec
  exact resv_exitState hcc
end

section
/-!
A state in which an LDG does not end as O33 says. R222 and R223 let a slice serve a line that it holds while the power domain of the
line's stack is not ON (R366), so every address of an LDG can be reached before its first lane reads and one of them be asleep after
it: the read allocates its line, and in a set of one way that gives up the line of a later lane.
-/

namespace Sys2Proof.Machine

open Sys2Proof

/-! ### The counterexample -/

/-- A kernel of 16 bytes at partition address 0x2000, with 16 registers. -/
def ldgBlock : Block :=
  { core := 5, slot := 0, st := .resident, index := 0, publisher := 5, pslot := 0, gen := 0, lmSize := 0, groups := [7], span := 0
    body := BitVec.ofNat 448 (0x2000 + 16 <<< 64 + 16 <<< 200) }

/-- Lanes 0 and 1 are active, with 0 and `evictDst` in the pair v0. -/
def ldgGroup : Group := { block := 0, gi := 0, active := 3, live := 3, v := [(1, BitVec.ofNat 32 evictDst)] }

/-- `ldg.b32.byp v4, v0, 0`. -/
def ldgWord : TWord := { dst := 4, srcA := 0, srcB := 0, bcls := 2, srcC := 0, opx := 12 }

/-- The state of `evictState` with a group of core 5 whose partition addresses are local ones, all in an arena of its span. -/
def ldgState : State :=
  { evictState.setReg .CORE_SPAN_COUNT 5 0 1 with
    parts := [(3, { pinned := [{ start := 0, len := 2 ^ 30, target := 0 }] })]
    clusters := [(0, { blocks := [(0, some ldgBlock)] })]
    cores := [(5, { arenas := [{ base := 0, len := 2 ^ 30, virt := false, ctx := 255 }], spanCache := [(0, 1, 1)]
                    ve := { groups := [(7, some ldgGroup)] } })] }.store 0x2000 (leBytes 8 (ldgWord.encode 0x180).toNat)

/-- Where the two lanes' addresses lie. -/
def ldgTarget (k : Nat) : Nat := if k = 0 then 0 else evictDst

theorem plain_ldgState : Plain ldgState := ⟨rfl, rfl, fun _ => rfl⟩

theorem runs_ldgWord : Runs ldgState 0x180 5 7 ldgWord ldgGroup ldgBlock := by
  unfold Runs
  decide +kernel

/-- Both lanes pass their checks, and both targets are awake. -/
theorem ldgState_reaches : ∀ k ∈ ldgWord.acting ldgGroup,
    ldgState.globalFault 5 ldgBlock (ldgWord.addrG ldgGroup k) 4 false false = none ∧
      ldgState.pinnedPieces 3 (ldgWord.addrG ldgGroup k) 4 = some [(ldgTarget k, 4)] ∧
      ldgState.remoteOf (ldgTarget k) = none ∧ ldgState.isMemoryRange (ldgTarget k) 4 = true ∧
      ldgState.homesAsleep (ldgTarget k) 4 = false := by decide +kernel

theorem partOf_ldgState : ldgState.partOf 5 = some 3 := by decide +kernel

/-- The first lane's read takes the slice's one way, and the group stays at its instruction. -/
theorem waits_ldgGroup : (match exec (.ldg 5 7 ldgWord) ldgState with
    | .next t => (t.group 5 7).map (·.pc)
    | _ => none) = some 0 := by decide +kernel

end Sys2Proof.Machine

open Sys2Proof Sys2Proof.Machine

/-- Refutes O33: both lanes of the LDG in `ldgState` reach memory that is awake, but the first one's read evicts the second one's
line from the Hearth, that line's stack is OFF, and the group does not go on. -/
theorem not_globalMemoryOfGroups : ¬ Obligations.GlobalMemoryOfGroups := by
  intro hall
  obtain ⟨hldg, -⟩ := hall ldgState 5 7 ldgWord ldgGroup ldgBlock
  obtain ⟨hloads, -⟩ := hldg runs_ldgWord
  obtain ⟨t, h, hexec, -, -, hgroup, -, hloaded, -⟩ := hloads ldgTarget plain_ldgState (by decide) rfl fun k hk =>
    ⟨(ldgState_reaches k hk).1, fun p hp => by
      obtain rfl := Option.some.inj (partOf_ldgState.symm.trans hp)
      exact (ldgState_reaches k hk).2⟩
  obtain ⟨hadvanced, -⟩ := hloaded (by decide)
  have hpc : h.pc = 8 := by
    rw [hadvanced]
    rfl
  have hwaits := waits_ldgGroup
  rw [hexec] at hwaits
  dsimp only at hwaits
  rw [show t.group 5 7 = some h from hgroup, Option.map_some, hpc] at hwaits
  exact absurd hwaits (by decide)
end

section
/-!
What the memory instructions of a group share: the first lane that fails, the bytes that lanes store, the registers that they load,
and what stays as it was (R117, R120, R132, R146, R147, R158).
-/

namespace Sys2Proof.Machine

open Sys2Proof

variable {s t u v : State} {l : CoreId} {gi : GroupId} {w : TWord} {g : Group} {b : Block}

/-! ### Lanes and their faults (R158) -/

theorem acting_sorted (w : TWord) (g : Group) : (w.acting g).Pairwise (· < ·) := (List.pairwise_lt_range.filter _).filter _

theorem accessLanes_sorted (w : TWord) (g : Group) : (accessLanes w g).Pairwise (· < ·) := by
  unfold accessLanes
  split
  · exact (acting_sorted w g).sublist (List.take_sublist 1 _)
  · exact acting_sorted w g

/-- Where a rising list is cut, what stands before is less and what stands behind is greater. -/
theorem sorted_cut {pre post : List Nat} {k : Nat} (h : (pre ++ k :: post).Pairwise (· < ·)) :
    (∀ j ∈ pre, j < k) ∧ ∀ j ∈ post, k < j := by
  obtain ⟨-, hpost, hpre⟩ := List.pairwise_append.1 h
  exact ⟨fun j hj => hpre j hj k List.mem_cons_self, (List.pairwise_cons.1 hpost).1⟩

theorem firstFault_eq_none {lanes : List Nat} {f : Nat → Option (Nat × Nat)} :
    firstFault lanes f = none ↔ ∀ k ∈ lanes, f k = none := by
  simp [firstFault]

theorem firstFault_eq_some {lanes : List Nat} {f : Nat → Option (Nat × Nat)} {k : Nat} {x : Nat × Nat}
    (hsorted : lanes.Pairwise (· < ·)) (hk : k ∈ lanes) (hx : f k = some x) (hbefore : ∀ j ∈ lanes, j < k → f j = none) :
    firstFault lanes f = some (k, x.1, x.2) := by
  obtain ⟨pre, post, rfl⟩ := List.append_of_mem hk
  have hpre : firstFault pre f = none :=
    firstFault_eq_none.2 fun j hj => hbefore j (List.mem_append_left _ hj) ((sorted_cut hsorted).1 j hj)
  unfold firstFault at *
  rw [List.findSome?_append, hpre, Option.none_or, List.findSome?_cons, hx]
  rfl

/-- The code with which an access of a block's local memory fails. -/
def localCode (b : Block) (a n : Nat) : Option Nat :=
  if a % n ≠ 0 then some 4 else if b.lmSize < a + n then some 3 else none

theorem localFault_eq (b : Block) (a n : Nat) : localFault b a n = (localCode b a n).map fun c => (c, a) := by
  unfold localFault localCode
  split
  · rfl
  · split <;> rfl

section

variable {lanes : List Nat} {f : Nat → Option (Nat × Nat)} {code : Nat → Option Nat} {a : Nat → Nat}

/-- No lane fails when none has a code. -/
theorem firstFault_of_codes (hf : ∀ k, f k = (code k).map fun c => (c, a k)) (h : ∀ k ∈ lanes, code k = none) :
    firstFault lanes f = none :=
  firstFault_eq_none.2 fun k hk => by rw [hf, h k hk]; rfl

/-- The lowest lane with a code is the one that fails. -/
theorem firstFault_of_code {k c : Nat} (hf : ∀ k, f k = (code k).map fun c => (c, a k)) (hsorted : lanes.Pairwise (· < ·))
    (hk : k ∈ lanes) (hcode : code k = some c) (hbefore : ∀ j ∈ lanes, j < k → code j = none) :
    firstFault lanes f = some (k, c, a k) :=
  firstFault_eq_some (x := (c, a k)) hsorted hk (by rw [hf, hcode]; rfl) fun j hj hlt => by rw [hf, hbefore j hj hlt]; rfl

end

/-- An instruction that ends in a group fault halts its group. -/
theorem halts_of_exec {i : Instr} {c k a : Nat} (h : exec i s = .next ((s.countIssue l g).groupFault l gi g b c k a)) :
    ∃ t, exec i s = .next t ∧ Halts s t l gi g c :=
  ⟨_, h, (State.halts_groupFault ..).ofIssue (s.issued_countIssue l g)⟩

/-! ### What an access leaves -/

/-- The states differ in memory and the byte counters at most. -/
def OnlyMemory (s t : State) : Prop := t = { s with counts := t.counts, mem := t.mem, lost := t.lost }

theorem OnlyMemory.refl (s : State) : OnlyMemory s s := rfl
theorem OnlyMemory.trans (h : OnlyMemory s t) (k : OnlyMemory t u) : OnlyMemory s u := by
  unfold OnlyMemory at *
  rw [k, h]
theorem State.onlyMemory_store (s : State) (a : Nat) (bs : List Byte) : OnlyMemory s (s.store a bs) := by
  unfold OnlyMemory
  rw [State.store_frame]
theorem OnlyCounts.onlyMemory (h : OnlyCounts s t) : OnlyMemory s t := by
  unfold OnlyMemory
  rw [h]

/-- What keeps memory's frame at every turn of a fold keeps it over the fold. -/
theorem onlyMemory_foldl {τ : Type} {f : State → τ → State} (hf : ∀ s q, OnlyMemory s (f s q)) (ts : List τ) (s : State) :
    OnlyMemory s (ts.foldl f s) :=
  foldl_keeps (OnlyMemory s) f (fun u q h => h.trans (hf u q)) ts s (OnlyMemory.refl s)

/-- An instruction that has issued, moved bytes of memory, and left its group as `x`. -/
theorem group_after_access {x : Option Group} (hissued : Issued s v l) (hmem : OnlyMemory v u)
    (hcount : OnlyCounts (u.setGroup l gi x) t) :
    OnlyGroupAndMemory s t l gi ∧ t.group l gi = x ∧ SameBytes u t := by
  obtain ⟨⟨hframe, hcores, hbytes⟩, hcore, hgroups⟩ := onlyGroup_setGroup u l gi x
  have hgroup := u.group_setGroup_same l gi x
  generalize u.setGroup l gi x = y at *
  have huv : ∀ k, u.core k = v.core k := fun k => by rw [hmem]; rfl
  have hty : ∀ k, t.core k = y.core k := fun k => by rw [hcount]; rfl
  have hgv : ∀ k, u.group l k = s.group l k := fun k => by rw [State.group, huv, hissued.ve]; rfl
  have hgt : ∀ k, t.group l k = y.group l k := fun k => by rw [State.group, hty]; rfl
  refine ⟨⟨?_, fun k hk => ?_, ?_, fun k hk => ?_⟩, (hgt gi).trans hgroup, hbytes.trans hcount.sameBytes⟩
  · rw [hcount, hframe, hmem, hissued.frame]
  · rw [hty, hcores k hk, huv, hissued.others k hk]
  · rw [hty, hcore, huv, hissued.core]
  · rw [hgt, hgroups k hk, hgv]

theorem OnlyMemory.onlyGroupAndMemory {l gi : Nat} (h : OnlyMemory s u) (k : OnlyGroupAndMemory u t l gi) :
    OnlyGroupAndMemory s t l gi := by
  obtain ⟨hframe, hcores, hcore, hgroups⟩ := k
  have hsu : ∀ c, u.core c = s.core c := fun c => by rw [h]; rfl
  refine ⟨?_, fun c hc => (hcores c hc).trans (hsu c), ?_, fun c hc => (hgroups c hc).trans ?_⟩
  · rw [hframe, h]
  · rw [hcore, hsu]
  · rw [State.group, hsu]; rfl

/-! ### Bytes that lanes store (R120, R147) -/

section

variable {τ : Type} (addr : τ → Nat) (bs : τ → List Byte) {x : Nat}

theorem byte_foldl_store_other (ts : List τ) (s : State) (h : ∀ q ∈ ts, x < addr q ∨ addr q + (bs q).length ≤ x) :
    (ts.foldl (fun s q => s.store (addr q) (bs q)) s).byte x = s.byte x := by
  induction ts generalizing s with
  | nil => rfl
  | cons q ts ih =>
    rw [List.foldl_cons, ih _ fun p hp => h p (List.mem_cons_of_mem _ hp)]
    exact s.byte_store_other _ _ _ (h q List.mem_cons_self)

/-- Of the stores that reach a byte, made by rising lane, the one that alone comes from the highest lane stays. -/
theorem byte_foldl_store_highest (lane : τ → Nat) {p : τ} (hlo : addr p ≤ x) (hhi : x < addr p + (bs p).length) :
    ∀ (ts : List τ) (s : State), ts.Pairwise (fun q r => lane q ≤ lane r) → p ∈ ts →
      (∀ q ∈ ts, addr q ≤ x → x < addr q + (bs q).length → lane q < lane p ∨ q = p) →
      (ts.foldl (fun s q => s.store (addr q) (bs q)) s).byte x = (bs p).getD (x - addr p) 0 := by
  intro ts
  induction ts with
  | nil => intro _ _ h; cases h
  | cons q ts ih =>
    intro s hsorted hp hhighest
    obtain ⟨hq, hsorted⟩ := List.pairwise_cons.1 hsorted
    rw [List.foldl_cons]
    by_cases hmem : p ∈ ts
    · exact ih _ hsorted hmem fun r hr => hhighest r (List.mem_cons_of_mem _ hr)
    · obtain rfl : p = q := (List.mem_cons.1 hp).resolve_right hmem
      have hlater : ∀ r ∈ ts, x < addr r ∨ addr r + (bs r).length ≤ x := fun r hr => by
        by_contra hreach
        rcases hhighest r (List.mem_cons_of_mem _ hr) (by omega) (by omega) with hless | rfl
        · exact absurd (hq r hr) (by omega)
        · exact hmem hr
      rw [byte_foldl_store_other _ _ _ _ hlater, State.byte_store, if_pos ⟨hlo, hhi⟩]

end

/-- The stores of a group's lanes, in rising order of lane (R120). -/
def State.storeActing (s : State) (w : TWord) (g : Group) (at_ : Nat → Nat) : State :=
  (w.acting g).foldl (fun s k => s.store (at_ k) (w.storeBytes g (w.opxBits 2 0) k)) s

theorem length_storeBytes (w : TWord) (g : Group) (width lane : Nat) : (w.storeBytes g width lane).length = memBytes width := by
  unfold TWord.storeBytes
  split
  case isTrue h => subst h; simp [List.length_flatMap, length_leBytes, memBytes]
  case isFalse => exact length_leBytes ..

theorem byte_storeActing_other {at_ : Nat → Nat} {x : Nat}
    (h : ∀ k ∈ w.acting g, x < at_ k ∨ at_ k + memBytes (w.opxBits 2 0) ≤ x) : (s.storeActing w g at_).byte x = s.byte x :=
  byte_foldl_store_other _ _ _ _ fun k hk => by rw [length_storeBytes]; exact h k hk

theorem byte_storeActing_highest {at_ : Nat → Nat} {k i : Nat} (hk : k ∈ w.acting g) (hi : i < memBytes (w.opxBits 2 0))
    (hlast : ∀ j ∈ w.acting g, k < j → at_ k + i < at_ j ∨ at_ j + memBytes (w.opxBits 2 0) ≤ at_ k + i) :
    (s.storeActing w g at_).byte (at_ k + i) = (w.storeBytes g (w.opxBits 2 0) k).getD i 0 := by
  have hbyte := byte_foldl_store_highest at_ (w.storeBytes g (w.opxBits 2 0)) (p := k) (x := at_ k + i) id
    (by omega) (by rw [length_storeBytes]; omega) (w.acting g) s ((acting_sorted w g).imp Nat.le_of_lt) hk
    fun j hj hlo hhi => by
      rw [length_storeBytes] at hhi
      rcases Nat.lt_trichotomy j k with hlt | rfl | hgt
      · exact .inl hlt
      · exact .inr rfl
      · exact absurd (hlast j hj hgt) (by omega)
  rw [Nat.add_sub_cancel_left] at hbyte
  exact hbyte

/-! ### Registers that lanes load (R146) -/

/-- What stands in a register after several writes, in each of which the same value would stand there. -/
theorem vreg_foldl_putV {τ : Type} (reg lane : τ → Nat) (val : τ → W32) {r k : Nat} (hr : r < 255) (hk : k < 32) {x : W32} :
    ∀ (ts : List τ) (g : Group), (∀ q ∈ ts, lane q < 32) → (∀ q ∈ ts, reg q = r → lane q = k → val q = x) →
      (ts.foldl (fun g q => g.putV (reg q) (lane q) (val q)) g).vreg r k =
        if ∃ q ∈ ts, reg q = r ∧ lane q = k then x else g.vreg r k := by
  intro ts
  induction ts with
  | nil => simp
  | cons q ts ih =>
    intro g hlanes hval
    rw [List.foldl_cons, ih _ (fun p hp => hlanes p (List.mem_cons_of_mem _ hp)) fun p hp => hval p (List.mem_cons_of_mem _ hp),
      Group.vreg_putV _ _ _ _ _ _ hr (hlanes q List.mem_cons_self) hk]
    by_cases hq : reg q = r ∧ lane q = k
    · rw [if_pos (show r = reg q ∧ k = lane q from ⟨hq.1.symm, hq.2.symm⟩), hval q List.mem_cons_self hq.1 hq.2, ite_self,
        if_pos ⟨q, List.mem_cons_self, hq⟩]
    · rw [if_neg (show ¬(r = reg q ∧ k = lane q) from fun h => hq ⟨h.1.symm, h.2.symm⟩)]
      simp only [List.mem_cons, exists_eq_or_imp, hq, false_or]

theorem foldl_putV_frame {τ : Type} (reg lane : τ → Nat) (val : τ → W32) (ts : List τ) (g : Group) :
    ts.foldl (fun g q => g.putV (reg q) (lane q) (val q)) g =
      { g with v := (ts.foldl (fun g q => g.putV (reg q) (lane q) (val q)) g).v } :=
  foldl_keeps (fun h : Group => h = { g with v := h.v }) _ (fun h q e => by
    rw [Group.putV_frame, e]) ts g rfl

theorem launchFld_one_lt (body : BitVec 448) {off : Nat} (h : 72 ≤ off) : launchFld body off 1 < 256 := by
  unfold launchFld bitsOf
  rw [show 8 * (off - 72 + 1) - 1 + 1 - 8 * (off - 72) = 8 by omega]
  exact Nat.mod_lt _ (by decide)

/-- A word that the verifier accepts where its form names a destination of size `sz`: for four registers it is a run of vector
registers (R130). -/
theorem quad_of_dstOk {n : Nat} {f : TForm} (h : dstOk n w f = true) (hd : f.d = .reg .quad) :
    w.ud = false ∧ w.dst.toNat + 3 < n := by
  unfold dstOk at h
  rw [hd] at h
  cases hu : w.ud <;> simp_all [vecCode]

theorem form_of_wordOk {op n len : Nat} (h : wordOk op n len w = true) :
    ∃ f, tform op w = some f ∧ f.opx = true ∧ dstOk n w f = true := by
  unfold wordOk at h
  cases hf : tform op w with
  | none => simp [hf] at h
  | some f =>
    simp only [hf, TForm.ok, Bool.and_eq_true] at h
    exact ⟨f, rfl, h.1.1.1.1.1, h.1.1.1.1.2⟩

/-- The widths and destinations of the loads of local memory and of windows (R146). -/
theorem load_form {op : Nat} (hop : op = 0x140 ∨ op = 0x184) (hrun : Runs s op l gi w g b) :
    w.opxBits 2 0 ≤ 6 ∧ (w.opxBits 2 0 = 6 → w.ud = false ∧ w.dst.toNat + 3 < 255) := by
  obtain ⟨-, -, -, -, hword⟩ := hrun
  obtain ⟨f, hf, hopx, hdst⟩ := form_of_wordOk hword
  have hshape : f.opx = (opxIn w 0x007 && decide (w.opxBits 2 0 ≤ 6)) ∧ f.d = .reg (memSize (w.opxBits 2 0)) := by
    rcases hop with rfl | rfl <;> (obtain rfl := Option.some.inj hf; exact ⟨rfl, rfl⟩)
  obtain ⟨hbits, hd⟩ := hshape
  rw [hbits, Bool.and_eq_true, decide_eq_true_eq] at hopx
  refine ⟨hopx.2, fun h6 => ?_⟩
  obtain ⟨hud, hlast⟩ := quad_of_dstOk hdst (by rw [hd, h6]; rfl)
  have := launchFld_one_lt b.body (off := 97) (by omega)
  exact ⟨hud, by omega⟩

/-- A load of fewer than 64 bits clears the upper half. -/
theorem low32_loadedVal {width : Nat} {bs : List Byte} (hwidth : width < 5) (hlen : bs.length = memBytes width) :
    low32 (loadedVal width bs) = loadedVal width bs := by
  have hlow : ∀ x : W64, low32 (low32 x) = low32 x := fun x => by simp [low32]
  have hsmall : ofLe bs < 2 ^ 32 := by
    refine (ofLe_lt bs).trans_le ?_
    rw [hlen]
    interval_cases width <;> decide
  have hword : low32 (BitVec.ofNat 64 (ofLe bs)) = BitVec.ofNat 64 (ofLe bs) := by
    apply BitVec.eq_of_toNat_eq
    simp only [low32, BitVec.toNat_setWidth, BitVec.toNat_ofNat]
    omega
  unfold loadedVal
  interval_cases width
  · exact hword
  · exact hlow _
  · exact hword
  · exact hlow _
  · exact hword

section

variable {width : Nat} {f : Nat → List Byte}

/-- A load of up to 64 bits writes its destination as an instruction that computes the loaded value does. -/
theorem foldl_putLoad_eq_writeD (hwidth : width < 6) (hlen : ∀ k, (f k).length = memBytes width) :
    (accessLanes w g).foldl (fun g' k => w.putLoad width k (f k) g') g =
      w.writeD (decide (width = 5)) (w.acting g) (fun k => loadedVal width (f k)) g := by
  have hnarrow : width ≠ 6 := by omega
  unfold accessLanes TWord.writeD
  cases hu : w.ud
  · simp only [TWord.putLoad, hu, hnarrow, if_false, Bool.false_eq_true]
    rfl
  · simp only [if_true]
    cases w.acting g with
    | nil => rfl
    | cons k ks =>
      simp only [List.take_succ_cons, List.take_zero, List.foldl_cons, List.foldl_nil, TWord.putLoad, hu, hnarrow,
        if_false, if_true]
      by_cases h5 : width = 5
      · simp [h5]
      · rw [if_neg (by simp [h5]), low32_loadedVal (by omega) (hlen k)]

/-- The group after a load that found the bytes `f k` for each lane. -/
theorem loaded_foldl_putLoad (hwidth : width ≤ 6) (hquad : width = 6 → w.ud = false ∧ w.dst.toNat + 3 < 255)
    (hlen : ∀ k, (f k).length = memBytes width) :
    Loaded w g (((accessLanes w g).foldl (fun g' k => w.putLoad width k (f k) g') g).advance w) width f := by
  refine ⟨fun h6 => ?_, fun h6 => ?_⟩
  · rw [foldl_putLoad_eq_writeD (by omega) hlen]
    exact wrote_writeD ..
  · subst h6
    obtain ⟨hud, hdst⟩ := hquad rfl
    have hflat : (accessLanes w g).foldl (fun g' k => w.putLoad 6 k (f k) g') g =
        ((w.acting g).flatMap fun k => (List.range 4).map fun i => (k, i)).foldl
          (fun g' q => g'.putV (w.dst.toNat + q.2) q.1 (BitVec.ofNat 32 (fieldLe (f q.1) (4 * q.2) 4))) g := by
      rw [List.foldl_flatMap]
      simp only [List.foldl_map, accessLanes, hud, TWord.putLoad, if_true, Bool.false_eq_true, if_false]
    rw [hflat]
    refine ⟨?_, fun r lane hr hl => ?_⟩
    · rw [foldl_putV_frame]
      rfl
    · have hmem : ∀ q ∈ (w.acting g).flatMap fun k => (List.range 4).map fun i => (k, i), q.1 ∈ w.acting g ∧ q.2 < 4 := by
        simp only [List.mem_flatMap, List.mem_map, List.mem_range]
        rintro _ ⟨k, hk, i, hi, rfl⟩
        exact ⟨hk, hi⟩
      refine (vreg_foldl_putV _ _ _ hr hl _ g (fun q hq => acting_lt (hmem q hq).1)
        (x := BitVec.ofNat 32 (fieldLe (f lane) (4 * (r - w.dst.toNat)) 4)) fun q _ hreg hlane => ?_).trans ?_
      · rw [← hreg, ← hlane, Nat.add_sub_cancel_left]
      · refine if_congr ⟨?_, ?_⟩ rfl rfl
        · rintro ⟨q, hq, hreg, rfl⟩
          exact ⟨(hmem q hq).1, by omega, by have := (hmem q hq).2; omega⟩
        · rintro ⟨hlane, hlo, hhi⟩
          refine ⟨(lane, r - w.dst.toNat), ?_, by simp only; omega, rfl⟩
          simp only [List.mem_flatMap, List.mem_map, List.mem_range]
          exact ⟨lane, hlane, _, by omega, rfl⟩

end

end Sys2Proof.Machine
end

section
/-!
Local loads, stores and atomics of a group (R117, R120, R146, R147, R150, R151).
-/

namespace Sys2Proof.Machine

open Sys2Proof

variable {s t u v : State} {l : CoreId} {gi : GroupId} {w : TWord} {g : Group} {b : Block}

/-! ### Local loads and stores -/

theorem exec_ldl_fault {k c : Nat} (hrun : Runs s 0x140 l gi w g b) (hk : k ∈ accessLanes w g)
    (hcode : localCode b (w.addrL g k) (memBytes (w.opxBits 2 0)) = some c)
    (hbefore : ∀ j ∈ accessLanes w g, j < k → localCode b (w.addrL g j) (memBytes (w.opxBits 2 0)) = none) :
    ∃ t, exec (.ldl l gi w) s = .next t ∧ Halts s t l gi g c := by
  refine halts_of_exec (b := b) (k := k) (a := w.addrL g k) ?_
  have hexec : exec (.ldl l gi w) s = execLdl l gi w s := rfl
  rw [hexec, execLdl, s.threadIssue_runs _ hrun]
  simp only [firstFault_of_code (fun k => localFault_eq b (w.addrL g k) _) (accessLanes_sorted w g) hk hcode hbefore]

theorem exec_ldl (hrun : Runs s 0x140 l gi w g b)
    (hfit : ∀ k ∈ accessLanes w g, localCode b (w.addrL g k) (memBytes (w.opxBits 2 0)) = none) :
    ∃ t h, exec (.ldl l gi w) s = .next t ∧ OnlyGroupAndMemory s t l gi ∧ SameBytes s t ∧ t.group l gi = some h ∧
      Loaded w g h (w.opxBits 2 0) fun k => s.bytes (blockAddr l b (w.addrL g k)) (memBytes (w.opxBits 2 0)) := by
  have hissued := s.issued_countIssue l g
  have hexec : exec (.ldl l gi w) s = execLdl l gi w s := rfl
  rw [hexec, execLdl, s.threadIssue_runs _ hrun]
  simp only [firstFault_of_codes (fun k => localFault_eq b (w.addrL g k) _) hfit, hissued.sameBytes.bytes_eq]
  obtain ⟨hframe, hgroup, hbytes⟩ := group_after_access hissued (OnlyMemory.refl _) (State.onlyCounts_countLocal ..)
  obtain ⟨hwidth, hquad⟩ := load_form (.inl rfl) hrun
  exact ⟨_, _, rfl, hframe, hissued.sameBytes.trans hbytes, hgroup,
    loaded_foldl_putLoad hwidth hquad fun k => s.length_bytes _ _⟩

theorem exec_stl_fault {k c : Nat} (hrun : Runs s 0x141 l gi w g b) (hk : k ∈ w.acting g)
    (hcode : localCode b (w.addrL g k) (memBytes (w.opxBits 2 0)) = some c)
    (hbefore : ∀ j ∈ w.acting g, j < k → localCode b (w.addrL g j) (memBytes (w.opxBits 2 0)) = none) :
    ∃ t, exec (.stl l gi w) s = .next t ∧ Halts s t l gi g c := by
  refine halts_of_exec (b := b) (k := k) (a := w.addrL g k) ?_
  have hexec : exec (.stl l gi w) s = execStl l gi w s := rfl
  rw [hexec, execStl, s.threadIssue_runs _ hrun]
  simp only [firstFault_of_code (fun k => localFault_eq b (w.addrL g k) _) (acting_sorted w g) hk hcode hbefore]

theorem exec_stl (hrun : Runs s 0x141 l gi w g b)
    (hfit : ∀ k ∈ w.acting g, localCode b (w.addrL g k) (memBytes (w.opxBits 2 0)) = none) :
    ∃ t v, exec (.stl l gi w) s = .next t ∧ OnlyGroupAndMemory s t l gi ∧
      t.group l gi = some { g with pc := g.pc + w.bytes, fills := [], status := .ready } ∧ SameBytes s v ∧
      SameBytes (v.storeActing w g fun k => blockAddr l b (w.addrL g k)) t := by
  have hissued := s.issued_countIssue l g
  have hexec : exec (.stl l gi w) s = execStl l gi w s := rfl
  rw [hexec, execStl, s.threadIssue_runs _ hrun]
  simp only [firstFault_of_codes (fun k => localFault_eq b (w.addrL g k) _) hfit]
  obtain ⟨hframe, hgroup, hbytes⟩ := group_after_access hissued
    (onlyMemory_foldl (fun v k => v.onlyMemory_store (blockAddr l b (w.addrL g k)) (w.storeBytes g (w.opxBits 2 0) k))
      (w.acting g) _)
    (State.onlyCounts_countLocal ..)
  exact ⟨_, _, rfl, hframe, hgroup, hissued.sameBytes, hbytes⟩

/-! ### Atomics in ascending lane order (R150, R151) -/

theorem ofLe_leBytes (n v : Nat) : ofLe (leBytes n v) = v % 2 ^ (8 * n) := by
  induction n generalizing v with
  | zero => rw [leBytes, ofLe]; omega
  | succ n ih =>
    rw [leBytes, ofLe, ih, BitVec.toNat_ofNat, show 8 * (n + 1) = 8 + 8 * n by ring, Nat.pow_add, Nat.mod_mul]

theorem State.load_store_same (s : State) (a n v : Nat) : (s.store a (leBytes n v)).load a n = v % 2 ^ (8 * n) := by
  have hbytes := (s.writesBytes_store a (leBytes n v)).bytes_eq
  rw [length_leBytes] at hbytes
  rw [State.load, hbytes, ofLe_leBytes]

theorem State.load_store_other (s : State) (a x n : Nat) (bs : List Byte) (h : x + n ≤ a ∨ a + bs.length ≤ x) :
    (s.store a bs).load x n = s.load x n := by
  refine congrArg ofLe (List.map_congr_left fun k hk => s.byte_store_other _ _ _ ?_)
  have := List.mem_range.1 hk
  omega

/-- One lane's atomic on `m` bytes at `at_ k`: the element takes `f k old`, where the operation stores, and the old value joins
those returned. -/
def atomStep (at_ : Nat → Nat) (m : Nat) (stores : Prop) [Decidable stores] (f : Nat → W64 → W64) (r : State × List (Nat × W64))
    (k : Nat) : State × List (Nat × W64) :=
  let old : W64 := BitVec.ofNat 64 (r.1.load (at_ k) m)
  (if stores then r.1.store (at_ k) (leBytes m (f k old).toNat) else r.1, r.2 ++ [(k, old)])

/-- The old value that a list of lanes and values holds for a lane. -/
def oldOf (olds : List (Nat × W64)) (k : Nat) : W64 := ((olds.find? fun x => x.1 == k).map (·.2)).getD 0

theorem putOlds_eq_writeD {olds : List (Nat × W64)} (wide : Bool) (h : olds.map (·.1) = accessLanes w g) :
    putOlds w wide olds g = w.writeD wide (w.acting g) (oldOf olds) g := by
  unfold putOlds
  rw [h]
  unfold accessLanes TWord.writeD
  cases w.ud
  · rfl
  · cases w.acting g <;> rfl

section

variable {at_ : Nat → Nat} {m : Nat} {stores : Prop} [Decidable stores] {f : Nat → W64 → W64}

theorem atomStep_fst_of_stores (h : stores) (r : State × List (Nat × W64)) (k : Nat) : (atomStep at_ m stores f r k).1 =
    r.1.store (at_ k) (leBytes m (f k (BitVec.ofNat 64 (r.1.load (at_ k) m))).toNat) := if_pos h
theorem atomStep_fst_of_not (h : ¬stores) (r : State × List (Nat × W64)) (k : Nat) :
    (atomStep at_ m stores f r k).1 = r.1 := if_neg h

theorem onlyMemory_atomStep (r : State × List (Nat × W64)) (k : Nat) : OnlyMemory r.1 (atomStep at_ m stores f r k).1 := by
  by_cases h : stores
  · rw [atomStep_fst_of_stores h]; exact r.1.onlyMemory_store _ _
  · rw [atomStep_fst_of_not h]; exact OnlyMemory.refl _

theorem byte_atomStep {x k : Nat} (r : State × List (Nat × W64)) (hx : x < at_ k ∨ at_ k + m ≤ x) :
    (atomStep at_ m stores f r k).1.byte x = r.1.byte x := by
  by_cases h : stores
  · rw [atomStep_fst_of_stores h]; exact r.1.byte_store_other _ _ _ (by rwa [length_leBytes])
  · rw [atomStep_fst_of_not h]

/-- The element that a lane's atomic leaves. -/
theorem load_atomStep_same (hm : 8 * m ≤ 64) (hkeep : ¬stores → ∀ k old, f k old = old) (r : State × List (Nat × W64)) (k : Nat) :
    (atomStep at_ m stores f r k).1.load (at_ k) m = (f k (BitVec.ofNat 64 (r.1.load (at_ k) m))).toNat % 2 ^ (8 * m) := by
  by_cases h : stores
  · rw [atomStep_fst_of_stores h, State.load_store_same]
  · have hlt : r.1.load (at_ k) m < 2 ^ (8 * m) := by
      have := ofLe_lt (r.1.bytes (at_ k) m)
      rwa [State.length_bytes, show 256 = 2 ^ 8 by rfl, ← Nat.pow_mul] at this
    rw [atomStep_fst_of_not h, hkeep h, BitVec.toNat_ofNat, Nat.mod_eq_of_lt (hlt.trans_le (Nat.pow_le_pow_right (by decide) hm)),
      Nat.mod_eq_of_lt hlt]

theorem load_foldl_atomStep_other {x : Nat} (ts : List Nat) (r : State × List (Nat × W64))
    (h : ∀ k ∈ ts, x + m ≤ at_ k ∨ at_ k + m ≤ x) : (ts.foldl (atomStep at_ m stores f) r).1.load x m = r.1.load x m := by
  induction ts generalizing r with
  | nil => rfl
  | cons k ts ih =>
    rw [List.foldl_cons, ih _ fun j hj => h j (List.mem_cons_of_mem _ hj)]
    refine congrArg ofLe (List.map_congr_left fun i hi => byte_atomStep r ?_)
    have := List.mem_range.1 hi
    have := h k List.mem_cons_self
    omega

/-- The lanes whose old values are returned, in order, behind those returned before. -/
theorem olds_foldl_atomStep (ts : List Nat) (r : State × List (Nat × W64)) :
    ∃ olds, (ts.foldl (atomStep at_ m stores f) r).2 = r.2 ++ olds ∧ olds.map (·.1) = ts := by
  induction ts generalizing r with
  | nil => exact ⟨[], by simp, rfl⟩
  | cons k ts ih =>
    obtain ⟨olds, holds, hts⟩ := ih (atomStep at_ m stores f r k)
    refine ⟨(k, BitVec.ofNat 64 (r.1.load (at_ k) m)) :: olds, ?_, ?_⟩
    · rw [List.foldl_cons, holds, atomStep, List.append_assoc, List.singleton_append]
    · rw [List.map_cons, hts]

/-- The old value that a lane receives is the element that the lanes before it leave. -/
theorem oldOf_foldl_atomStep (pre post : List Nat) (s : State) (k : Nat) (hk : k ∉ pre) :
    oldOf ((pre ++ k :: post).foldl (atomStep at_ m stores f) (s, [])).2 k =
      BitVec.ofNat 64 ((pre.foldl (atomStep at_ m stores f) (s, [])).1.load (at_ k) m) := by
  rw [List.foldl_append, List.foldl_cons]
  generalize hr : pre.foldl (atomStep at_ m stores f) (s, []) = r
  obtain ⟨before, hbefore, hpre⟩ := olds_foldl_atomStep (at_ := at_) (m := m) (stores := stores) (f := f) pre (s, [])
  obtain ⟨behind, hbehind, -⟩ := olds_foldl_atomStep (at_ := at_) (m := m) (stores := stores) (f := f) post
    (atomStep at_ m stores f r k)
  rw [hr, List.nil_append] at hbefore
  have hnone : before.find? (fun x => x.1 == k) = none := by
    refine List.find?_eq_none.2 fun x hx heq => hk ?_
    rw [← hpre, ← beq_iff_eq.1 heq]
    exact List.mem_map_of_mem hx
  have hlist : (atomStep at_ m stores f r k).2 = before ++ [(k, BitVec.ofNat 64 (r.1.load (at_ k) m))] := by rw [← hbefore]; rfl
  rw [oldOf, hbehind, hlist, List.append_assoc, List.find?_append, hnone, Option.none_or, List.singleton_append,
    List.find?_cons_of_pos (by exact beq_self_eq_true k)]
  rfl

theorem byte_foldl_atomStep {x : Nat} (ts : List Nat) (r : State × List (Nat × W64)) (h : ∀ k ∈ ts, x < at_ k ∨ at_ k + m ≤ x) :
    (ts.foldl (atomStep at_ m stores f) r).1.byte x = r.1.byte x := by
  induction ts generalizing r with
  | nil => rfl
  | cons k ts ih =>
    rw [List.foldl_cons, ih _ fun j hj => h j (List.mem_cons_of_mem _ hj), byte_atomStep r (h k List.mem_cons_self)]

/-- Lanes whose elements are one or do not meet. -/
def Apart (at_ : Nat → Nat) (m : Nat) (lanes : List Nat) : Prop :=
  ∀ j ∈ lanes, ∀ k ∈ lanes, at_ j ≠ at_ k → at_ k + m ≤ at_ j ∨ at_ j + m ≤ at_ k

variable {lanes : List Nat} {s : State} (hsorted : lanes.Pairwise (· < ·)) (hapart : Apart at_ m lanes)
include hsorted hapart

/-- The first lane of an element receives what memory held. -/
theorem oldOf_atomics_first {k : Nat} (hk : k ∈ lanes) (hfirst : ∀ j ∈ lanes, j < k → at_ j ≠ at_ k) :
    oldOf (lanes.foldl (atomStep at_ m stores f) (s, [])).2 k = BitVec.ofNat 64 (s.load (at_ k) m) := by
  obtain ⟨pre, post, rfl⟩ := List.append_of_mem hk
  obtain ⟨hless, -⟩ := sorted_cut hsorted
  rw [oldOf_foldl_atomStep _ _ _ _ fun h => absurd (hless k h) (by omega), load_foldl_atomStep_other]
  intro j hj
  have hjmem := List.mem_append_left (k :: post) hj
  exact hapart j hjmem k hk (hfirst j hjmem (hless j hj))

/-- The next lane of an element receives what the lane before it left. -/
theorem oldOf_atomics_next (hm : 8 * m ≤ 64) (hkeep : ¬stores → ∀ k old, f k old = old) {j k : Nat} (hj : j ∈ lanes)
    (hk : k ∈ lanes) (hlt : j < k) (hsame : at_ j = at_ k) (hbetween : ∀ i ∈ lanes, j < i → i < k → at_ i ≠ at_ k) :
    oldOf (lanes.foldl (atomStep at_ m stores f) (s, [])).2 k = BitVec.ofNat 64
      ((f j (oldOf (lanes.foldl (atomStep at_ m stores f) (s, [])).2 j)).toNat % 2 ^ (8 * m)) := by
  obtain ⟨pre', post, rfl⟩ := List.append_of_mem hk
  obtain ⟨hless, hgreater⟩ := sorted_cut hsorted
  have hjpre : j ∈ pre' := by
    rcases List.mem_append.1 hj with h | h
    · exact h
    · rcases List.mem_cons.1 h with rfl | h
      · omega
      · exact absurd (hgreater j h) (by omega)
  obtain ⟨pre, mid, rfl⟩ := List.append_of_mem hjpre
  obtain ⟨hpre, hmid⟩ := sorted_cut (hsorted.sublist (List.sublist_append_left _ _))
  have hold := oldOf_foldl_atomStep (at_ := at_) (m := m) (stores := stores) (f := f) pre (mid ++ k :: post) s j fun h =>
    absurd (hpre j h) (by omega)
  rw [← List.cons_append, ← List.append_assoc] at hold
  rw [hold, oldOf_foldl_atomStep _ _ _ _ fun h => absurd (hless k h) (by omega), List.foldl_append, List.foldl_cons, ← hsame,
    load_foldl_atomStep_other, load_atomStep_same hm hkeep]
  intro i hi
  have himem : i ∈ pre ++ j :: mid ++ k :: post := by simp [hi]
  exact hapart i himem j hj (hsame ▸ hbetween i himem (hmid i hi) (hless i (by simp [hi])))

/-- What the last lane of an element leaves stays. -/
theorem load_atomics_last (hm : 8 * m ≤ 64) (hkeep : ¬stores → ∀ k old, f k old = old) {k : Nat} (hk : k ∈ lanes)
    (hlast : ∀ j ∈ lanes, k < j → at_ j ≠ at_ k) :
    (lanes.foldl (atomStep at_ m stores f) (s, [])).1.load (at_ k) m =
      (f k (oldOf (lanes.foldl (atomStep at_ m stores f) (s, [])).2 k)).toNat % 2 ^ (8 * m) := by
  obtain ⟨pre, post, rfl⟩ := List.append_of_mem hk
  obtain ⟨hless, hgreater⟩ := sorted_cut hsorted
  rw [oldOf_foldl_atomStep _ _ _ _ fun h => absurd (hless k h) (by omega), List.foldl_append, List.foldl_cons,
    load_foldl_atomStep_other, load_atomStep_same hm hkeep]
  intro j hj
  have hjmem : j ∈ pre ++ k :: post := by simp [hj]
  exact hapart j hjmem k hk (hlast j hjmem (hgreater j hj))

end

/-! ### ATOML -/

/-- What an atomic of a group leaves of an element's old value in a lane (Table 5.14). -/
def atomNew (w : TWord) (g : Group) (k : Nat) (old : W64) : W64 :=
  let code := w.opxBits 3 0
  memOpNew code (w.opx.getLsbD 4) old (w.valB g (atomLong code) k) (w.valC g (atomLong code) k)

/-- The codes from 14 on return the element and store nothing. -/
theorem atomNew_of_not_store (h : ¬w.opxBits 3 0 < 14) (k : Nat) (old : W64) : atomNew w g k old = old := by
  have hcode : w.opxBits 3 0 = 14 ∨ w.opxBits 3 0 = 15 := by
    have : w.opxBits 3 0 < 2 ^ 4 := Nat.mod_lt _ (by decide)
    omega
  unfold atomNew
  rcases hcode with h14 | h15
  · rw [h14]; rfl
  · rw [h15]; rfl

theorem memOpBytes_cases (code : Nat) : memOpBytes code = 4 ∨ memOpBytes code = 8 := by
  unfold memOpBytes
  split
  · exact .inr rfl
  · exact .inl rfl

theorem blockAddr_eq (l : Nat) (b : Block) (a : Nat) : blockAddr l b a = localAddr l b.lmBase + a := by
  unfold blockAddr localAddr
  omega

/-- Aligned elements are one or do not meet. -/
theorem apart_of_fit {lanes : List Nat} {addr : Nat → Nat} {code : Nat}
    (hfit : ∀ k ∈ lanes, localCode b (addr k) (memOpBytes code) = none) :
    Apart (fun k => blockAddr l b (addr k)) (memOpBytes code) lanes := by
  have haligned : ∀ k ∈ lanes, addr k % memOpBytes code = 0 := fun k hk => by
    have h := hfit k hk
    unfold localCode at h
    by_contra hmod
    rw [if_pos hmod] at h
    cases h
  intro j hj k hk
  have hj := haligned j hj
  have hk := haligned k hk
  simp only [blockAddr_eq]
  rcases memOpBytes_cases code with h | h <;> rw [h] at hj hk ⊢ <;> omega

theorem exec_atoml_fault {k c : Nat} (hrun : Runs s 0x142 l gi w g b) (hk : k ∈ accessLanes w g)
    (hcode : localCode b (w.valA g false k).toNat (memOpBytes (w.opxBits 3 0)) = some c)
    (hbefore : ∀ j ∈ accessLanes w g, j < k → localCode b (w.valA g false j).toNat (memOpBytes (w.opxBits 3 0)) = none) :
    ∃ t, exec (.atoml l gi w) s = .next t ∧ Halts s t l gi g c := by
  refine halts_of_exec (b := b) (k := k) (a := (w.valA g false k).toNat) ?_
  have hexec : exec (.atoml l gi w) s = execAtoml l gi w s := rfl
  rw [hexec, execAtoml, s.threadIssue_runs _ hrun]
  simp only [firstFault_of_code (fun k => localFault_eq b (w.valA g false k).toNat _) (accessLanes_sorted w g) hk hcode hbefore]

/-- The atomics of a group's lanes on its local memory, from the state in which the word has issued. -/
def atomLanes (v : State) (l : Nat) (w : TWord) (g : Group) (b : Block) : State × List (Nat × W64) :=
  (accessLanes w g).foldl (atomStep (fun k => blockAddr l b (w.valA g false k).toNat) (memOpBytes (w.opxBits 3 0))
    (w.opxBits 3 0 < 14) (atomNew w g)) (v, [])

theorem exec_atoml (hrun : Runs s 0x142 l gi w g b)
    (hfit : ∀ k ∈ accessLanes w g, localCode b (w.valA g false k).toNat (memOpBytes (w.opxBits 3 0)) = none) :
    ∃ t h v, exec (.atoml l gi w) s = .next t ∧ OnlyGroupAndMemory s t l gi ∧ t.group l gi = some h ∧
      Wrote w g h (atomLong (w.opxBits 3 0)) (oldOf (atomLanes v l w g b).2) ∧ SameBytes s v ∧
      SameBytes (atomLanes v l w g b).1 t := by
  have hissued := s.issued_countIssue l g
  have hexec : exec (.atoml l gi w) s = execAtoml l gi w s := rfl
  rw [hexec, execAtoml, s.threadIssue_runs _ hrun]
  simp only [firstFault_of_codes (fun k => localFault_eq b (w.valA g false k).toNat _) hfit]
  generalize s.countIssue l g = v at *
  obtain ⟨olds, holds, hlanes⟩ := olds_foldl_atomStep (at_ := fun k => blockAddr l b (w.valA g false k).toNat)
    (m := memOpBytes (w.opxBits 3 0)) (stores := w.opxBits 3 0 < 14) (f := atomNew w g) (accessLanes w g) (v, [])
  have hmem : OnlyMemory v (atomLanes v l w g b).1 :=
    foldl_keeps (fun r : State × List (Nat × W64) => OnlyMemory v r.1) _ (fun r k h => h.trans (onlyMemory_atomStep r k)) _ (v, [])
      (OnlyMemory.refl v)
  obtain ⟨hframe, hgroup, hbytes⟩ := group_after_access
    (x := some ((putOlds w (atomLong (w.opxBits 3 0)) (atomLanes v l w g b).2 g).advance w)) hissued hmem
      (State.onlyCounts_countLocal ..)
  refine ⟨_, _, v, rfl, hframe, hgroup, ?_, hissued.sameBytes, hbytes⟩
  rw [putOlds_eq_writeD _ (by rw [atomLanes, holds]; exact hlanes)]
  exact wrote_writeD ..

end Sys2Proof.Machine

open Sys2Proof Sys2Proof.Machine

/-- Settles O30. -/
theorem localMemoryOfGroups : Obligations.LocalMemoryOfGroups := by
  unfold Obligations.LocalMemoryOfGroups
  intro s l gi w g b
  refine ⟨fun hrun => ⟨fun hfit => exec_ldl hrun hfit, fun k c hk hcode hbefore => exec_ldl_fault hrun hk hcode hbefore⟩,
    fun hrun => ⟨fun hfit => ?_, fun k c hk hcode hbefore => exec_stl_fault hrun hk hcode hbefore⟩,
    fun hrun => ⟨fun hfit => ?_, fun k c hk hcode hbefore => exec_atoml_fault hrun hk hcode hbefore⟩⟩
  · obtain ⟨t, v, hnext, hframe, hgroup, hsame, hbytes⟩ := exec_stl hrun hfit
    refine ⟨t, hnext, hframe, hgroup, fun x hx => ?_, fun k hk i hi hlast => ?_⟩
    · rw [hbytes, byte_storeActing_other hx, hsame]
    · rw [hbytes, byte_storeActing_highest hk hi hlast]
  · obtain ⟨t, h, v, hnext, hframe, hgroup, hwrote, hsame, hbytes⟩ := exec_atoml hrun hfit
    have hsorted := accessLanes_sorted w g
    have hapart := apart_of_fit (l := l) hfit
    have hkeep := fun h => atomNew_of_not_store (w := w) (g := g) h
    have hm : 8 * memOpBytes (w.opxBits 3 0) ≤ 64 := by
      rcases memOpBytes_cases (w.opxBits 3 0) with h | h <;> omega
    have hne : ∀ {j k : Nat}, (w.valA g false j).toNat ≠ (w.valA g false k).toNat →
        blockAddr l b (w.valA g false j).toNat ≠ blockAddr l b (w.valA g false k).toNat := fun hne heq => by
      rw [blockAddr_eq, blockAddr_eq] at heq
      omega
    refine ⟨t, h, _, hnext, hframe, hgroup, hwrote, fun x hx => ?_, fun k hk hfirst => ?_, fun j hj k hk hlt heq hbetween => ?_,
      fun k hk hlast => ?_⟩
    · rw [hbytes, ← hsame]
      exact byte_foldl_atomStep _ _ hx
    · exact (oldOf_atomics_first hsorted hapart hk fun j hj hlt => hne (hfirst j hj hlt)).trans
        (by rw [State.load, hsame.bytes_eq]; rfl)
    · exact oldOf_atomics_next hsorted hapart hm hkeep hj hk hlt (congrArg (blockAddr l b) heq)
        fun i hi hji hik => hne (hbetween i hi hji hik)
    · rw [State.load, hbytes.bytes_eq]
      exact load_atomics_last hsorted hapart hm hkeep hk fun j hj hlt => hne (hlast j hj hlt)
end

section
/-!
Fragments: the registers that LDF loads and the bytes that STF stores (R117, R120, R148).
-/

namespace Sys2Proof.Machine

open Sys2Proof

variable {s t u v : State} {l : CoreId} {gi : GroupId} {w : TWord} {g : Group} {b : Block} {layout base stride : Nat}

/-! ### The faults of a fragment -/

theorem localCode_eq_none {a n : Nat} : localCode b a n = none ↔ a % n = 0 ∧ a + n ≤ b.lmSize := by
  unfold localCode
  by_cases halign : a % n = 0
  · by_cases hroom : b.lmSize < a + n
    · simp [halign, hroom]
    · simp [halign, hroom, Nat.not_lt.1 hroom]
  · simp [halign]

theorem localFault_eq_none {a n : Nat} : localFault b a n = none ↔ a % n = 0 ∧ a + n ≤ b.lmSize := by
  rw [localFault_eq, Option.map_eq_none_iff, localCode_eq_none]

theorem localFault_code {a n : Nat} {x : Nat × Nat} (h : localFault b a n = some x) : x.1 = 3 ∨ x.1 = 4 := by
  unfold localFault at h
  split at h
  · exact .inr (congrArg Prod.fst (Option.some.inj h)).symm
  · split at h
    · exact .inl (congrArg Prod.fst (Option.some.inj h)).symm
    · cases h

/-- Every element of a lane's registers is aligned and within the block's size. -/
def FragFits (b : Block) (layout base stride k : Nat) : Prop :=
  ∀ r, r < fragRegs layout → ∀ a ∈ fragAddrs layout base stride r k, a % fragSize layout = 0 ∧ a + fragSize layout ≤ b.lmSize

theorem fragFault_eq_none {k : Nat} : fragFault b layout base stride k = none ↔ FragFits b layout base stride k := by
  simp only [fragFault, FragFits, List.findSome?_eq_none_iff, List.mem_range, localFault_eq_none]

theorem fragFault_code {k : Nat} {x : Nat × Nat} (h : fragFault b layout base stride k = some x) : x.1 = 3 ∨ x.1 = 4 := by
  obtain ⟨r, -, hr⟩ := List.exists_of_findSome?_eq_some h
  obtain ⟨a, -, ha⟩ := List.exists_of_findSome?_eq_some hr
  exact localFault_code ha

theorem firstFault_frag_eq_none {lanes : List Nat} (h : ∀ k ∈ lanes, FragFits b layout base stride k) :
    firstFault lanes (fun k => fragFault b layout base stride k) = none :=
  firstFault_eq_none.2 fun k hk => fragFault_eq_none.2 (h k hk)

/-- Where a lane does not fit, a lane is named with the code of its fault. -/
theorem firstFault_frag_eq_some {lanes : List Nat} (h : ∃ k ∈ lanes, ¬FragFits b layout base stride k) :
    ∃ k c a, firstFault lanes (fun k => fragFault b layout base stride k) = some (k, c, a) ∧ (c = 3 ∨ c = 4) := by
  obtain ⟨k, hk, hbad⟩ := h
  have hsome : firstFault lanes (fun k => fragFault b layout base stride k) ≠ none := fun hnone =>
    hbad (fragFault_eq_none.1 (firstFault_eq_none.1 hnone k hk))
  obtain ⟨⟨k, c, a⟩, hfirst⟩ := Option.ne_none_iff_exists'.1 hsome
  obtain ⟨j, -, hj⟩ := List.exists_of_findSome?_eq_some hfirst
  obtain ⟨x, hx, hxk⟩ := Option.map_eq_some_iff.1 hj
  refine ⟨k, c, a, hfirst, ?_⟩
  obtain ⟨-, rfl⟩ : j = k ∧ x.1 = c := by simp_all
  exact fragFault_code hx

/-! ### The form of the words -/

/-- The verifier accepts layouts 0 to 4, whose registers are a run below register 255 (R130, R148). -/
theorem ldf_form (hrun : Runs s 0x143 l gi w g b) :
    w.opxBits 2 0 ≤ 4 ∧ w.dst.toNat + fragRegs (w.opxBits 2 0) ≤ 255 := by
  obtain ⟨-, -, -, -, hword⟩ := hrun
  obtain ⟨f, hf, hopx, hdst⟩ := form_of_wordOk hword
  obtain rfl := Option.some.inj hf
  simp only [Bool.and_eq_true, decide_eq_true_eq] at hopx
  simp only [dstOk, Bool.and_eq_true, decide_eq_true_eq] at hdst
  have := launchFld_one_lt b.body (off := 97) (by omega)
  exact ⟨hopx.2, by omega⟩

theorem stf_form (hrun : Runs s 0x144 l gi w g b) : w.opxBits 2 0 ≤ 4 := by
  obtain ⟨-, -, -, -, hword⟩ := hrun
  obtain ⟨f, hf, hopx, hdst⟩ := form_of_wordOk hword
  obtain rfl := Option.some.inj hf
  simp only [Bool.and_eq_true, decide_eq_true_eq] at hopx
  exact hopx.2

/-- The elements of a register fill its 32 bits (Table 4.10). -/
theorem fragSize_mul_length (layout base stride r k : Nat) :
    fragSize layout * (fragAddrs layout base stride r k).length = 4 := by
  rw [fragAddrs, List.length_map]
  unfold fragElems
  split <;> simp_all [fragSize]

/-! ### LDF -/

/-- What a lane's register of a fragment takes (Table 4.10). -/
def State.fragValue (s : State) (l : Nat) (b : Block) (layout base stride r k : Nat) : W32 :=
  BitVec.ofNat 32 (ofLe ((fragAddrs layout base stride r k).flatMap fun a => s.bytes (blockAddr l b a) (fragSize layout)))

theorem SameBytes.fragValue (h : SameBytes s t) (l : Nat) (b : Block) (layout base stride r k : Nat) :
    t.fragValue l b layout base stride r k = s.fragValue l b layout base stride r k := by
  simp only [State.fragValue, h.bytes_eq]

/-- The registers and lanes of a fragment, register by register. -/
def fragSlots (n : Nat) (lanes : List Nat) : List (Nat × Nat) := (List.range n).flatMap fun r => lanes.map fun k => (r, k)

theorem mem_fragSlots {n : Nat} {lanes : List Nat} {q : Nat × Nat} : q ∈ fragSlots n lanes ↔ q.1 < n ∧ q.2 ∈ lanes := by
  obtain ⟨r, k⟩ := q
  simp [fragSlots]

/-- A group after the registers of a fragment are written. -/
def Group.putFrag (g : Group) (dst n : Nat) (lanes : List Nat) (val : Nat → Nat → W32) : Group :=
  (List.range n).foldl (fun g r => lanes.foldl (fun g k => g.putV (dst + r) k (val r k)) g) g

theorem Group.putFrag_eq (g : Group) (dst n : Nat) (lanes : List Nat) (val : Nat → Nat → W32) :
    g.putFrag dst n lanes val = (fragSlots n lanes).foldl (fun g q => g.putV (dst + q.1) q.2 (val q.1 q.2)) g := by
  rw [fragSlots, List.foldl_flatMap]
  simp only [List.foldl_map]
  rfl

theorem Group.putFrag_frame (g : Group) (dst n : Nat) (lanes : List Nat) (val : Nat → Nat → W32) :
    g.putFrag dst n lanes val = { g with v := (g.putFrag dst n lanes val).v } := by
  rw [putFrag_eq, foldl_putV_frame]

theorem Group.vreg_putFrag (g : Group) (dst n : Nat) {lanes : List Nat} (val : Nat → Nat → W32) {q lane : Nat}
    (hlanes : ∀ k ∈ lanes, k < 32) (hq : q < 255) (hlane : lane < 32) :
    (g.putFrag dst n lanes val).vreg q lane =
      if lane ∈ lanes ∧ dst ≤ q ∧ q < dst + n then val (q - dst) lane else g.vreg q lane := by
  rw [putFrag_eq, vreg_foldl_putV (fun q : Nat × Nat => dst + q.1) (fun q => q.2) (fun q => val q.1 q.2) hq hlane
    (x := val (q - dst) lane) _ g (fun p hp => hlanes _ (mem_fragSlots.1 hp).2) fun p _ hreg hk => by
      rw [← hreg, ← hk, Nat.add_sub_cancel_left]]
  refine if_congr ⟨?_, ?_⟩ rfl rfl
  · rintro ⟨p, hp, hreg, rfl⟩
    have hp := mem_fragSlots.1 hp
    exact ⟨hp.2, by omega, by omega⟩
  · rintro ⟨hmem, hlo, hhi⟩
    exact ⟨(q - dst, lane), mem_fragSlots.2 ⟨by simp only; omega, hmem⟩, by simp only; omega, rfl⟩

theorem exec_ldf_fault (hrun : Runs s 0x143 l gi w g b)
    (hbad : ∃ k ∈ w.acting g, ¬FragFits b (w.opxBits 2 0) (w.valA g false 0).toNat (w.valC g false 0).toNat k) :
    ∃ t c, exec (.ldf l gi w) s = .next t ∧ Halts s t l gi g c ∧ (c = 3 ∨ c = 4) := by
  obtain ⟨k, c, a, hfirst, hc⟩ := firstFault_frag_eq_some hbad
  obtain ⟨t, hnext, hhalts⟩ := halts_of_exec (i := .ldf l gi w) (s := s) (l := l) (gi := gi) (g := g) (b := b) (c := c) (k := k)
    (a := a) (by
      have hexec : exec (.ldf l gi w) s = execLdf l gi w s := rfl
      rw [hexec, execLdf, s.threadIssue_runs _ hrun]
      simp only [hfirst])
  exact ⟨t, c, hnext, hhalts, hc⟩

theorem exec_ldf (hrun : Runs s 0x143 l gi w g b)
    (hfit : ∀ k ∈ w.acting g, FragFits b (w.opxBits 2 0) (w.valA g false 0).toNat (w.valC g false 0).toNat k) :
    ∃ t, exec (.ldf l gi w) s = .next t ∧ OnlyGroupAndMemory s t l gi ∧ SameBytes s t ∧
      t.group l gi = some ((g.putFrag w.dst.toNat (fragRegs (w.opxBits 2 0)) (w.acting g)
        (s.fragValue l b (w.opxBits 2 0) (w.valA g false 0).toNat (w.valC g false 0).toNat)).advance w) := by
  have hissued := s.issued_countIssue l g
  have hexec : exec (.ldf l gi w) s = execLdf l gi w s := rfl
  rw [hexec, execLdf, s.threadIssue_runs _ hrun]
  simp only [firstFault_frag_eq_none hfit, hissued.sameBytes.bytes_eq]
  obtain ⟨hframe, hgroup, hbytes⟩ := group_after_access hissued (OnlyMemory.refl _) (State.onlyCounts_countLocal ..)
  exact ⟨_, rfl, hframe, hissued.sameBytes.trans hbytes, hgroup⟩

/-! ### STF -/

/-- A store of one element of a fragment: its lane, its register, its local address and its place in the register. -/
structure FragStore where
  lane : Nat
  reg : Nat
  addr : Nat
  place : Nat

/-- The element's bytes of its register. -/
def FragStore.bytes (w : TWord) (g : Group) (q : FragStore) : List Byte :=
  ((leBytes 4 (g.vreg (w.srcC.toNat + q.reg) q.lane).toNat).drop (fragSize (w.opxBits 2 0) * q.place)).take
    (fragSize (w.opxBits 2 0))

/-- The stores of STF in their order: lane by lane, in each register by register (R120, R148). -/
def fragStores (layout base stride : Nat) (lanes : List Nat) : List FragStore :=
  lanes.flatMap fun k => (List.range (fragRegs layout)).flatMap fun r =>
    (fragAddrs layout base stride r k).zipIdx.map fun x => ⟨k, r, x.1, x.2⟩

theorem mem_fragStores {lanes : List Nat} {q : FragStore} : q ∈ fragStores layout base stride lanes ↔
    q.lane ∈ lanes ∧ q.reg < fragRegs layout ∧ (fragAddrs layout base stride q.reg q.lane)[q.place]? = some q.addr := by
  obtain ⟨k, r, a, i⟩ := q
  simp [fragStores, List.mem_zipIdx_iff_getElem?]

theorem fragStores_sorted {lanes : List Nat} (h : lanes.Pairwise (· < ·)) :
    (fragStores layout base stride lanes).Pairwise fun q r => q.lane ≤ r.lane := by
  have hlane : ∀ k, ∀ q ∈ (List.range (fragRegs layout)).flatMap fun r =>
      (fragAddrs layout base stride r k).zipIdx.map fun x => (⟨k, r, x.1, x.2⟩ : FragStore), q.lane = k := by
    simp only [List.mem_flatMap, List.mem_map]
    rintro k _ ⟨r, -, x, -, rfl⟩
    rfl
  refine List.pairwise_flatMap.2 ⟨fun k _ => List.pairwise_of_forall_mem_list fun q hq r hr => ?_, h.imp fun hlt q hq r hr => ?_⟩
  · rw [hlane k q hq, hlane k r hr]
  · rw [hlane _ q hq, hlane _ r hr]
    exact Nat.le_of_lt hlt

theorem FragStore.length_bytes (q : FragStore) {r k : Nat} {x : Nat}
    (h : (fragAddrs (w.opxBits 2 0) base stride r k)[q.place]? = some x) : (q.bytes w g).length = fragSize (w.opxBits 2 0) := by
  obtain ⟨hplace, -⟩ := List.getElem?_eq_some_iff.1 h
  have hroom : fragSize (w.opxBits 2 0) * (q.place + 1) ≤ 4 :=
    (Nat.mul_le_mul_left _ hplace).trans (fragSize_mul_length _ base stride r k).le
  rw [Nat.mul_succ] at hroom
  rw [FragStore.bytes, List.length_take, List.length_drop, length_leBytes]
  omega

/-- The bytes of an element are bits of its register. -/
theorem FragStore.getD_bytes (q : FragStore) {i : Nat} (hi : i < (q.bytes w g).length) :
    (q.bytes w g).getD i 0 =
      (g.vreg (w.srcC.toNat + q.reg) q.lane).extractLsb' (8 * (fragSize (w.opxBits 2 0) * q.place + i)) 8 := by
  generalize hj : fragSize (w.opxBits 2 0) * q.place + i = j
  have hbound := hi
  rw [FragStore.bytes, List.length_take, List.length_drop, length_leBytes] at hbound
  have hget : (q.bytes w g).getD i 0 = (leBytes 4 (g.vreg (w.srcC.toNat + q.reg) q.lane).toNat).getD j 0 := by
    rw [FragStore.bytes, List.getD_eq_getElem?_getD, List.getElem?_take_of_lt (by omega), List.getElem?_drop, hj,
      ← List.getD_eq_getElem?_getD]
  rw [hget, getD_leBytes, if_pos (by omega)]
  apply BitVec.eq_of_toNat_eq
  rw [BitVec.extractLsb'_toNat, BitVec.toNat_ofNat, Nat.shiftRight_eq_div_pow, Nat.pow_mul]

/-- Memory after the stores of STF. -/
def State.storeFrags (s : State) (l : Nat) (w : TWord) (g : Group) (b : Block) (ts : List FragStore) : State :=
  ts.foldl (fun s q => s.store (blockAddr l b q.addr) (q.bytes w g)) s

theorem exec_stf_fault (hrun : Runs s 0x144 l gi w g b)
    (hbad : ∃ k ∈ w.acting g, ¬FragFits b (w.opxBits 2 0) (w.valA g false 0).toNat (w.valB g false 0).toNat k) :
    ∃ t c, exec (.stf l gi w) s = .next t ∧ Halts s t l gi g c ∧ (c = 3 ∨ c = 4) := by
  obtain ⟨k, c, a, hfirst, hc⟩ := firstFault_frag_eq_some hbad
  obtain ⟨t, hnext, hhalts⟩ := halts_of_exec (i := .stf l gi w) (s := s) (l := l) (gi := gi) (g := g) (b := b) (c := c) (k := k)
    (a := a) (by
      have hexec : exec (.stf l gi w) s = execStf l gi w s := rfl
      rw [hexec, execStf, s.threadIssue_runs _ hrun]
      simp only [hfirst])
  exact ⟨t, c, hnext, hhalts, hc⟩

theorem exec_stf (hrun : Runs s 0x144 l gi w g b)
    (hfit : ∀ k ∈ w.acting g, FragFits b (w.opxBits 2 0) (w.valA g false 0).toNat (w.valB g false 0).toNat k) :
    ∃ t v, exec (.stf l gi w) s = .next t ∧ OnlyGroupAndMemory s t l gi ∧
      t.group l gi = some { g with pc := g.pc + w.bytes, fills := [], status := .ready } ∧ SameBytes s v ∧
      SameBytes (v.storeFrags l w g b
        (fragStores (w.opxBits 2 0) (w.valA g false 0).toNat (w.valB g false 0).toNat (w.acting g))) t := by
  have hissued := s.issued_countIssue l g
  have hexec : exec (.stf l gi w) s = execStf l gi w s := rfl
  rw [hexec, execStf, s.threadIssue_runs _ hrun]
  simp only [firstFault_frag_eq_none hfit]
  generalize s.countIssue l g = v at *
  generalize hts : fragStores (w.opxBits 2 0) (w.valA g false 0).toNat (w.valB g false 0).toNat (w.acting g) = ts
  have hflat : (w.acting g).foldl (fun s k => (List.range (fragRegs (w.opxBits 2 0))).foldl (fun (s : State) r =>
      (fragAddrs (w.opxBits 2 0) (w.valA g false 0).toNat (w.valB g false 0).toNat r k).zipIdx.foldl (fun (s : State) (a, i) =>
        s.store (blockAddr l b a) (((leBytes 4 (g.vreg (w.srcC.toNat + r) k).toNat).drop (fragSize (w.opxBits 2 0) * i)).take
          (fragSize (w.opxBits 2 0)))) s) s) v = v.storeFrags l w g b ts := by
    rw [← hts, State.storeFrags, fragStores]
    simp only [List.foldl_flatMap, List.foldl_map]
    rfl
  rw [hflat]
  obtain ⟨hframe, hgroup, hbytes⟩ := group_after_access hissued
    (onlyMemory_foldl (fun v (q : FragStore) => v.onlyMemory_store (blockAddr l b q.addr) (q.bytes w g)) ts v)
    (State.onlyCounts_countLocal ..)
  exact ⟨_, v, rfl, hframe, hgroup, hissued.sameBytes, hbytes⟩

end Sys2Proof.Machine

open Sys2Proof Sys2Proof.Machine

/-- Settles O31. -/
theorem fragmentsOfGroups : Obligations.FragmentsOfGroups := by
  unfold Obligations.FragmentsOfGroups
  intro s l gi w g b
  refine ⟨fun stride hrun hstride hfit => ?_, fun stride hrun hstride hfit => ?_, fun i stride hi hrun hbad => ?_⟩
  · subst hstride
    obtain ⟨t, hnext, hframe, hbytes, hgroup⟩ := exec_ldf hrun hfit
    refine ⟨t, _, hnext, hframe, hbytes, hgroup, ?_, fun q lane hq hlane => ?_⟩
    · rw [Group.putFrag_frame]
      rfl
    · exact Group.vreg_putFrag g _ _ _ (fun k hk => acting_lt hk) hq hlane
  · subst hstride
    obtain ⟨t, v, hnext, hframe, hgroup, hsame, hbytes⟩ := exec_stf hrun hfit
    refine ⟨t, hnext, hframe, hgroup, fun x hx => ?_, fun x r k i a hk hr ha hlo hhi hlast => ?_⟩
    · rw [hbytes, ← hsame]
      refine byte_foldl_store_other _ _ _ _ fun q hq => ?_
      obtain ⟨hlane, hreg, haddr⟩ := mem_fragStores.1 hq
      rw [q.length_bytes haddr]
      by_contra hreach
      exact hx q.lane hlane q.reg hreg q.place ⟨q.addr, haddr, by omega, by omega⟩
    · have hlength : ((⟨k, r, a, i⟩ : FragStore).bytes w g).length = fragSize (w.opxBits 2 0) := FragStore.length_bytes _ ha
      rw [hbytes]
      refine (byte_foldl_store_highest _ _ FragStore.lane (p := ⟨k, r, a, i⟩) hlo (by rw [hlength]; exact hhi) _ v
        (fragStores_sorted (acting_sorted w g)) (mem_fragStores.2 ⟨hk, hr, ha⟩) fun q hq hqlo hqhi => ?_).trans
        (FragStore.getD_bytes _ (by rw [hlength]; show x - blockAddr l b a < _; omega))
      obtain ⟨hlane, hreg, haddr⟩ := mem_fragStores.1 hq
      rw [q.length_bytes haddr] at hqhi
      rcases hlast q.reg q.lane q.place hlane hreg ⟨q.addr, haddr, hqlo, hqhi⟩ with hless | ⟨hk', hr', hi'⟩
      · exact .inl hless
      · right
        obtain ⟨qk, qr, qa, qi⟩ := q
        simp only at hk' hr' hi' haddr
        subst hk' hr' hi'
        obtain rfl : a = qa := Option.some.inj (ha.symm.trans haddr)
        rfl
  · obtain ⟨k, hk, r, hr, a, ha, hnot⟩ := hbad
    rcases hi with ⟨rfl, rfl⟩ | ⟨rfl, rfl⟩
    · exact exec_ldf_fault hrun ⟨k, hk, fun hfit => hnot (hfit r hr a ha)⟩
    · exact exec_stf_fault hrun ⟨k, hk, fun hfit => hnot (hfit r hr a ha)⟩
end

section
/-!
Window loads and stores of a group (R117, R149, R321, R322).
-/

namespace Sys2Proof.Machine

open Sys2Proof

variable {s t u v : State} {l : CoreId} {gi : GroupId} {w : TWord} {g : Group} {b : Block} {a n : Nat}

/-! ### Windows -/

/-- The byte of a window address, past the one that names the window. -/
theorem localAddr_of_windowOf {k off : Nat} (h : windowOf a = some (k, off)) (i : Nat) : localAddr k (off + i) = a + i := by
  unfold windowOf at h
  split at h
  case isFalse => cases h
  case isTrue hin =>
    simp only [Bool.and_eq_true, decide_eq_true_eq] at hin
    obtain ⟨⟨hlo, -⟩, -⟩ := hin
    obtain ⟨rfl, rfl⟩ := Prod.mk.inj (Option.some.inj h)
    have := Nat.div_add_mod (a - windowBase) (2 ^ 20)
    unfold localAddr
    omega

/-- The code with which an access through a window fails. -/
def State.windowCode (s : State) (l a n : Nat) : Option Nat :=
  if a % n ≠ 0 then some 4
  else match windowOf a with
    | none => some 3
    | some (k, off) => if off + n ≤ s.lmSize k ∧ s.partOf k = s.partOf l ∧ (s.partOf l).isSome = true then none else some 3

theorem State.windowFault_eq (s : State) (l a n : Nat) : s.windowFault l a n = (s.windowCode l a n).map fun c => (c, a) := by
  unfold State.windowFault State.windowCode State.windowFor
  by_cases halign : a % n ≠ 0
  · rw [if_pos halign, if_pos halign]; rfl
  · rw [if_neg halign, if_neg halign]
    cases windowOf a with
    | none => rfl
    | some x =>
      obtain ⟨k, off⟩ := x
      by_cases hfits : off + n ≤ s.lmSize k ∧ s.partOf k = s.partOf l ∧ (s.partOf l).isSome = true
      · simp [hfits]
      · simp only [if_neg hfits]
        simp only [Bool.and_eq_true, decide_eq_true_eq, and_assoc, if_neg hfits]
        rfl

/-- The address lies in the window of a core that answers, in which no stream queue is enabled. -/
def State.OpenAt (s : State) (a : Nat) : Prop := ∃ k off, windowOf a = some (k, off) ∧ s.fenced k = false ∧ ∀ i, s.sqAt k i = none

theorem State.openAt_of_windowCode (hcode : s.windowCode l a n = none)
    (h : ∀ k off, windowOf a = some (k, off) → s.fenced k = false ∧ ∀ i, s.sqAt k i = none) : s.OpenAt a := by
  cases hwindow : windowOf a with
  | none =>
    unfold State.windowCode at hcode
    rw [hwindow] at hcode
    split at hcode <;> cases hcode
  | some x => exact ⟨x.1, x.2, hwindow, h x.1 x.2 hwindow⟩

theorem Issued.windowFault (h : Issued s t l) (k a n : Nat) : t.windowFault k a n = s.windowFault k a n := by
  rw [h.frame]; rfl

theorem Issued.fenced (h : Issued s t l) (k : Nat) : t.fenced k = s.fenced k := by
  have hlost : (t.core k).lost = (s.core k).lost := by
    by_cases hk : k = l
    · rw [hk, h.core]
    · rw [h.others k hk]
  unfold State.fenced State.unplaced
  rw [hlost, h.frame]
  rfl

theorem Issued.openAt (h : Issued s t l) (k : s.OpenAt a) : t.OpenAt a := by
  obtain ⟨c, off, hwindow, hfenced, hsq⟩ := k
  refine ⟨c, off, hwindow, (h.fenced c).trans hfenced, fun i => ?_⟩
  rw [h.frame]
  exact hsq i

theorem lanesStall_eq_false {lanes : List Nat} {addr : Nat → Nat} (h : ∀ k ∈ lanes, s.OpenAt (addr k)) :
    s.lanesStall lanes addr = false := by
  refine List.any_eq_false.2 fun k hk => ?_
  obtain ⟨c, off, hwindow, hfenced, -⟩ := h k hk
  simp [hwindow, hfenced]

theorem State.OpenAt.windowRead (h : s.OpenAt a) (n : Nat) : s.windowRead a n = s.bytes a n := by
  obtain ⟨k, off, hwindow, -, hsq⟩ := h
  unfold State.windowRead State.windowBytes State.bytes
  rw [hwindow]
  exact List.map_congr_left fun i _ => by simp only [hsq, localAddr_of_windowOf hwindow]

theorem State.onlyCounts_countWindows (s : State) (lanes : List Nat) (addr : Nat → Nat) (wr : Bool) :
    OnlyCounts s (s.countWindows l lanes addr n wr) :=
  foldl_keeps (OnlyCounts s) _ (fun u k h => h.trans (by
    cases windowOf (addr k) with
    | none => rfl
    | some x => exact State.onlyCounts_countLocal ..)) lanes s rfl

/-! ### LDW -/

theorem exec_ldw_fault {k c : Nat} (hrun : Runs s 0x184 l gi w g b) (hk : k ∈ accessLanes w g)
    (hcode : s.windowCode l (w.addrG g k) (memBytes (w.opxBits 2 0)) = some c)
    (hbefore : ∀ j ∈ accessLanes w g, j < k → s.windowCode l (w.addrG g j) (memBytes (w.opxBits 2 0)) = none) :
    ∃ t, exec (.ldw l gi w) s = .next t ∧ Halts s t l gi g c := by
  refine halts_of_exec (b := b) (k := k) (a := w.addrG g k) ?_
  have hexec : exec (.ldw l gi w) s = execLdw l gi w s := rfl
  rw [hexec, execLdw, s.threadIssue_runs _ hrun]
  simp only [(s.issued_countIssue l g).windowFault,
    firstFault_of_code (fun k => s.windowFault_eq l (w.addrG g k) _) (accessLanes_sorted w g) hk hcode hbefore]

theorem exec_ldw (hrun : Runs s 0x184 l gi w g b)
    (hfit : ∀ k ∈ accessLanes w g, s.windowCode l (w.addrG g k) (memBytes (w.opxBits 2 0)) = none)
    (hopen : ∀ k ∈ accessLanes w g, s.OpenAt (w.addrG g k)) :
    ∃ t h, exec (.ldw l gi w) s = .next t ∧ OnlyGroupAndMemory s t l gi ∧ SameBytes s t ∧ t.group l gi = some h ∧
      Loaded w g h (w.opxBits 2 0) fun k => s.bytes (w.addrG g k) (memBytes (w.opxBits 2 0)) := by
  have hissued := s.issued_countIssue l g
  have hexec : exec (.ldw l gi w) s = execLdw l gi w s := rfl
  rw [hexec, execLdw, s.threadIssue_runs _ hrun]
  simp only [hissued.windowFault, firstFault_of_codes (fun k => s.windowFault_eq l (w.addrG g k) _) hfit,
    lanesStall_eq_false fun k hk => hissued.openAt (hopen k hk), Bool.false_eq_true, if_false]
  obtain ⟨hwidth, hquad⟩ := load_form (.inr rfl) hrun
  have hread : ∀ g' : Group, ∀ k ∈ accessLanes w g,
      w.putLoad (w.opxBits 2 0) k ((s.countIssue l g).windowRead (w.addrG g k) (memBytes (w.opxBits 2 0))) g' =
        w.putLoad (w.opxBits 2 0) k (s.bytes (w.addrG g k) (memBytes (w.opxBits 2 0))) g' := fun g' k hk => by
    rw [(hissued.openAt (hopen k hk)).windowRead, hissued.sameBytes.bytes_eq]
  rw [List.foldl_ext _ _ _ hread]
  obtain ⟨hframe, hgroup, hbytes⟩ := group_after_access hissued (OnlyMemory.refl _) (State.onlyCounts_countWindows ..)
  exact ⟨_, _, rfl, hframe, hissued.sameBytes.trans hbytes, hgroup,
    loaded_foldl_putLoad hwidth hquad fun k => s.length_bytes _ _⟩

/-! ### STW -/

/-- Bytes stored one by one. -/
theorem writesBytes_singles {addr : Nat → Nat} (haddr : ∀ i, addr i = a + i) (bs : List Byte) (m : Nat) (s : State) :
    WritesBytes s ((bs.zipIdx m).foldl (fun t x => t.store (addr x.2) [x.1]) s) (a + m) bs := by
  induction bs generalizing m s with
  | nil => exact SameBytes.writesNil (SameBytes.refl _)
  | cons x bs ih =>
    rw [List.zipIdx_cons, List.foldl_cons, haddr]
    exact (s.writesBytes_store (a + m) [x]).append (ih (m + 1) _)

theorem WritesBytes.store_congr {bs : List Byte} (h : SameBytes s t) (hw : WritesBytes t u a bs) : SameBytes (s.store a bs) u :=
  fun x => by rw [hw x, State.byte_store, h x]

/-- The writes of a list stored byte by byte. -/
def State.storeSingles (s : State) (ws : List (Nat × Nat × Byte)) : State :=
  ws.foldl (fun t x => t.store (localAddr x.1 x.2.1) [x.2.2]) s

theorem writesBytes_windowWrites {x : Nat × Nat} (h : windowOf a = some x) (bs : List Byte) (s : State) :
    WritesBytes s (s.storeSingles (windowWrites a bs)) a bs := by
  unfold windowWrites State.storeSingles
  rw [h]
  simp only [List.foldl_map]
  exact writesBytes_singles (localAddr_of_windowOf h) bs 0 s

/-- The writes of a group's lanes, as the windows take them. -/
def windowLanes (w : TWord) (g : Group) : List (Nat × Nat × Byte) :=
  (w.acting g).flatMap fun k => windowWrites (w.addrG g k) (w.storeBytes g (w.opxBits 2 0) k)

/-- Every write of the list falls where no stream queue is. -/
def State.PlainWrites (s : State) (ws : List (Nat × Nat × Byte)) : Prop := ∀ x ∈ ws, s.sqAt x.1 x.2.1 = none

theorem plainWrites_windowLanes (hopen : ∀ k ∈ w.acting g, s.OpenAt (w.addrG g k)) : s.PlainWrites (windowLanes w g) := by
  intro x hx
  obtain ⟨k, hk, hx⟩ := List.mem_flatMap.1 hx
  obtain ⟨c, off, hwindow, -, hsq⟩ := hopen k hk
  rw [windowWrites, hwindow] at hx
  obtain ⟨y, -, rfl⟩ := List.mem_map.1 hx
  exact hsq _

/-- Writes where no stream queue is are stored, byte by byte. -/
theorem State.windowWrite_plain {me : Nat} {de : Bool} {who : Pusher} {ws : List (Nat × Nat × Byte)} (h : s.PlainWrites ws) :
    s.windowWrite me de who ws = .inr (s.storeSingles ws) := by
  have hports : s.portsOf ws = [] := by
    unfold State.portsOf
    generalize hps : List.filterMap (β := Nat × Nat × SqPart) _ ws = ps
    obtain rfl : ps = [] := by
      rw [← hps]
      exact List.filterMap_eq_nil_iff.2 fun x hx => by rw [h x hx]
    rfl
  unfold State.windowWrite
  rw [hports]
  refine congrArg Sum.inr (List.foldl_ext _ _ _ fun t x hx => ?_)
  rw [h x hx]

/-- Stores through windows, byte by byte, leave memory as whole stores do. -/
theorem sameBytes_storeSingles {addr : Nat → Nat} (bs : Nat → List Byte) (lanes : List Nat) (hopen : ∀ k ∈ lanes, s.OpenAt (addr k))
    (t u : State) (hsame : SameBytes t u) :
    SameBytes (lanes.foldl (fun t k => t.store (addr k) (bs k)) t)
      (u.storeSingles (lanes.flatMap fun k => windowWrites (addr k) (bs k))) := by
  induction lanes generalizing t u with
  | nil => exact hsame
  | cons k lanes ih =>
    obtain ⟨c, off, hwindow, -, -⟩ := hopen k List.mem_cons_self
    rw [List.flatMap_cons, State.storeSingles, List.foldl_append]
    exact ih (fun j hj => hopen j (List.mem_cons_of_mem _ hj)) _ _ ((writesBytes_windowWrites hwindow _ u).store_congr hsame)

theorem exec_stw_fault {k c : Nat} (hrun : Runs s 0x185 l gi w g b) (hk : k ∈ w.acting g)
    (hcode : s.windowCode l (w.addrG g k) (memBytes (w.opxBits 2 0)) = some c)
    (hbefore : ∀ j ∈ w.acting g, j < k → s.windowCode l (w.addrG g j) (memBytes (w.opxBits 2 0)) = none) :
    ∃ t, exec (.stw l gi w) s = .next t ∧ Halts s t l gi g c := by
  refine halts_of_exec (b := b) (k := k) (a := w.addrG g k) ?_
  have hexec : exec (.stw l gi w) s = execStw l gi w s := rfl
  rw [hexec, execStw, s.threadIssue_runs _ hrun]
  simp only [(s.issued_countIssue l g).windowFault,
    firstFault_of_code (fun k => s.windowFault_eq l (w.addrG g k) _) (acting_sorted w g) hk hcode hbefore]

theorem exec_stw (hrun : Runs s 0x185 l gi w g b)
    (hfit : ∀ k ∈ w.acting g, s.windowCode l (w.addrG g k) (memBytes (w.opxBits 2 0)) = none)
    (hopen : ∀ k ∈ w.acting g, s.OpenAt (w.addrG g k)) :
    ∃ t, exec (.stw l gi w) s = .next t ∧ OnlyGroupAndMemory s t l gi ∧
      t.group l gi = some { g with pc := g.pc + w.bytes, fills := [], status := .ready } ∧
      SameBytes (s.storeActing w g (w.addrG g)) t := by
  have hissued := s.issued_countIssue l g
  have hexec : exec (.stw l gi w) s = execStw l gi w s := rfl
  rw [hexec, execStw, s.threadIssue_runs _ hrun]
  simp only [hissued.windowFault, firstFault_of_codes (fun k => s.windowFault_eq l (w.addrG g k) _) hfit,
    lanesStall_eq_false fun k hk => hissued.openAt (hopen k hk), Bool.false_eq_true, if_false]
  have hplain := s.windowWrite_plain (me := l) (de := false) (who := .block g.block) (plainWrites_windowLanes hopen)
  rw [windowLanes] at hplain
  rw [hplain, ← windowLanes]
  have hmem : OnlyMemory s (s.storeSingles (windowLanes w g)) :=
    onlyMemory_foldl (fun t x => t.onlyMemory_store _ _) _ s
  have hsame : SameBytes (s.storeActing w g (w.addrG g)) (s.storeSingles (windowLanes w g)) :=
    sameBytes_storeSingles (w.storeBytes g (w.opxBits 2 0)) (w.acting g) hopen s s (SameBytes.refl s)
  generalize s.storeSingles (windowLanes w g) = u at *
  obtain ⟨hframe, hgroup, hbytes⟩ := group_after_access (u.issued_countIssue l g) (OnlyMemory.refl _)
    (State.onlyCounts_countWindows ..)
  exact ⟨_, rfl, hmem.onlyGroupAndMemory hframe, hgroup, (hsame.trans (u.issued_countIssue l g).sameBytes).trans hbytes⟩

end Sys2Proof.Machine

open Sys2Proof Sys2Proof.Machine

/-- Settles O32. -/
theorem windowsOfGroups : Obligations.WindowsOfGroups := by
  unfold Obligations.WindowsOfGroups
  intro s l gi w g b
  refine ⟨fun hrun => ⟨fun hall => ?_, fun k c hk hcode hbefore => exec_ldw_fault hrun hk hcode hbefore⟩,
    fun hrun => ⟨fun hall => ?_, fun k c hk hcode hbefore => exec_stw_fault hrun hk hcode hbefore⟩⟩
  · exact exec_ldw hrun (fun k hk => (hall k hk).1) fun k hk => State.openAt_of_windowCode (hall k hk).1 (hall k hk).2
  · obtain ⟨t, hnext, hframe, hgroup, hbytes⟩ :=
      exec_stw hrun (fun k hk => (hall k hk).1) fun k hk => State.openAt_of_windowCode (hall k hk).1 (hall k hk).2
    refine ⟨t, hnext, hframe, hgroup, fun x hx => ?_, fun k hk i hi hlast => ?_⟩
    · rw [hbytes, byte_storeActing_other hx]
    · rw [hbytes, byte_storeActing_highest hk hi hlast]
end

section
/-!
Fields of registers after a write of one of them (R8).
-/

namespace Sys2Proof.Machine

open Sys2Proof

variable {s : State}

theorem getLsbD_putBits (w : W32) {hi lo i : Nat} (v : Nat) (hi' : i < 32) :
    (putBits w hi lo v).getLsbD i = if lo ≤ i ∧ i ≤ hi then v.testBit (i - lo) else w.getLsbD i := by
  have hmask : (BitVec.ofNat 32 ((2 ^ (hi + 1 - lo) - 1) <<< lo)).getLsbD i = decide (lo ≤ i ∧ i ≤ hi) := by
    rw [BitVec.getLsbD_ofNat, Nat.testBit_shiftLeft, Nat.testBit_two_pow_sub_one]
    by_cases hlo : lo ≤ i
    · by_cases hhi : i ≤ hi
      · simp [hi', hlo, hhi, show i - lo < hi + 1 - lo by omega]
      · simp [hlo, hhi, show ¬(i - lo < hi + 1 - lo) by omega]
    · simp [hlo]
  simp only [putBits, BitVec.getLsbD_or, BitVec.getLsbD_and, BitVec.getLsbD_not, hmask, hi', decide_true, Bool.true_and]
  split
  case isTrue h =>
    simp only [h.1, h.2, hi', and_self, decide_true, Bool.not_true, Bool.and_false, Bool.false_or, Bool.true_and, Bool.and_true,
      BitVec.getLsbD_ofNat, Nat.testBit_shiftLeft]
  case isFalse h => simp [h]

/-- A field reads what was put there. -/
theorem bitsOf_putBits_same (w : W32) {hi lo v : Nat} (hhi : hi < 32) (hv : v < 2 ^ (hi + 1 - lo)) :
    bitsOf (putBits w hi lo v) hi lo = v := by
  refine Nat.eq_of_testBit_eq fun i => ?_
  rw [bitsOf, Nat.testBit_mod_two_pow, Nat.testBit_shiftRight, BitVec.testBit_toNat]
  by_cases hi' : i < hi + 1 - lo
  · rw [getLsbD_putBits w v (by omega), if_pos (by omega), Nat.add_sub_cancel_left, decide_eq_true hi', Bool.true_and]
  · rw [decide_eq_false hi', Bool.false_and,
      Nat.testBit_lt_two_pow (hv.trans_le (Nat.pow_le_pow_right (by decide) (Nat.not_lt.1 hi')))]

/-- A physical core bears the logical core that runs on it (R19). -/
theorem State.physOf_of_logicalOf {k l : Nat} (h : s.logicalOf k = some l) : s.physOf l = k := by
  have hslot := List.find?_some h
  obtain ⟨i, hi, rfl⟩ := List.mem_map.1 (List.mem_of_find?_eq_some h)
  rw [List.mem_range] at hi
  rw [beq_iff_eq] at hslot
  rw [State.physOf, hslot, if_neg (by omega)]
  omega

end Sys2Proof.Machine
end

section
/-!
The split of local memory: at once, pending, or refused (R122, R123).
-/

namespace Sys2Proof.Machine

open Sys2Proof

variable {s t u v : State} {l n : Nat}

/-! ### Free values -/

/-- The states differ in bytes of one range and in the free values drawn. -/
def Freed (s t : State) (a n : Nat) : Prop := t = { s with mem := t.mem, freeCtr := t.freeCtr } ∧ SameBytesBut s t a n

theorem freed_poke {a k : Nat} (hk : k < n) (b : Byte) (h : Freed s t a n) : Freed s ((t.poke (a + k) b).nextFree) a n := by
  obtain ⟨hframe, hbytes⟩ := h
  refine ⟨by rw [hframe]; rfl, fun x hx => ?_⟩
  rw [← hbytes x hx]
  have hmem : SMap.get blankByte (SMap.set blankByte t.mem (a + k) b) x = SMap.get blankByte t.mem x :=
    SMap.get_set_other _ _ _ (by omega)
  show (if t.lost.contains (granuleOf x) then _ else SMap.get blankByte (SMap.set blankByte t.mem (a + k) b) x) = t.byte x
  rw [hmem]
  rfl

theorem freed_foldl {a : Nat} (ks : List Nat) (hks : ∀ k ∈ ks, k < n) (t : State) (h : Freed s t a n) :
    Freed s (ks.foldl (fun s k => (s.poke (a + k) (s.freeWord.setWidth 8)).nextFree) t) a n := by
  induction ks generalizing t with
  | nil => exact h
  | cons k ks ih => exact ih (fun j hj => hks j (List.mem_cons_of_mem _ hj)) _ (freed_poke (hks k List.mem_cons_self) _ h)

theorem State.freed_scramble (s : State) (a n : Nat) : Freed s (s.scramble a n) a n :=
  freed_foldl _ (fun _ hk => List.mem_range.1 hk) s ⟨rfl, fun _ _ => rfl⟩

/-! ### A change that takes effect -/

theorem State.endUnfit_of_none (hgrids : (s.core l).ve.grids = []) (hpulled : (s.cluster (l / 8)).pulled = []) :
    s.endUnfit l = s := by
  have hgrid : ∀ k, s.grid l k = none := fun k => by rw [State.grid, hgrids]; rfl
  unfold State.endUnfit
  simp only [show List.range 4 = [0, 1, 2, 3] from rfl, List.foldl_cons, List.foldl_nil, hgrid, hpulled]

/-- What a split of local memory leaves on a core that it fits (R123). -/
def SplitTaken (s t : State) (l n : Nat) : Prop :=
  t.field .CORE_VE_CFG (s.physOf l) 0 7 4 = n ∧
    (n ≠ s.field .CORE_VE_CFG (s.physOf l) 0 7 4 → (t.core l).ve.l1 = []) ∧
    (n = s.field .CORE_VE_CFG (s.physOf l) 0 7 4 → SameBytes s t ∧ (t.core l).ve.l1 = (s.core l).ve.l1) ∧
    (t.core l).ve.splitPending = none ∧ SameBytesBut s t (localAddr l 0) (n * 65536) ∧ t.cc l = s.cc l

theorem State.lmSize_setField (hl : l < 768) (hn : n < 16) :
    (s.setField .CORE_VE_CFG (s.physOf l) 0 7 4 n).lmSize l = n * 65536 := by
  generalize hu : s.setField .CORE_VE_CFG (s.physOf l) 0 7 4 n = u
  have hslot : u.slotOf l = s.slotOf l := by
    rw [← hu]
    exact congrArg (bitsOf · _ _) (State.reg_setReg_other s _ (by simp) (s.physOf_lt hl) (by omega) (by omega) (by omega))
  have hphys : u.physOf l = s.physOf l := by rw [State.physOf, hslot]; rfl
  rw [State.lmSize, hphys, ← hu, State.field, State.setField_eq, State.reg_setReg_same, bitsOf_putBits_same _ (by omega) hn]

theorem splitTaken_applySplit (hl : l < 768) (hn : n < 16) (hgrids : (s.core l).ve.grids = [])
    (hpulled : (s.cluster (l / 8)).pulled = []) : SplitTaken s (s.applySplit l (some n) none) l n := by
  have hsize := s.lmSize_setField hl hn
  have hfield : (s.setField .CORE_VE_CFG (s.physOf l) 0 7 4 n).field .CORE_VE_CFG (s.physOf l) 0 7 4 = n := by
    rw [State.field, State.setField_eq, State.reg_setReg_same, bitsOf_putBits_same _ (by omega) hn]
  unfold State.applySplit
  simp only [Option.any_some, Option.any_none, Bool.or_false, hsize, bne_iff_ne]
  generalize hold : s.field .CORE_VE_CFG (s.physOf l) 0 7 4 = old
  generalize hu : s.setField .CORE_VE_CFG (s.physOf l) 0 7 4 n = u at hfield
  have hsu : u = { s with regs := u.regs } := by rw [← hu]; rfl
  generalize hv : (if n ≠ old then u.scramble (localAddr l 0) (n * 65536) else u) = v
  have hfreed : Freed u v (localAddr l 0) (n * 65536) := by
    rw [← hv]
    split
    · exact u.freed_scramble _ _
    · exact ⟨rfl, fun _ _ => rfl⟩
  have hkeep : n = old → v = u := fun h => by rw [← hv, if_neg (not_not.2 h)]
  obtain ⟨hframe, hbytes⟩ := hfreed
  have hcore : v.core l = s.core l := by rw [hframe, hsu]; rfl
  rw [State.endUnfit_of_none (by rw [State.modVE_eq, State.core_setCore_same, hcore]; exact hgrids) (by
    have hcluster : v.cluster (l / 8) = s.cluster (l / 8) := by rw [hframe, hsu]; rfl
    exact (congrArg Cluster.pulled hcluster).trans hpulled), State.modVE_eq, hcore]
  have hreg : v.field .CORE_VE_CFG (s.physOf l) 0 7 4 = n := by rw [← hfield, hframe]; rfl
  refine ⟨hreg, fun hne => ?_, fun heq => ⟨?_, ?_⟩, ?_, fun x hx => ?_, ?_⟩
  · rw [State.core_setCore_same, if_pos (by simpa [hold] using hne)]
  · rw [hkeep (heq.trans hold)]
    exact sameBytes_of_eq (by rw [hsu]; rfl) (by rw [hsu]; rfl)
  · rw [State.core_setCore_same, if_neg (by simpa [hold] using heq)]
  · rw [State.core_setCore_same]
  · refine Eq.trans (hbytes x hx) ?_
    rw [hsu]
    rfl
  · rw [State.cc, State.core_setCore_same]
    rfl

end Sys2Proof.Machine

open Sys2Proof Sys2Proof.Machine

/-- Settles O19. -/
theorem splitOfLocalMemory : Obligations.SplitOfLocalMemory := by
  unfold Obligations.SplitOfLocalMemory
  intro s l hgrids hpulled
  refine ⟨fun a k v n hlogical hn hmay => ?_, fun n hlo hhi hresident hpending hresv => ?_⟩
  · have hexec : exec (.veCfgWrite a k v) s = .next (s.veCfgWrite k v) := by
      have hexec : exec (.veCfgWrite a k v) s = execVeCfgWrite a k v s := rfl
      rw [hexec, execVeCfgWrite, if_pos hmay]
    have hphys := State.physOf_of_logicalOf hlogical
    refine ⟨fun hlo hhi hresident hresv => ⟨_, hexec, ?_⟩, fun hlo hhi hresident => ⟨_, hexec, ?_⟩, fun hout => ?_⟩
    · have hwrite : s.veCfgWrite k v = s.applySplit l (some n) none := by
        simp only [State.veCfgWrite, State.splitWrite, hn, hlo, hhi, and_self, if_true, hlogical, hresident, hresv,
          Option.orElse_some, Option.orElse_none]
      have htaken := splitTaken_applySplit l.isLt (by omega : n < 16) hgrids hpulled
      rw [hwrite]
      unfold SplitTaken at htaken
      rw [hphys] at htaken
      exact htaken
    · have hwrite : s.veCfgWrite k v = s.modVE l fun v => { v with splitPending := some n } := by
        simp only [State.veCfgWrite, State.splitWrite, hn, hlo, hhi, and_self, if_true, hlogical, hresident, if_false,
          Option.orElse_some, Option.orElse_none]
      rw [hwrite, State.modVE_eq]
      refine ⟨by rw [State.core_setCore_same], onlyCore_setCore (s := s) l _, ?_⟩
      rw [State.cc, State.core_setCore_same]
      rfl
    · rw [hexec, State.veCfgWrite, if_neg (by omega)]
  · have hexec : exec (.splitApply l) s = execSplitApply l s := rfl
    refine ⟨_, ?_, splitTaken_applySplit l.isLt (by omega : n < 16) hgrids hpulled⟩
    rw [hexec, execSplitApply]
    simp only [hresident, hpending, hresv]
    rfl
end

section
/-!
LAUNCH: its start, its grid entry in a launch ring, and its kill (R106 to R109, R126).
-/

namespace Sys2Proof.Machine

open Sys2Proof

variable {s t u v : State} {l : CoreId}

/-! ### A grid set in its slot -/

theorem State.grid_of_cores {l k : Nat} (h : t.cores = s.cores) : t.grid l k = s.grid l k := by
  unfold State.grid State.core
  rw [h]

theorem State.entry_of_core {l q acc : Nat} (h : t.core l = s.core l) : t.entry l q acc = s.entry l q acc := by
  unfold State.entry State.queue
  rw [h]

theorem State.entry_of_cores {l q acc : Nat} (h : t.cores = s.cores) : t.entry l q acc = s.entry l q acc :=
  State.entry_of_core (by unfold State.core; rw [h])

theorem State.entry_setGrid (s : State) (l k : Nat) (x : Option Grid) (q acc : Nat) :
    (s.setGrid l k x).entry l q acc = s.entry l q acc := by
  unfold State.entry State.queue State.setGrid
  rw [State.modVE_eq, State.core_setCore_same]
  rfl

theorem State.cc_setGrid (s : State) (l k : Nat) (x : Option Grid) : (s.setGrid l k x).cc l = s.cc l := by
  unfold State.cc State.setGrid
  rw [State.modVE_eq, State.core_setCore_same]

theorem State.core_setGrid_other {l c : Nat} (s : State) (k : Nat) (x : Option Grid) (h : c ≠ l) :
    (s.setGrid l k x).core c = s.core c := State.core_setCore_other _ _ h

theorem State.cc_modEntry (s : State) (l q acc : Nat) (f : QEntry → QEntry) : (s.modEntry l q acc f).cc l = s.cc l := by
  unfold State.cc
  rw [State.modEntry_eq, State.modQueue_eq, State.core_setCore_same]
  rfl

theorem State.core_modEntry_other {l c : Nat} (s : State) (q acc : Nat) (f : QEntry → QEntry) (h : c ≠ l) :
    (s.modEntry l q acc f).core c = s.core c := State.core_setCore_other _ _ h

/-! ### The start of a LAUNCH (R106) -/

/-- The grid that a LAUNCH starts in a slot. -/
def launchGrid (l : CoreId) (e : QEntry) (k : Nat) : Grid :=
  let mode := e.desc.fld 99 1
  { acc := e.acc, publisher := l, pslot := k, ring := if mode.testBit 7 then some (mode % 4) else none, body := e.desc.body,
    span := BitVec.ofNat 32 e.desc.spanTag, total := blocksOf e.desc.body }

/-- An entry that runs in a grid slot. -/
def QEntry.launched (k : Nat) (e : QEntry) : QEntry := { e with st := .running, slot := some k }

/-- A LAUNCH as it has started, before the grid is held against local memory. -/
def State.launched (s : State) (l : CoreId) (e : QEntry) (k : Nat) : State :=
  (((s.modEntry l 0 e.acc (QEntry.launched k)).setGrid l k (some (launchGrid l e k))).dropWaiter (entryWaiter l 0 e.acc))

/-- What differs after a LAUNCH has started: its core's queue and grids, and the registrations of waiters. -/
structure Launched (s t : State) (l : CoreId) (e : QEntry) (k : Nat) (g : Grid) : Prop where
  grid : t.grid l k = some g
  entry : t.entry l 0 e.acc = some (e.launched k)
  cc : t.cc l = s.cc l
  others : ∀ c, c ≠ l.val → t.core c = s.core c
  free : ∀ c, t.Free (entryWaiter l 0 e.acc) c

theorem State.launched_frame (s : State) (l : CoreId) (e : QEntry) (k : Nat) : s.launched l e k =
    { s with cores := (s.launched l e k).cores, counters := (s.launched l e k).counters,
             retries := (s.launched l e k).retries } := by
  rw [State.launched, State.dropWaiter_frame]
  rfl

theorem State.launched_spec {e : QEntry} (k : Nat) (hentry : s.entry l 0 e.acc = some e) :
    Launched s (s.launched l e k) l e k (launchGrid l e k) := by
  have hcore : ∀ c, (s.launched l e k).core c =
      ((s.modEntry l 0 e.acc (QEntry.launched k)).setGrid l k (some (launchGrid l e k))).core c := fun c => State.core_dropWaiter ..
  refine ⟨?_, ?_, ?_, fun c hc => ?_, fun c => State.dropWaiter_free _ _ c⟩
  · exact (congrArg (fun c : Core => SMap.get none c.ve.grids k) (hcore l)).trans (State.grid_setGrid_same ..)
  · rw [State.entry_of_core (hcore l), State.entry_setGrid, State.entry_modEntry_same (f := QEntry.launched k) (fun _ => rfl)
      hentry]
  · rw [State.cc, hcore, ← State.cc, State.cc_setGrid, State.cc_modEntry]
  · rw [hcore, State.core_setGrid_other _ _ _ hc, State.core_modEntry_other _ _ _ _ hc]

/-- A grid set again leaves all else of a started LAUNCH. -/
theorem Launched.setGrid {e : QEntry} {k : Nat} {g : Grid} (h : Launched s t l e k g) (hrecord : OnlyRecords t u) (x : Grid) :
    Launched s (u.setGrid l k (some x)) l e k x := by
  obtain ⟨-, hcores, hcounters, -, -⟩ := hrecord.rest
  have hcore : ∀ c, u.core c = t.core c := fun c => by rw [State.core, hcores]; rfl
  refine ⟨State.grid_setGrid_same .., ?_, ?_, fun c hc => ?_, fun c => ?_⟩
  · rw [State.entry_setGrid, State.entry_of_core (hcore l), h.entry]
  · rw [State.cc_setGrid, State.cc, hcore, ← State.cc, h.cc]
  · rw [State.core_setGrid_other _ _ _ hc, hcore, h.others c hc]
  · have hfree := h.free c
    unfold State.Free State.counter at hfree ⊢
    rw [← hcounters] at hfree
    exact hfree

/-- A LAUNCH as it starts: a local-mode grid that cannot fit local memory is killed at once, with a fault (R107, R123). -/
def State.launchResult (s : State) (l : CoreId) (e : QEntry) (k : Nat) : State :=
  if (launchGrid l e k).ring.isNone && decide (s.blockLm l < localOf (launchGrid l e k).body) then
    ((s.launched l e k).recordVeFault l k 0 0 8 (localOf (launchGrid l e k).body) (launchGrid l e k).span).setGrid l k
      (some { launchGrid l e k with killed := true })
  else s.launched l e k

theorem State.startLaunch_eq {e : QEntry} {k : Nat} (hold : (s.queue l 0).oldestPending = some e) (hop : e.desc.opcode = 1)
    (hmet : s.waitsMet l 0 e = true) (hstopped : s.engineStopped l 0 = false) (hfenced : s.fenced l = false)
    (hvoid : e.void = false) (hslot : s.freeSlot l = some k) (htrace : traceBit (s.mode 0 (.ve l)).2 = false) :
    s.startLaunch l = some (s.launchResult l e k) := by
  have htraceStart : ((s.modEntry l 0 e.acc (QEntry.launched k)).setGrid l k (some (launchGrid l e k))).traceStart l 0 e =
      s.launched l e k := by
    unfold State.traceStart
    refine congrArg (State.dropWaiter · (entryWaiter l 0 e.acc)) ?_
    unfold State.traceInstr State.traceUnit
    split
    · rfl
    · exact if_neg (by rw [if_pos (by decide)]; exact ne_true_of_eq_false htrace)
  have hsize : (s.launched l e k).blockLm l = s.blockLm l := by rw [s.launched_frame]; rfl
  unfold State.startLaunch State.launchResult
  rw [hold]
  dsimp only
  simp only [hop, hvoid, hmet, hstopped, hfenced, hslot, ne_eq, not_true_eq_false, decide_false, Bool.not_true, Bool.or_false,
    Bool.false_eq_true, if_false]
  delta QEntry.launched at htraceStart
  dsimp only [launchGrid] at htraceStart ⊢
  simp only [htraceStart, hsize]
  exact (apply_ite some _ _ _).symm

theorem exec_launch {e : QEntry} {k : Nat} (hentry : s.entry l 0 e.acc = some e)
    (hstart : s.startLaunch l = some (s.launchResult l e k)) :
    ∃ t g, exec (.launch l) s = .next t ∧ Launched s t l e k g ∧ SameBytes s t ∧
      g = { launchGrid l e k with killed := (launchGrid l e k).ring.isNone && decide (s.blockLm l < localOf e.desc.body) } ∧
      (g.killed = false → t = { s with cores := t.cores, counters := t.counters, retries := t.retries }) := by
  have hexec : exec (.launch l) s = .next ((s.startLaunch l).getD s) := rfl
  have hbytes : SameBytes s (s.launched l e k) :=
    sameBytes_of_eq (t := s.launched l e k) (by rw [s.launched_frame]) (by rw [s.launched_frame])
  rw [hstart, Option.getD_some, State.launchResult] at hexec
  cases hkilled : (launchGrid l e k).ring.isNone && decide (s.blockLm l < localOf (launchGrid l e k).body)
  case true =>
    rw [hkilled, if_pos rfl] at hexec
    have hrecord := (s.launched l e k).onlyRecords_recordVeFault l k 0 0 8 (localOf (launchGrid l e k).body) (launchGrid l e k).span
    refine ⟨_, _, hexec, (s.launched_spec k hentry).setGrid hrecord _, ?_, ?_, fun h => ?_⟩
    · exact (hbytes.trans hrecord.rest.1).trans (sameBytes_of_eq rfl rfl)
    · rw [← hkilled]; rfl
    · cases h
  case false =>
    rw [hkilled, if_neg (by decide)] at hexec
    refine ⟨_, _, hexec, s.launched_spec k hentry, hbytes, ?_, fun _ => s.launched_frame l e k⟩
    have hbody : (launchGrid l e k).body = e.desc.body := rfl
    rw [← hbody, hkilled]
    rfl

/-! ### The end of a killed grid (R109, R126) -/

/-- An entry that is done. -/
def QEntry.ended (e : QEntry) : QEntry := { e with done := true }

/-- The state after a killed grid's LAUNCH has completed. -/
def State.killCompleted (s : State) (l slot : Nat) (g : Grid) : State :=
  (s.gridOver l slot g).setField .CORE_VE_STATUS (s.physOf l) 0 30 30 1

theorem exec_gridKillComplete {slot : Fin 4} {g : Grid} {p : Nat} (hgrid : s.grid l slot = some g) (hp : s.partOf l = some p)
    (hkilled : g.killed = true) (hpub : g.publisher = l.val) (hslot : g.pslot = slot.val)
    (hended : ∀ c, ∀ e ∈ (s.cluster c).blocks, ∀ x, e.2 = some x → x.gridId = g.id → x.st = .ended) :
    exec (.gridKillComplete l slot) s = .next (s.killCompleted l slot g) := by
  have hexec : exec (.gridKillComplete l slot) s = execGridKillComplete l slot s := rfl
  have hnone : ((s.clustersOf p).any fun c => (s.cluster c).blocks.any fun e =>
      match e.2 with
      | some b => decide (b.gridId = g.id) && decide (b.st ≠ .ended)
      | none => false) = false := by
    refine List.any_eq_false.2 fun c _ => ?_
    rw [Bool.not_eq_true]
    refine List.any_eq_false.2 fun e he => ?_
    cases hb : e.2 with
    | none => simp
    | some b => by_cases hid : b.gridId = g.id <;> simp [hid, hended c e he b hb]
  rw [hexec, execGridKillComplete, hgrid, hp]
  simp only [hkilled, hpub, hslot]
  exact (if_neg (by simp)).trans (if_neg (ne_true_of_eq_false hnone))

theorem State.gridOver_frame (s : State) (l k : Nat) (g : Grid) :
    s.gridOver l k g = { s with cores := (s.gridOver l k g).cores, regs := (s.gridOver l k g).regs } := by
  have hcores : (s.setGrid l k none).modEntry l 0 g.acc QEntry.ended =
      { s with cores := ((s.setGrid l k none).modEntry l 0 g.acc QEntry.ended).cores } := rfl
  have hover : s.gridOver l k g = ((s.setGrid l k none).modEntry l 0 g.acc QEntry.ended).setReg .CORE_VE_KILL (s.physOf l) 0
      (putBits (s.reg .CORE_VE_KILL (s.physOf l)) k k 0) := rfl
  rw [hover, hcores]
  rfl

theorem State.core_gridOver (s : State) (l k : Nat) (g : Grid) (c : Nat) :
    (s.gridOver l k g).core c = ((s.setGrid l k none).modEntry l 0 g.acc QEntry.ended).core c := rfl

/-- A grid slot whose LAUNCH is over. -/
theorem State.gridOver_spec (s : State) (l : CoreId) (k : Nat) (g : Grid) :
    (s.gridOver l k g).grid l k = none ∧
      ∀ e, s.entry l 0 g.acc = some e → (s.gridOver l k g).entry l 0 g.acc = some e.ended := by
  refine ⟨?_, fun e he => ?_⟩
  · have hve : ((s.gridOver l k g).core l).ve = ((s.setGrid l k none).core l).ve := by
      rw [State.core_gridOver, State.modEntry_eq, State.modQueue_eq, State.core_setCore_same]
      rfl
    rw [State.grid, hve, ← State.grid, State.grid_setGrid_same]
  · rw [State.entry_of_core (s.core_gridOver l k g l), State.entry_modEntry_same (f := QEntry.ended) (fun _ => rfl)]
    rw [State.entry_setGrid, he]

theorem State.killCompleted_frame (s : State) (l : CoreId) (slot : Fin 4) (g : Grid) : s.killCompleted l slot g =
    { s with cores := (s.killCompleted l slot g).cores, regs := (s.killCompleted l slot g).regs } := by
  have hover := s.gridOver_frame l slot g
  unfold State.killCompleted
  generalize s.gridOver l slot g = v at *
  have hset : v.setField .CORE_VE_STATUS (s.physOf l) 0 30 30 1 =
      { v with regs := (v.setField .CORE_VE_STATUS (s.physOf l) 0 30 30 1).regs } := rfl
  generalize (v.setField .CORE_VE_STATUS (s.physOf l) 0 30 30 1) = t at *
  rw [hset, hover]

theorem State.killCompleted_spec (s : State) (l : CoreId) (slot : Fin 4) (g : Grid) :
    ((s.killCompleted l slot g).reg .CORE_VE_STATUS (s.physOf l)).getLsbD 30 = true ∧
      ((s.killCompleted l slot g).reg .CORE_VE_KILL (s.physOf l)).getLsbD slot = false ∧
      (s.killCompleted l slot g).cores = (s.gridOver l slot g).cores := by
  have hkill : (s.gridOver l slot g).reg .CORE_VE_KILL (s.physOf l) =
      putBits (s.reg .CORE_VE_KILL (s.physOf l)) slot slot 0 := State.reg_setReg_same ..
  unfold State.killCompleted
  generalize s.gridOver l slot g = v at *
  refine ⟨?_, ?_, by simp⟩
  · rw [State.setField_eq, State.reg_setReg_same, getLsbD_putBits _ _ (by omega), if_pos (by omega)]
    rfl
  · have hlt := slot.isLt
    have hreg : (v.setField .CORE_VE_STATUS (s.physOf l) 0 30 30 1).reg .CORE_VE_KILL (s.physOf l) =
        v.reg .CORE_VE_KILL (s.physOf l) :=
      State.reg_setReg_other _ _ (by simp) (s.physOf_lt l.isLt) (by omega) (s.physOf_lt l.isLt) (by omega)
    rw [hreg, hkill, getLsbD_putBits _ _ (by omega), if_pos (by omega)]
    simp

/-! ### A kill of a grid that has no block record (R126) -/

theorem State.stopGrid_of_no_blocks (h : ∀ c, (s.cluster c).blocks = []) (p : Nat) (i : GridId) : s.stopGrid p i = s := by
  refine foldl_keeps (· = s) _ (fun u c hu => ?_) _ s rfl
  subst hu
  rw [h]
  rfl

/-- A fold in which one turn alone acts, once. -/
theorem foldl_single {α β : Type} {f : β → α → β} {a : α} {ks : List α} (hnodup : ks.Nodup) (ha : a ∈ ks)
    (hf : ∀ b j, j ≠ a → f b j = b) (b : β) : ks.foldl f b = f b a := by
  obtain ⟨pre, post, rfl⟩ := List.append_of_mem ha
  rw [List.nodup_middle, List.nodup_cons, List.mem_append, not_or] at hnodup
  have hidle : ∀ (ks : List α) (b : β), a ∉ ks → ks.foldl f b = b := by
    intro ks b hks
    induction ks with
    | nil => rfl
    | cons j ks ih =>
      rw [List.foldl_cons, hf b j fun h => hks (h ▸ List.mem_cons_self), ih fun h => hks (List.mem_cons_of_mem _ h)]
  rw [List.foldl_append, List.foldl_cons, hidle pre b hnodup.1.1, hidle post _ hnodup.1.2]

/-- The state after a grid that has no block record is killed. -/
def State.killMarked (s : State) (k : PhysId) (l : CoreId) (b : Fin 4) (g : Grid) : State :=
  (s.setField .CORE_VE_KILL k 0 b b 1).setGrid l b (some { g with killed := true })

theorem exec_veKill {a : Agent} {k : PhysId} {b : Fin 4} {g : Grid} {p : Nat} (hlogical : s.logicalOf k = some l.val)
    (hmay : s.mayWrite a { name := .CORE_VE_KILL, i := k } = true) (hp : s.partOf l = some p) (hgrid : s.grid l b = some g)
    (hpub : g.publisher = l.val) (hslot : g.pslot = b.val) (hkilled : g.killed = false) (hring : g.ring = none)
    (hblocks : ∀ c, (s.cluster c).blocks = []) :
    exec (.veKill a k (BitVec.ofNat 32 (2 ^ b.val))) s = .next (s.killMarked k l b g) := by
  have hexec : exec (.veKill a k (BitVec.ofNat 32 (2 ^ b.val))) s = execVeKill a k (BitVec.ofNat 32 (2 ^ b.val)) s := rfl
  have hbit : ∀ j, j ≠ b.val → (BitVec.ofNat 32 (2 ^ b.val)).getLsbD j = false := fun j hj => by
    rw [BitVec.getLsbD_ofNat, Nat.testBit_two_pow_of_ne (Ne.symm hj), Bool.and_false]
  have hbit' : (BitVec.ofNat 32 (2 ^ b.val)).getLsbD b.val = true := by
    rw [BitVec.getLsbD_ofNat, Nat.testBit_two_pow_self, decide_eq_true (by omega), Bool.and_true]
  rw [hexec, execVeKill, if_pos hmay, State.veKillWrite, hlogical]
  dsimp only
  rw [foldl_single List.nodup_range (a := b.val) (List.mem_range.2 b.isLt) fun u j hj => by
    rw [hbit j hj]
    cases u.grid l j <;> rfl]
  rw [hgrid]
  dsimp only
  rw [hbit', hpub, hslot, hkilled, if_pos (by simp)]
  have hkill : (s.setField .CORE_VE_KILL k 0 b b 1).killGrid l b = (s.killMarked k l b g).stopGrid p g.id := by
    unfold State.killGrid State.killMarked
    rw [show (s.setField .CORE_VE_KILL k 0 b b 1).grid l b = some g from hgrid,
      show (s.setField .CORE_VE_KILL k 0 b b 1).partOf l = some p from hp]
    simp only [hpub, hslot, hring]
    exact if_neg (by simp)
  rw [hkill, State.stopGrid_of_no_blocks (s := s.killMarked k l b g) hblocks]

theorem State.killMarked_spec (s : State) (k : PhysId) (l : CoreId) (b : Fin 4) (g : Grid) :
    ((s.killMarked k l b g).reg .CORE_VE_KILL k).getLsbD b = true ∧ (s.killMarked k l b g).cc l = s.cc l := by
  have hlt := b.isLt
  refine ⟨?_, ?_⟩
  · have hreg : (s.killMarked k l b g).reg .CORE_VE_KILL k = putBits (s.reg .CORE_VE_KILL k) b b 1 := State.reg_setReg_same ..
    rw [hreg, getLsbD_putBits _ _ (by omega), if_pos (by omega), Nat.sub_self]
    rfl
  · exact State.cc_setGrid ..

/-! ### Partition memory of one piece -/

/-- A read of one piece of this module's memory, which memory alone holds. -/
theorem State.partRead_single {p a n x : Nat} (hs : Quiet s) (hlocal : s.pinnedLocal p a n = some [(x, n)])
    (hmem : s.isMemoryRange x n = true) (u : Unit) :
    ∃ t, s.partRead u p a n = some (s.bytes x n, t) ∧ OnlyTags s t ∧ Accessed s t := by
  have hread : s.partRead u p a n = some (s.readPieces u [(x, n)]) := by
    unfold State.partRead
    rw [hlocal]
    exact if_pos (by simp [hmem])
  have hpieces : s.readPieces u [(x, n)] = (s.bytes x n, (s.readMem u x n).2) := by
    show ([] ++ (s.readMem u x n).1, (s.readMem u x n).2) = _
    rw [List.nil_append, (State.readMem_quiet hs u x n false).1]
  exact ⟨_, hread.trans (congrArg some hpieces), (State.readMem_quiet hs u x n false).2, s.accessed_readMem ..⟩

/-- A write of one piece of this module's memory, where nothing is armed. -/
theorem State.partWrite_single {p a x : Nat} {bs : List Byte} (hs : Plain s)
    (hlocal : s.pinnedLocal p a bs.length = some [(x, bs.length)]) (hmem : s.isMemoryRange x bs.length = true) (u : Unit) :
    OnlyStores s (s.partWrite u p a bs) ∧ WritesBytes s (s.partWrite u p a bs) x bs ∧ Accessed s (s.partWrite u p a bs) := by
  have hwrite : s.partWrite u p a bs = s.writeMem u x bs := by
    unfold State.partWrite
    rw [hlocal]
    refine (if_pos (by simp [hmem])).trans ?_
    rw [State.writePieces, List.foldl_cons, List.foldl_nil, List.take_length]
  rw [hwrite]
  exact ⟨(State.writeMem_plain hs u x bs).1, (State.writeMem_plain hs u x bs).2, s.accessed_writeMem ..⟩

/-! ### The grid entry of a ring-mode LAUNCH (R108) -/

/-- The 64 bytes of a grid entry (Table 4.6). -/
def gridEntry (l : CoreId) (slot : Fin 4) (g : Grid) : List Byte :=
  leBytes 56 g.body.toNat ++ leBytes 2 l ++ leBytes 1 slot ++ leBytes 5 0

theorem length_gridEntry (l : CoreId) (slot : Fin 4) (g : Grid) : (gridEntry l slot g).length = 64 := by
  simp only [gridEntry, List.length_append, length_leBytes]

theorem fieldLe_bytes (s : State) (a m n k : Nat) : fieldLe (s.bytes a (m + n + k)) m n = s.load (a + m) n := by
  rw [fieldLe, State.drop_take_bytes, State.load]

/-- A ring with room takes the grid's entry at its tail, and the tail moves on. -/
theorem exec_gridEntryAppend {slot : Fin 4} {g : Grid} {p r base x y h : Nat} (hgrid : s.grid l slot = some g)
    (hp : s.partOf l = some p) (hring : g.ring = some r) (hentry : g.entry = none) (hpub : g.publisher = l.val)
    (hkilled : g.killed = false) (hplain : Plain s) (hbase : s.ringAddr (l / 8) r = base)
    (hheader : s.pinnedLocal p base 16 = some [(h, 16)]) (hheaderMem : s.isMemoryRange h 16 = true) (hsize : s.load (h + 12) 4 ≠ 0)
    (hroom : (s.load (h + 8) 4 + 2 ^ 32 - s.load (h + 4) 4) % 2 ^ 32 < s.load (h + 12) 4)
    (hheld : s.entryHeld p r ((s.load (h + 8) 4 + 2 ^ 32 - s.load (h + 12) 4) % 2 ^ 32) = false)
    (hplace : s.pinnedLocal p (ringEntry base (s.load (h + 12) 4) (s.load (h + 8) 4)) 64 = some [(x, 64)])
    (htail : s.pinnedLocal p (base + 8) 4 = some [(y, 4)]) (hplaceMem : s.isMemoryRange x 64 = true)
    (htailMem : s.isMemoryRange y 4 = true) :
    ∃ t u v, exec (.gridEntryAppend l slot) s = .next (t.setGrid l slot (some { g with entry := some (s.load (h + 8) 4) })) ∧
      SameBytes s u ∧ WritesBytes u v x (gridEntry l slot g) ∧ WritesBytes v t y (leBytes 4 (s.load (h + 8) 4 + 1)) := by
  have hexec : exec (.gridEntryAppend l slot) s = execGridEntryAppend l slot s := rfl
  obtain ⟨u, hread, htags, hacc⟩ := State.partRead_single hplain.quiet hheader hheaderMem (.ve l)
  have hplain1 : Plain u := htags.stored.only.plain hplain
  have hheldU : u.entryHeld p r = s.entryHeld p r := by rw [htags]; rfl
  obtain ⟨honly, hwrites, hacc2⟩ := State.partWrite_single (bs := gridEntry l slot g) hplain1
    (by rw [length_gridEntry, hacc.samePlaces.pinnedLocal, hplace])
    (by rw [length_gridEntry, hacc.samePlaces.isMemoryRange, hplaceMem]) (.ve l)
  have hplaces := (hacc.trans hacc2).samePlaces
  obtain ⟨-, hwrites2, -⟩ := State.partWrite_single (bs := leBytes 4 (s.load (h + 8) 4 + 1)) (honly.plain hplain1)
    (by rw [length_leBytes, hplaces.pinnedLocal, htail]) (by rw [length_leBytes, hplaces.isMemoryRange, htailMem]) (.ve l)
  refine ⟨_, u, _, ?_, htags.sameBytes, hwrites, hwrites2⟩
  rw [hexec, execGridEntryAppend]
  simp only [hgrid, hp, hring, hentry]
  simp only [hpub, hkilled, hbase, hread, fieldLe_bytes s h 4 4 8, fieldLe_bytes s h 8 4 4, fieldLe_bytes s h 12 4 0, hheldU, hheld,
    hsize, Nat.not_le.2 hroom, ne_eq, not_true_eq_false, decide_false, Bool.or_false, Bool.false_eq_true, if_false]
  rfl

end Sys2Proof.Machine

open Sys2Proof Sys2Proof.Machine

/-- Settles O17. -/
theorem gridsStartAndAppendEntries : Obligations.GridsStartAndAppendEntries := by
  unfold Obligations.GridsStartAndAppendEntries
  refine ⟨fun s l e k hold hentry hop hmet hstopped hfenced hvoid hslot htrace => ?_,
    fun s l slot g p r x y h hgrid hp hring hentry hpub hkilled hpresence hflight harmed hheader hheaderMem hsize hroom hheld hplace
      htail hplaceMem htailMem hapart => ?_,
    fun s a k l b g p hlogical hmay hp hgrid hpub hslot hkilled hring hblocks => ?_,
    fun s l slot g p hgrid hp hkilled hpub hslot hended => ?_⟩
  · obtain ⟨t, g, hnext, hlaunched, hbytes, rfl, hframe⟩ :=
      exec_launch hentry (State.startLaunch_eq hold hop hmet hstopped hfenced hvoid hslot htrace)
    exact ⟨t, _, _, hnext, hlaunched.grid, rfl, rfl, rfl, rfl, rfl, rfl, rfl, rfl, rfl, rfl, hlaunched.entry, rfl, rfl, hbytes,
      hlaunched.cc, fun c w hw => hlaunched.free c w hw, fun hkilled => ⟨hframe hkilled, hlaunched.others⟩⟩
  · obtain ⟨t, u, v, hnext, hsame, hentryBytes, htailBytes⟩ := exec_gridEntryAppend hgrid hp hring hentry hpub hkilled
      ⟨hpresence, hflight, harmed⟩ rfl hheader hheaderMem hsize hroom hheld hplace htail hplaceMem htailMem
    have hlast : SameBytes t (t.setGrid l slot (some { g with entry := some (s.load (h + 8) 4) })) := sameBytes_of_eq rfl rfl
    refine ⟨_, hnext, State.grid_setGrid_same .., ?_, ?_, fun a hx hy => ?_⟩
    · rw [hlast.bytes_eq]
      have hapartBytes : t.bytes x 64 = v.bytes x 64 := List.map_congr_left fun k hk => by
        have := List.mem_range.1 hk
        exact htailBytes.sameBytesBut _ (by rw [length_leBytes]; omega)
      have hentryAt := hentryBytes.bytes_eq
      rw [length_gridEntry] at hentryAt
      rw [hapartBytes, hentryAt]
      rfl
    · rw [hlast.bytes_eq]
      have htailAt := htailBytes.bytes_eq
      rwa [length_leBytes] at htailAt
    · rw [hlast a, htailBytes.sameBytesBut a (by rw [length_leBytes]; omega),
        hentryBytes.sameBytesBut a (by rw [length_gridEntry]; omega), hsame a]
  · obtain ⟨hreg, hcc⟩ := s.killMarked_spec k l b g
    exact ⟨_, exec_veKill hlogical hmay hp hgrid hpub hslot hkilled hring hblocks, State.grid_setGrid_same .., hreg,
      sameBytes_of_eq rfl rfl, hcc, rfl⟩
  · obtain ⟨hstatus, hkill, hcores⟩ := s.killCompleted_spec l slot g
    obtain ⟨hnone, hdone⟩ := s.gridOver_spec l slot g
    have hall := s.killCompleted_frame l slot g
    refine ⟨_, exec_gridKillComplete hgrid hp hkilled hpub hslot hended, ?_, hstatus, hkill, fun e he => ?_, ?_, ?_⟩
    · rw [State.grid_of_cores hcores, hnone]
    · rw [State.entry_of_cores hcores, hdone e he]
      rfl
    · exact sameBytes_of_eq (t := s.killCompleted l slot g) (by rw [hall]) (by rw [hall])
    · exact hall
end

section
/-!
Blocks and lines of the L1: the claim of a distributor, the start of a block, and the end of a miss (R103, R107,
R110, R111, R121, R122).
-/

namespace Sys2Proof.Machine

open Sys2Proof

variable {s t u v : State}

/-! ### What leaves grids and blocks alone -/

/-- The states have the same grids and the same block records. -/
def SameGrids (s t : State) : Prop := t.clusters = s.clusters ∧ ∀ l k, t.grid l k = s.grid l k

theorem SameGrids.refl (s : State) : SameGrids s s := ⟨rfl, fun _ _ => rfl⟩
theorem SameGrids.trans (h : SameGrids s t) (k : SameGrids t u) : SameGrids s u :=
  ⟨k.1.trans h.1, fun l j => (k.2 l j).trans (h.2 l j)⟩
theorem SameGrids.cluster (h : SameGrids s t) (c : Nat) : t.cluster c = s.cluster c := by
  unfold State.cluster
  rw [h.1]
theorem SameGrids.block (h : SameGrids s t) (c r : Nat) : t.block c r = s.block c r := by
  unfold State.block
  rw [h.cluster]

theorem Accessed.sameGrids (h : Accessed s t) : SameGrids s t :=
  ⟨by rw [h.frame], fun l k => by rw [State.grid, h.core]; rfl⟩

theorem sameGrids_of_frame (h : t.clusters = s.clusters) (hcores : t.cores = s.cores) : SameGrids s t :=
  ⟨h, fun l k => by unfold State.grid State.core; rw [hcores]⟩

theorem State.sameGrids_setField (s : State) (n : RegName) (i j hi lo v : Nat) : SameGrids s (s.setField n i j hi lo v) :=
  sameGrids_of_frame rfl rfl

/-- A vector engine's core that keeps its grids. -/
theorem sameGrids_modVE (s : State) (l : Nat) (f : VE → VE) (hf : ∀ v, (f v).grids = v.grids) : SameGrids s (s.modVE l f) := by
  refine ⟨rfl, fun c k => ?_⟩
  unfold State.grid
  rw [State.modVE_eq]
  by_cases hc : c = l
  · rw [hc, State.core_setCore_same, hf]
  · rw [State.core_setCore_other _ _ hc]

theorem State.sameGrids_setGroup (s : State) (l g : Nat) (x : Option Group) : SameGrids s (s.setGroup l g x) :=
  sameGrids_modVE s l _ fun _ => rfl

theorem State.accessed_writePieces (s : State) (u : Unit) (ps : List (Nat × Nat)) (bs : List Byte) :
    Accessed s (s.writePieces u ps bs) :=
  foldl_keeps (fun r : List Byte × State => Accessed s r.2) _ (fun r _ h => h.trans (r.2.accessed_writeMem ..)) ps (bs, s)
    (Accessed.refl s)

theorem State.accessed_partRead {w : Unit} {p a n : Nat} {bs : List Byte} (h : s.partRead w p a n = some (bs, t)) :
    Accessed s t := by
  unfold State.partRead at h
  split at h
  · cases h
  · split at h
    · have hread := s.accessed_readPieces w ‹_› false
      rw [Option.some.inj h] at hread
      exact hread
    · cases h

theorem State.accessed_partWrite (s : State) (w : Unit) (p a : Nat) (bs : List Byte) : Accessed s (s.partWrite w p a bs) := by
  unfold State.partWrite
  split
  · exact Accessed.refl s
  · split
    · exact s.accessed_writePieces ..
    · exact Accessed.refl s

theorem State.sameGrids_trace (s : State) (p : Nat) (x : TraceEv) : SameGrids s (s.trace p x) := by
  have hdrop : SameGrids s (s.bumpField .MOD_TRC_DROPS p 0 31 0 1) := s.sameGrids_setField ..
  unfold State.trace
  simp only []
  split
  · exact hdrop
  · split
    · exact hdrop
    · split
      · refine SameGrids.trans (t := { s with obsBudget := s.obsBudget - 32 }) (sameGrids_of_frame rfl rfl) ?_
        exact (State.accessed_writePieces ..).sameGrids.trans (State.sameGrids_setField ..)
      · exact hdrop

theorem State.sameGrids_traceUnit (s : State) (p : Option Nat) (mode : Nat × W32) (x : TraceEv) :
    SameGrids s (s.traceUnit p mode x) := by
  unfold State.traceUnit
  split
  · exact SameGrids.refl s
  · split
    · exact s.sameGrids_trace ..
    · exact SameGrids.refl s

/-! ### The claim of a distributor (R110) -/

/-- The record of a block that is claimed from a launch ring: its index and entry count in the ring's header `h`, and the rest from
the grid entry `e`. -/
def claimedBlock (s : State) (c : ClusterId) (r ring : Nat) (h e : List Byte) : Block :=
  { core := 8 * c, slot := 0, st := .pulled, index := fieldLe h 0 4, publisher := fieldLe e 56 2, pslot := fieldLe e 58 1,
    ring := some ring, grid := fieldLe h 4 4, gen := SMap.get 0 (s.cluster c).gens r,
    lmSize := localOf (BitVec.ofNat 448 (fieldLe e 0 56)), body := BitVec.ofNat 448 (fieldLe e 0 56),
    span := ((s.gridOf ⟨fieldLe e 56 2, fieldLe e 58 1, some ring, fieldLe h 4 4⟩).map (·.span)).getD 0 }

/-- The state after the claim of a block of a grid that is not killed, from the state in which the ring's header is written. -/
def State.claimed (s : State) (c : ClusterId) (r ring : Nat) (h e : List Byte) : State :=
  (s.setBlock c r (some (claimedBlock s c r ring h e))).modCluster c fun x =>
    { x with pulled := x.pulled ++ [r], nextRing := (ring + 1) % 4 }

/-- A claim at a ring that holds a block of a grid that is not killed. The reads become a variable once they have taken their
values: the kernel would else evaluate them when it compares the branches. -/
theorem State.claim_eq {c : ClusterId} {p r ring : Nat} {h e : List Byte} {s1 s2 : State}
    (hheader : s.partRead (.dist c) p (s.ringAddr c ring) 16 = some (h, s1)) (hholds : fieldLe h 4 4 ≠ fieldLe h 8 4)
    (hsize : fieldLe h 12 4 ≠ 0)
    (hentry : s1.partRead (.dist c) p (ringEntry (s.ringAddr c ring) (fieldLe h 12 4) (fieldLe h 4 4)) 64 = some (e, s2))
    (hlive : fieldLe e 59 1 ≠ 1) :
    ∃ s3, SameGrids s s3 ∧ s.claim c p r ring = some (s3.claimed c r ring h e) := by
  have hreads := (State.accessed_partRead hheader).trans (State.accessed_partRead hentry)
  have hclaim : ∃ bs, s.claim c p r ring = some ((s2.partWrite (.dist c) p (s.ringAddr c ring) bs).claimed c r ring h e) := by
    generalize hf : State.claim = f
    delta State.claim at hf
    subst hf
    generalize State.partRead = read at *
    simp only [hheader, hholds, hsize, hentry, hlive, decide_false, Bool.or_false, Bool.false_eq_true, if_false]
    exact ⟨_, rfl⟩
  obtain ⟨bs, hclaim⟩ := hclaim
  exact ⟨_, (hreads.trans (s2.accessed_partWrite (.dist c) p (s.ringAddr c ring) bs)).sameGrids, hclaim⟩

/-- What a claim leaves: the record, the pulled blocks and the turn of the rings. -/
theorem State.claimed_spec {c : ClusterId} {r ring : Nat} {h e : List Byte} (hsame : SameGrids s t) :
    (t.claimed c r ring h e).block c r = some (claimedBlock t c r ring h e) ∧
      ((t.claimed c r ring h e).cluster c).nextRing = (ring + 1) % 4 ∧
      ((t.claimed c r ring h e).cluster c).pulled = (s.cluster c).pulled ++ [r] ∧
      ∀ k, k ≠ c.val → (t.claimed c r ring h e).cluster k = s.cluster k := by
  unfold State.claimed State.setBlock
  simp only [State.modCluster_eq]
  refine ⟨?_, ?_, ?_, fun k hk => ?_⟩
  · rw [State.block, State.cluster_setCluster_same, State.cluster_setCluster_same]
    simp
  · rw [State.cluster_setCluster_same]
  · rw [State.cluster_setCluster_same, State.cluster_setCluster_same, hsame.cluster]
  · rw [State.cluster_setCluster_other _ _ hk, State.cluster_setCluster_other _ _ hk, hsame.cluster]

theorem exec_distClaim {c : ClusterId} {ring : Fin 4} {p r : Nat} {before after : List Nat} (hp : s.partOfCluster c = some p)
    (hr : s.freeBlockRecord c = some r) (hturns : s.ringTurns c = before ++ ring.val :: after)
    (hbefore : ∀ x ∈ before, s.claim c p r x = none) (hstopped : (s.cluster c).stopped = false)
    (hcredit : (s.cluster c).pulled.length < 8 * (s.activeCores c).length) (hclaim : s.claim c p r ring = some t) :
    exec (.distClaim c ring) s = .next t := by
  have hexec : exec (.distClaim c ring) s = execDistClaim c ring s := rfl
  have hfind : (s.ringTurns c).find? (fun x => (s.claim c p r x).isSome) = some ring.val := by
    rw [hturns, List.find?_append, List.find?_eq_none.2 fun x hx => by simp [hbefore x hx], Option.none_or,
      List.find?_cons_of_pos (by simp [hclaim])]
  rw [hexec, execDistClaim, hp, hr]
  simp only [hstopped, Nat.not_le.2 hcredit, hfind, hclaim, decide_false, Bool.or_false, Bool.false_eq_true, if_false, if_true,
    Option.getD_some]

end Sys2Proof.Machine
end

section
/-!
The start of a block on a core (R103, R107, R111).
-/

namespace Sys2Proof.Machine

open Sys2Proof

variable {s t u v : State} {l : Nat}

/-! ### What the start of a block keeps -/

/-- The clusters' pulled blocks stand as they stood, and every grid of core `l` stays in its slot at its next block. -/
structure KeepsGrids (s t : State) (l : Nat) : Prop where
  pulled : ∀ c, (t.cluster c).pulled = (s.cluster c).pulled
  next : ∀ k n, (s.grid l k).map (·.next) = some n → (t.grid l k).map (·.next) = some n

theorem KeepsGrids.refl (s : State) (l : Nat) : KeepsGrids s s l := ⟨fun _ => rfl, fun _ _ h => h⟩
theorem KeepsGrids.trans (h : KeepsGrids s t l) (k : KeepsGrids t u l) : KeepsGrids s u l :=
  ⟨fun c => (k.pulled c).trans (h.pulled c), fun j n hn => k.next j n (h.next j n hn)⟩

theorem SameGrids.keepsGrids (h : SameGrids s t) (l : Nat) : KeepsGrids s t l :=
  ⟨fun c => by rw [h.cluster], fun k n hn => by rw [h.2, hn]⟩

theorem keepsGrids_setBlock (s : State) (l c r : Nat) (x : Option Block) : KeepsGrids s (s.setBlock c r x) l := by
  refine ⟨fun d => ?_, fun _ _ h => h⟩
  unfold State.setBlock
  rw [State.modCluster_eq]
  by_cases hd : d = c
  · rw [hd, State.cluster_setCluster_same]
  · rw [State.cluster_setCluster_other _ _ hd]

theorem State.grid_setGrid_core {l c : Nat} (s : State) (k j : Nat) (x : Option Grid) (h : c ≠ l) :
    (s.setGrid l k x).grid c j = s.grid c j := by
  unfold State.grid State.setGrid
  rw [State.modVE_eq, State.core_setCore_other _ _ h]

/-- A grid set in a slot that held none, or held one at the same next block. -/
theorem keepsGrids_setGrid {c k : Nat} {g : Grid} (h : ∀ n, (s.grid c k).map (·.next) = some n → g.next = n) :
    KeepsGrids s (s.setGrid c k (some g)) l := by
  refine ⟨fun _ => rfl, fun j n hn => ?_⟩
  by_cases hc : l = c
  · subst hc
    by_cases hj : j = k
    · subst hj
      rw [State.grid_setGrid_same, Option.map_some, h n hn]
    · rw [s.grid_setGrid_other l _ hj, hn]
  · rw [State.grid_setGrid_core _ _ _ _ hc, hn]

/-! ### The groups of a block (R97) -/

theorem State.startGroups_spec (l r : Nat) (b : Block) (n : Nat) : ∀ (s : State) (i : Nat) (gs : List Nat),
    SameGrids s (s.startGroups l r b n i gs).1 ∧ (s.startGroups l r b n i gs).2.length = gs.length + n := by
  induction n with
  | zero => exact fun s i gs => ⟨SameGrids.refl s, rfl⟩
  | succ n ih =>
    intro s i gs
    unfold State.startGroups
    simp only []
    generalize (s.freeGroups l (i % 4)).getD _ _ = g
    obtain ⟨hsame, hlength⟩ := ih
      (s.nextFree.setGroup l g (some { block := r, gi := i, u := launchRegs b.body b.index i b.lmBase }))
      (i + 1) (gs ++ [g])
    refine ⟨(SameGrids.trans (t := s.nextFree) (sameGrids_of_frame rfl rfl) (State.sameGrids_setGroup ..)).trans hsame, ?_⟩
    rw [hlength, List.length_append, List.length_singleton]
    omega

/-! ### The placement of a block (R103) -/

/-- The block as it starts on a core, before its groups are numbered. -/
def Block.placed (b : Block) (s : State) (l k base : Nat) : Block :=
  { b with core := l, slot := k, st := .resident, lmBase := base, pushBase := s.pushCounts l }

/-- The grids as the start of a block leaves them: the core's slot `k` holds the grid, and its publisher notes the core. -/
def State.gridsPlaced (s : State) (l k : Nat) (b : Block) : State :=
  let own : Grid := (s.grid l k).getD
    { acc := b.grid, publisher := b.publisher, pslot := b.pslot, ring := b.ring, entry := some b.grid, body := b.body,
      span := b.span,
      total := 0 }
  let s := if s.begun b.gridId l then s else s.modVE l fun v => { v with l1 := [] }
  let s := s.setGrid l k (some own)
  match s.gridOf b.gridId with
  | some g => if g.begunOn.contains l then s else s.setGrid b.publisher b.pslot (some { g with begunOn := g.begunOn ++ [l] })
  | none => s

/-- The block and its groups, placed. -/
def State.blockPlaced (s : State) (l r : Nat) (b : Block) : State :=
  let started := (s.setBlock (l / 8) r (some b)).startGroups l r b (groupsOf b.body) 0 []
  started.1.setBlock (l / 8) r (some { b with groups := started.2 })

theorem State.placeBlock_eq {r k base : Nat} {b : Block} (hslot : s.slotFor l b.gridId = some k)
    (hbase : s.findLm l b.lmSize = some base) : ∃ p mode x, s.placeBlock l r b =
      ((s.gridsPlaced l k (b.placed s l k base)).blockPlaced l r (b.placed s l k base)).traceUnit p mode x := by
  unfold State.placeBlock
  rw [hslot, hbase]
  exact ⟨_, _, _, rfl⟩

theorem State.keepsGrids_gridsPlaced (s : State) (l k : Nat) (b : Block) : KeepsGrids s (s.gridsPlaced l k b) l := by
  unfold State.gridsPlaced
  simp only []
  generalize hown : (s.grid l k).getD _ = own
  have hstart : SameGrids s (if s.begun b.gridId l then s else s.modVE l fun v => { v with l1 := [] }) := by
    split
    · exact SameGrids.refl s
    · exact sameGrids_modVE s l _ fun _ => rfl
  generalize (if s.begun b.gridId l then s else s.modVE l fun v => { v with l1 := [] }) = v at *
  have hset : KeepsGrids v (v.setGrid l k (some own)) l := keepsGrids_setGrid fun n hn => by
    rw [hstart.2] at hn
    obtain ⟨g, hg, rfl⟩ := Option.map_eq_some_iff.1 hn
    rw [← hown, hg, Option.getD_some]
  refine (hstart.keepsGrids l).trans (hset.trans ?_)
  generalize v.setGrid l k (some own) = u at *
  cases hgrid : u.gridOf b.gridId with
  | none => exact KeepsGrids.refl u l
  | some g =>
    simp only []
    split
    · exact KeepsGrids.refl u l
    · have hpub : u.grid b.publisher b.pslot = some g := by
        unfold State.gridOf at hgrid
        cases hu : u.grid b.gridId.pub b.gridId.slot with
        | none => rw [hu] at hgrid; cases hgrid
        | some x =>
          rw [hu] at hgrid
          simp only [Option.ite_none_right_eq_some, Option.some.injEq] at hgrid
          exact hu.trans (congrArg some hgrid.2)
      exact keepsGrids_setGrid fun n hn => by
        rw [hpub] at hn
        exact Option.some.inj hn

theorem State.blockPlaced_spec (s : State) (l r : Nat) (b : Block) : ∃ gs, (s.blockPlaced l r b).block (l / 8) r =
    some { b with groups := gs } ∧ gs.length = groupsOf b.body ∧ KeepsGrids s (s.blockPlaced l r b) l := by
  obtain ⟨hsame, hlength⟩ := State.startGroups_spec l r b (groupsOf b.body) (s.setBlock (l / 8) r (some b)) 0 []
  refine ⟨_, ?_, hlength.trans (Nat.zero_add _), ?_⟩
  · unfold State.blockPlaced
    simp [State.block, State.setBlock]
  · exact (keepsGrids_setBlock s l (l / 8) r _).trans ((hsame.keepsGrids l).trans (keepsGrids_setBlock _ l (l / 8) r _))

theorem State.placeBlock_spec {r k base : Nat} {b : Block} (hslot : s.slotFor l b.gridId = some k)
    (hbase : s.findLm l b.lmSize = some base) :
    ∃ gs, (s.placeBlock l r b).block (l / 8) r = some { b.placed s l k base with groups := gs } ∧ gs.length = groupsOf b.body ∧
      KeepsGrids s (s.placeBlock l r b) l := by
  obtain ⟨p, mode, x, hplace⟩ := State.placeBlock_eq (r := r) hslot hbase
  have hgrids := s.keepsGrids_gridsPlaced l k (b.placed s l k base)
  obtain ⟨gs, hblock, hlength, hkeeps⟩ := (s.gridsPlaced l k (b.placed s l k base)).blockPlaced_spec l r (b.placed s l k base)
  have htrace := ((s.gridsPlaced l k (b.placed s l k base)).blockPlaced l r (b.placed s l k base)).sameGrids_traceUnit p mode x
  rw [hplace]
  exact ⟨gs, by rw [htrace.block, hblock], hlength, hgrids.trans (hkeeps.trans (htrace.keepsGrids l))⟩

/-! ### Where a block fits (R103, R111) -/

theorem State.fits_spec {i : GridId} {body : BitVec 448} (h : s.fits l i body = true) :
    ∃ base k, s.findLm l (localOf body) = some base ∧ s.slotFor l i = some k := by
  unfold State.fits at h
  simp only [Bool.and_eq_true] at h
  obtain ⟨⟨-, hbase⟩, hslot⟩ := h
  obtain ⟨base, hbase⟩ := Option.isSome_iff_exists.1 hbase
  obtain ⟨k, hslot⟩ := Option.isSome_iff_exists.1 hslot
  exact ⟨base, k, hbase, hslot⟩

/-- A core that holds a grid has a slot for its blocks. -/
theorem State.slotFor_of_grid {k : Nat} {g : Grid} (hk : k < 4) (h : s.grid l k = some g) : ∃ j, s.slotFor l g.id = some j := by
  unfold State.slotFor
  cases hhead : (below 4 fun k => match s.grid l k with
    | none => false
    | some x => decide (x.id = g.id)).head? with
  | some j => exact ⟨j, rfl⟩
  | none =>
    refine absurd (List.head?_eq_none_iff.1 hhead) (List.ne_nil_of_mem (a := k) ?_)
    exact List.mem_filter.2 ⟨List.mem_range.2 hk, by simp [h]⟩

theorem State.physOf_congr (hregs : t.regs = s.regs) (l : Nat) : t.physOf l = s.physOf l := by
  have hslot : t.slotOf l = s.slotOf l := by unfold State.slotOf State.field State.reg; rw [hregs]
  rw [State.physOf, hslot]
  rfl

theorem State.lmSize_congr (hregs : t.regs = s.regs) (l : Nat) : t.lmSize l = s.lmSize l := by
  unfold State.lmSize State.field State.reg
  rw [State.physOf_congr hregs, hregs]

theorem State.findLm_congr (hblocks : (t.cluster (l / 8)).blocks = (s.cluster (l / 8)).blocks) (hregs : t.regs = s.regs) (n : Nat) :
    t.findLm l n = s.findLm l n := by
  have hallocs : t.allocs l = s.allocs l := by unfold State.allocs; rw [hblocks]
  have hlm : t.blockLm l = s.blockLm l := by
    unfold State.blockLm State.field State.reg
    rw [State.lmSize_congr hregs, State.physOf_congr hregs, hregs]
  unfold State.findLm
  rw [hallocs, hlm]

theorem State.localReady_spec {k : Nat} {g : Grid} (h : s.localReady l k = some g) :
    s.grid l k = some g ∧ g.publisher = l ∧ g.pslot = k ∧ g.ring = none ∧ s.fits l g.id g.body = true := by
  unfold State.localReady at h
  cases hgrid : s.grid l k with
  | none => rw [hgrid] at h; cases h
  | some x =>
    rw [hgrid] at h
    simp only [Option.ite_none_right_eq_some, Option.some.injEq, Bool.and_eq_true, decide_eq_true_eq,
      Option.isNone_iff_eq_none] at h
    obtain ⟨⟨⟨⟨⟨⟨⟨hpub, hslot⟩, hring⟩, -⟩, -⟩, hfits⟩, -⟩, rfl⟩ := h
    exact ⟨rfl, hpub, hslot, hring, hfits⟩

/-- The core that R111 picks is an active core of the cluster that the block fits. -/
theorem State.pickCore_spec {c : Nat} {b : Block} (h : s.pickCore c b = some l) :
    l ∈ s.activeCores c ∧ s.fits l b.gridId b.body = true := by
  have hmem : ∀ (ks : List Nat) (m : Option Nat), ks.foldl (fun m l =>
      match m with
      | none => some l
      | some k => if (s.core l).ve.resident < (s.core k).ve.resident then some l else some k) m = some l → m = some l ∨ l ∈ ks := by
    intro ks
    induction ks with
    | nil => exact fun m h => .inl h
    | cons j ks ih =>
      intro m hm
      rcases ih _ hm with hj | hj
      · cases m with
        | none => exact .inr (List.mem_cons.2 (.inl (Option.some.inj hj).symm))
        | some k =>
          simp only at hj
          split at hj
          · exact .inr (List.mem_cons.2 (.inl (Option.some.inj hj).symm))
          · exact .inl hj
      · exact .inr (List.mem_cons_of_mem _ hj)
  rcases hmem _ none h with hnone | hin
  · cases hnone
  · exact (List.mem_filter.1 hin).imp id id

theorem State.cluster_of_activeCores {c : Nat} (h : l ∈ s.activeCores c) : l / 8 = c := by
  obtain ⟨k, hk, rfl⟩ := List.mem_map.1 (List.mem_filter.1 h).1
  have := List.mem_range.1 hk
  omega

/-! ### BLOCK_START (R103, R107, R111) -/

/-- The record of the next block of a local-mode grid. -/
def localBlock (s : State) (l : CoreId) (k : Fin 4) (r : Nat) (g : Grid) : Block :=
  { core := l, slot := k, st := .resident, index := g.next, publisher := l, pslot := k, grid := g.acc,
    gen := SMap.get 0 (s.cluster (l / 8)).gens r, lmSize := localOf g.body, body := g.body, span := g.span }

/-- A grid's next block is taken. -/
def State.nextTaken (s : State) (l k : Nat) (g : Grid) : State := s.setGrid l k (some { g with next := g.next + 1 })

/-- A block has left the pulled blocks of its cluster. -/
def State.unpulled (s : State) (c r : Nat) : State := s.modCluster c fun x => { x with pulled := x.pulled.filter (· != r) }

/-- The core's next start alternates (R103). -/
def State.turned (s : State) (l : Nat) (local_ : Bool) : State := s.modVE l fun v => { v with distTurn := local_ }

theorem State.turned_spec (s : State) (l : Nat) (local_ : Bool) :
    SameGrids s (s.turned l local_) ∧ ((s.turned l local_).core l).ve.distTurn = local_ := by
  refine ⟨sameGrids_modVE s l _ fun _ => rfl, ?_⟩
  unfold State.turned
  rw [State.modVE_eq, State.core_setCore_same]

theorem exec_blockStart_local {l : CoreId} {k : Fin 4} {g : Grid} {r : Nat} (hready : s.localReady l k = some g)
    (hrecord : s.freeBlockRecord (l / 8) = some r) (hturn : ((s.core l).ve.distTurn && s.pulledReady l) = false) :
    exec (.blockStart (.locally l k)) s = .next (((s.nextTaken l k g).placeBlock l r
      (localBlock s l k r g)).turned l true) := by
  have hexec : exec (.blockStart (.locally l k)) s = execBlockStart (.locally l k) s := rfl
  rw [hexec]
  unfold execBlockStart
  simp only [hready, hrecord, hturn, Bool.false_eq_true, if_false]
  rfl

theorem exec_blockStart_pulled {c : ClusterId} {r : Nat} {b : Block} (hhead : s.headPulled c = some (r, b))
    (hlive : s.gridDead b.gridId = false) (hroom : ((s.activeCores c).all fun k => decide (s.blockLm k < b.lmSize)) = false)
    (hpick : s.pickCore c b = some l)
    (hturn : (!(s.core l).ve.distTurn && (List.range 4).any fun k => (s.localReady l k).isSome) = false) :
    exec (.blockStart (.pulled c)) s = .next (((s.unpulled c r).placeBlock l r
      b).turned l false) := by
  have hexec : exec (.blockStart (.pulled c)) s = execBlockStart (.pulled c) s := rfl
  rw [hexec]
  unfold execBlockStart
  simp only [hhead, hlive, hroom, hpick, hturn, Bool.false_eq_true, if_false]
  rfl

/-- What the start of a local-mode block leaves. -/
theorem blockStart_local {l : CoreId} {k : Fin 4} {g : Grid} {r : Nat} (hready : s.localReady l k = some g)
    (ht : t = ((s.nextTaken l k g).placeBlock l r (localBlock s l k r g)).turned l true) :
    ∃ gs j base, t.block (l / 8) r = some { (localBlock s l k r g).placed (s.nextTaken l k g) l j base with groups := gs } ∧
      gs.length = groupsOf g.body ∧ s.findLm l (localOf g.body) = some base ∧ (t.grid l k).map (·.next) = some (g.next + 1) ∧
      (t.core l).ve.distTurn = true := by
  obtain ⟨hgrid, hpub, hpslot, hring, hfits⟩ := State.localReady_spec hready
  obtain ⟨base, -, hbase, -⟩ := State.fits_spec hfits
  have hnext : (s.nextTaken l k g).grid l k = some { g with next := g.next + 1 } := State.grid_setGrid_same ..
  have hbase' : (s.nextTaken l k g).findLm l (localBlock s l k r g).lmSize = some base :=
    (State.findLm_congr rfl rfl _).trans hbase
  have hid : (localBlock s l k r g).gridId = ({ g with next := g.next + 1 } : Grid).id := by
    simp [Block.gridId, localBlock, Grid.id, hpub, hpslot, hring]
  obtain ⟨j, hslot⟩ := State.slotFor_of_grid k.isLt hnext
  rw [← hid] at hslot
  obtain ⟨gs, hblock, hlength, hkeeps⟩ := State.placeBlock_spec (r := r) hslot hbase'
  obtain ⟨hsame, hturn⟩ := State.turned_spec ((s.nextTaken l k g).placeBlock l r (localBlock s l k r g)) l true
  rw [ht]
  refine ⟨gs, j, base, ?_, hlength, hbase, ?_, hturn⟩
  · rw [hsame.block, hblock]
  · rw [hsame.2]
    exact hkeeps.next k (g.next + 1) (by rw [hnext]; rfl)

/-- What the start of a pulled block leaves. -/
theorem blockStart_pulled {c r : Nat} {b : Block} (hpick : s.pickCore c b = some l) (hsize : b.lmSize = localOf b.body)
    (ht : t = ((s.unpulled c r).placeBlock l r b).turned l false) :
    ∃ gs j base, t.block c r = some { b.placed (s.unpulled c r) l j base with groups := gs } ∧ gs.length = groupsOf b.body ∧
      s.findLm l b.lmSize = some base ∧ r ∉ (t.cluster c).pulled ∧ (t.core l).ve.distTurn = false := by
  obtain ⟨hactive, hfits⟩ := State.pickCore_spec hpick
  obtain ⟨base, j, hbase, hslot⟩ := State.fits_spec hfits
  rw [← hsize] at hbase
  have hallocs : (s.unpulled c r).findLm l b.lmSize = some base := by
    have hblocks : ((s.unpulled c r).cluster (l / 8)).blocks = (s.cluster (l / 8)).blocks := by
      rw [State.unpulled, State.modCluster_eq]
      by_cases hc : l / 8 = c
      · rw [hc, State.cluster_setCluster_same]
      · rw [State.cluster_setCluster_other _ _ hc]
    rw [State.findLm_congr hblocks rfl, hbase]
  have hslot' : (s.unpulled c r).slotFor l b.gridId = some j := hslot
  obtain ⟨gs, hblock, hlength, hkeeps⟩ := State.placeBlock_spec (r := r) hslot' hallocs
  obtain ⟨hsame, hturn⟩ := State.turned_spec ((s.unpulled c r).placeBlock l r b) l false
  rw [ht, State.cluster_of_activeCores hactive] at *
  refine ⟨gs, j, base, ?_, hlength, hbase, ?_, hturn⟩
  · rw [hsame.block, hblock]
  · rw [hsame.cluster, hkeeps.pulled, State.unpulled, State.modCluster_eq, State.cluster_setCluster_same]
    simp

end Sys2Proof.Machine
end

section
/-!
The end of a miss of the L1 group cache (R121, R122).
-/

namespace Sys2Proof.Machine

open Sys2Proof

variable {s t u : State} {l : Nat}

/-! ### Groups changed one by one -/

theorem State.group_modGroup_same (s : State) (l g : Nat) (f : Group → Group) :
    (s.modGroup l g f).group l g = (s.group l g).map f := by
  unfold State.modGroup
  cases hg : s.group l g with
  | none => exact hg
  | some x => exact State.group_setGroup_same ..

theorem State.group_modGroup_other (s : State) (l : Nat) {g k : Nat} (f : Group → Group) (h : k ≠ g) :
    (s.modGroup l g f).group l k = s.group l k := by
  unfold State.modGroup
  cases s.group l g with
  | none => rfl
  | some x => exact State.group_setGroup_other _ _ _ h

theorem group_foldl_modGroup (f : Group → Group) {k : Nat} : ∀ (ks : List Nat) (s : State), ks.Nodup →
    (ks.foldl (fun s g => s.modGroup l g f) s).group l k = if k ∈ ks then (s.group l k).map f else s.group l k := by
  intro ks
  induction ks with
  | nil => exact fun s _ => rfl
  | cons g ks ih =>
    intro s hnodup
    obtain ⟨hg, hnodup⟩ := List.nodup_cons.1 hnodup
    rw [List.foldl_cons, ih _ hnodup]
    by_cases hk : k = g
    · subst hk
      rw [if_neg hg, if_pos List.mem_cons_self, State.group_modGroup_same]
    · rw [State.group_modGroup_other _ _ _ hk]
      simp only [List.mem_cons, hk, false_or]

/-! ### A miss that is over (R121) -/

/-- What a returned line makes of a group: one that waits for it goes on, with the line's bytes. -/
def Group.filled (line key : Nat) (bs : List Byte) (x : Group) : Group :=
  if x.status = .missed line then { x with status := .ready, fills := SMap.set [] x.fills key bs } else x

/-- What differs after a miss is over. -/
structure MissOver (s t : State) (l line key : Nat) (bs : List Byte) : Prop where
  frame : t = { s with cores := t.cores }
  misses : (t.core l).ve.misses = (s.core l).ve.misses.filter (· != line)
  groups : ∀ k, k < 48 → t.group l k = (s.group l k).map (Group.filled line key bs)

theorem modGroup_keeps_misses {v : State} {g : Nat} {f : Group → Group}
    (h : t = { s with cores := t.cores } ∧ (t.core l).ve.misses = (v.core l).ve.misses) :
    t.modGroup l g f = { s with cores := (t.modGroup l g f).cores } ∧
      ((t.modGroup l g f).core l).ve.misses = (v.core l).ve.misses := by
  obtain ⟨hframe, hmisses⟩ := h
  unfold State.modGroup
  cases t.group l g with
  | none => exact ⟨hframe, hmisses⟩
  | some x =>
    have hset : t.setGroup l g (some (f x)) = { t with cores := (t.setGroup l g (some (f x))).cores } := rfl
    have hsame : ((t.setGroup l g (some (f x))).core l).ve.misses = (t.core l).ve.misses := by simp [State.setGroup]
    refine ⟨?_, hsame.trans hmisses⟩
    simp only []
    rw [hset, hframe]

theorem State.missOver_wakeMiss (s : State) (l line key : Nat) (bs : List Byte) :
    MissOver s (s.wakeMiss l line key bs) l line key bs := by
  have hfold : s.wakeMiss l line key bs = (List.range 48).foldl (fun s g => s.modGroup l g (Group.filled line key bs))
      (s.modVE l fun v => { v with misses := v.misses.filter (· != line) }) := rfl
  rw [hfold]
  generalize hv : (s.modVE l fun v => { v with misses := v.misses.filter (· != line) }) = v
  have hve : (v.core l).ve = { (s.core l).ve with misses := (s.core l).ve.misses.filter (· != line) } := by
    rw [← hv, State.modVE_eq, State.core_setCore_same]
  have hframe : v = { s with cores := v.cores } := by rw [← hv]; rfl
  have hkeeps := foldl_keeps (fun t : State => t = { s with cores := t.cores } ∧ (t.core l).ve.misses = (v.core l).ve.misses)
    (fun s g => s.modGroup l g (Group.filled line key bs)) (fun t g h => modGroup_keeps_misses h) (List.range 48) v ⟨hframe, rfl⟩
  refine ⟨hkeeps.1, hkeeps.2.trans (by rw [hve]), fun k hk => ?_⟩
  rw [group_foldl_modGroup _ _ _ List.nodup_range, if_pos (List.mem_range.2 hk)]
  exact congrArg (Option.map _) (by rw [State.group, hve]; rfl)

/-- A line placed in the L1: it stands first, where the L1 holds lines at all (R121, R122). -/
theorem State.l1Place_spec (s : State) (l : Nat) (x : L1Line) :
    s.l1Place l x = { s with cores := (s.l1Place l x).cores } ∧ ((s.l1Place l x).core l).ve.misses = (s.core l).ve.misses ∧
      (∀ k, (s.l1Place l x).group l k = s.group l k) ∧
      (s.l1Sets l ≠ 0 → ((s.l1Place l x).core l).ve.l1.head? = some x) := by
  unfold State.l1Place
  simp only []
  split
  case isTrue hsets => exact ⟨rfl, rfl, fun _ => rfl, fun h => absurd hsets h⟩
  case isFalse hsets =>
    refine ⟨rfl, ?_, fun k => ?_, fun _ => ?_⟩
    · rw [State.modVE_eq, State.core_setCore_same]
    · rw [State.group, State.modVE_eq, State.core_setCore_same]
      rfl
    · rw [State.modVE_eq, State.core_setCore_same]
      rfl

theorem exec_l1Fill {l : CoreId} {line p a : Nat} (hp : s.partOf l = some p) (hmiss : (s.core l).ve.misses.contains line = true)
    (hpieces : s.pinnedPieces p (line * 128) 128 = some [(a, 128)]) (hhere : s.remoteOf a = none)
    (hmem : s.isMemoryRange a 128 = true) (hawake : s.homesAsleep a 128 = false) (hs : Quiet s) :
    ∃ u, OnlyTags s u ∧ exec (.l1Fill l line) s = .next ((u.wakeMiss l line (lineKey line) (s.bytes a 128)).l1Place l
      { line := line, data := BitVec.ofNat 1024 (ofLe (s.bytes a 128)) }) := by
  have hexec : exec (.l1Fill l line) s = execL1Fill l line s := rfl
  obtain ⟨hbytes, htags⟩ := State.readMem_quiet hs (.ve l) a 128 false
  have hasleep : s.piecesAsleep [(a, 128)] = false := by simp [State.piecesAsleep, hawake]
  have hread : s.vePieces l none [(a, 128)] = (.data (s.bytes a 128), (s.readMem (.ve l) a 128).2) := by
    unfold State.vePieces
    simp only [hhere, hmem, if_true, hbytes, State.vePieces, List.append_nil]
  refine ⟨_, htags, ?_⟩
  rw [hexec]
  unfold execL1Fill
  simp only [hp, hmiss, hpieces, hasleep, hread, Bool.not_true, Bool.false_eq_true, if_false]

/-- What a miss leaves whose line has come from this module's memory. -/
theorem lineReturned {line key : Nat} {bs : List Byte} {x : L1Line} (htags : OnlyTags s u)
    (ht : t = (u.wakeMiss l line key bs).l1Place l x) :
    t.mem = s.mem ∧ t.lost = s.lost ∧ t.regs = s.regs ∧
      (t.core l).ve.misses = (s.core l).ve.misses.filter (· != line) ∧
      (∀ k, k < 48 → t.group l k = (s.group l k).map (Group.filled line key bs)) ∧
      (s.l1Sets l ≠ 0 → (t.core l).ve.l1.head? = some x) := by
  obtain ⟨hwoken, hmisses, hgroups⟩ := u.missOver_wakeMiss l line key bs
  generalize u.wakeMiss l line key bs = v at *
  obtain ⟨hframe, hkept, hsame, hfirst⟩ := v.l1Place_spec l x
  rw [← ht] at hframe hkept hfirst
  have hregs : v.regs = s.regs := by rw [hwoken, htags]
  have hsets : v.l1Sets l = s.l1Sets l := by unfold State.l1Sets; rw [State.lmSize_congr hregs]
  have hcore : u.core l = s.core l := by rw [htags]; rfl
  refine ⟨by rw [hframe, hwoken, htags], by rw [hframe, hwoken, htags], by rw [hframe]; exact hregs, ?_, fun k hk => ?_, ?_⟩
  · rw [hkept, hmisses, hcore]
  · rw [ht, hsame, hgroups k hk]
    exact congrArg (Option.map _) (by unfold State.group; rw [hcore])
  · rw [← hsets]
    exact hfirst

end Sys2Proof.Machine

open Sys2Proof Sys2Proof.Machine

/-- Settles O18. -/
theorem blocksStartAndLinesArrive : Obligations.BlocksStartAndLinesArrive := by
  unfold Obligations.BlocksStartAndLinesArrive
  refine ⟨fun s c ring p r h e s1 s2 before after hp hr hturns hbefore hstopped hcredit hheader hholds hsize hentry hlive => ?_,
    fun s l k g r hready hrecord hturn => ?_, fun s c r b l hhead hlive hroom hpick hturn hsize => ?_,
    fun s l line p a hp hmiss hpieces hhere hmem hawake hpresence hflight => ?_⟩
  · obtain ⟨s3, hsame, hclaim⟩ := State.claim_eq (r := r) hheader hholds hsize hentry hlive
    obtain ⟨hblock, hnext, hpulled, hothers⟩ := State.claimed_spec (c := c) (r := r) (ring := ring) (h := h) (e := e) hsame
    exact ⟨_, _, exec_distClaim hp hr hturns hbefore hstopped hcredit hclaim, hblock, rfl, rfl, rfl, rfl, hnext, rfl, rfl, rfl,
      hpulled, hothers⟩
  · obtain ⟨gs, j, base, hblock, hlength, hbase, hnext, hturned⟩ := blockStart_local (r := r) hready rfl
    exact ⟨_, _, exec_blockStart_local hready hrecord hturn, hblock, rfl, rfl, rfl, rfl, rfl, rfl, hlength, hbase, hnext, hturned⟩
  · obtain ⟨gs, j, base, hblock, hlength, hbase, hleft, hturned⟩ := blockStart_pulled (c := c) (r := r) hpick hsize rfl
    exact ⟨_, _, exec_blockStart_pulled hhead hlive hroom hpick hturn, hblock, rfl, rfl, rfl, rfl, hlength, hbase, hleft, hturned⟩
  · obtain ⟨u, htags, hnext⟩ := exec_l1Fill hp hmiss hpieces hhere hmem hawake ⟨hpresence, hflight⟩
    obtain ⟨hmem', hlost', hregs', hdone, hgroups, hfirst⟩ := lineReturned htags rfl
    refine ⟨_, hnext, sameBytes_of_eq hmem' hlost', fun n i j => by rw [State.reg, hregs']; rfl, by rw [hdone]; simp,
      fun g x hx hstatus => ?_, fun g x hx hstatus => ?_, hfirst⟩
    · rw [hgroups g g.isLt, hx, Option.map_some, Group.filled, if_pos hstatus]
    · rw [hgroups g g.isLt, hx, Option.map_some, Group.filled, if_neg hstatus]
end
